-- ==== Sys2Proof/Word.lean ====
section
/-! DEFINITION. The word types of the part: 16-bit register and frame words, bytes, and exact complex values.

Registers and frame words are 16-bit (R3, R58, R81); a record is a complex value (R184). -/

namespace Sys2Proof

/-- A register word or a word of a link frame (R3, R58). -/
abbrev Word := BitVec 16

/-- A byte of the Shed, of the HID descriptor or of the tracker core. -/
abbrev Byte := BitVec 8

/-- A complex value with integer parts, in the unit its user names (R184). -/
structure Cx where
  re : Int
  im : Int
  deriving DecidableEq, Repr

namespace Cx

def zero : Cx := { re := 0, im := 0 }
def add (a b : Cx) : Cx := { re := a.re + b.re, im := a.im + b.im }
def sub (a b : Cx) : Cx := { re := a.re - b.re, im := a.im - b.im }
def mul (a b : Cx) : Cx := { re := a.re * b.re - a.im * b.im, im := a.re * b.im + a.im * b.re }
def scale (k : Int) (a : Cx) : Cx := { re := k * a.re, im := k * a.im }
/-- The square of the magnitude. -/
def norm2 (a : Cx) : Int := a.re * a.re + a.im * a.im

end Cx

end Sys2Proof
end

