-- ==== Sys2Proof/Syntax.lean ====
section
/-! DEFINITION. The commands of the block: one constructor for each row of spec/opcode_table.json, with its operands.

A request of the link carries its received frame (R58). A physical event carries what the part measures at it
(converter codes, monitor values), since the electrodes, the supply and the clock lie outside the part. -/

namespace Sys2Proof

/-- A received link frame after its SYNC (Table LT-1): two header words, the payload and the CRC as received. -/
structure Frame where
  h0 : Word
  h1 : Word
  payload : List Word
  crc : Word
  deriving DecidableEq, Repr

/-- What a slot delivers at its end: for each of the 17 lanes (16 = LSP) its raw converter codes of samples
n = 0, 1, ..., 2559 (R157, R158); in a slot of CALTRACE the time constant in ps fitted for each of the 16 electrodes of
the round (R146; none: outside its range); in a slot of OPENTEST the voltage of each of them from bias, in µV, at the
samples of the window (R310). -/
structure SlotData where
  codes : List (List Int)
  fits : List (Option Int)
  volts : List (List Int)
  deriving DecidableEq, Repr

/-- The monitor values a frame boundary samples (R37, R313): VPH in 10 mV, phantom current in 0.5 mA, junction
temperature in 1/16 degree before CALF.TEMPOFS, and the four rails in mV. -/
structure Monitors where
  vph : Nat
  iph : Nat
  temp : Int
  rails : List Nat
  deriving DecidableEq, Repr

/-- One gang's measurements in a Scarecrow cycle (R257, R263): the integrator at the comparator's decision, the codes of
the gang's burst, and the codes of its quarter looks' bursts: of the four that follow its look, and of the four of a relearn
that follows a confirmation (R262). All are raw converter codes, 16 for a burst, of which it takes the first LEN + 1 (R173). -/
structure GangLook where
  integ : Int
  burst : List Int
  quarters : List (List Int)
  again : List (List Int)
  deriving DecidableEq, Repr

/-- The commands, in the order of opcode_table.json. BLANK_ASSERT, BLANK_DEASSERT and VSYNC_EDGE from outside are changes of
the level at the ball, which the part samples and deglitches (R148, R190); the change of the effective level follows D hc
later, as the same command from the part's own agenda (log entry 70). -/
inductive Instr where
  | read (f : Frame)
  | write (f : Frame)
  | writea (f : Frame)
  | grant (f : Frame)
  | credit (f : Frame)
  | resend (f : Frame)
  | tsync (f : Frame)
  | rebase (f : Frame)
  | dbgctlStatus (f : Frame)
  | dbgctlHalt (f : Frame)
  | dbgctlRun (f : Frame)
  | dbgctlStep (f : Frame)
  | dbgrd (f : Frame)
  | dbgwr (f : Frame)
  | abort (f : Frame)
  | syncerr (received : Word)
  | responseReady
  | attnReassert
  | postedWordApply
  | registerWrite (addr value : Word)
  | wideValueCommit (addr value : Word)
  | wideValueLatchRead (addr : Word)
  | wideValueHighRead (addr : Word)
  | rcRead (addr : Word)
  | iset (page : Byte) (bits : Word)
  | lock (page : Byte) (value : Word)
  | hclkfWrite (value : Word)
  | hclkStop (hostFrameInFlight : Bool)
  | absenceTimerTrip
  | hclkResume
  | jump
  | delayLineLock (code : Word)
  | hclkMeasurement (hcCount : Nat)
  | vphQualified
  | softStartDone
  | ilim
  | foldback
  | foldbackOpenEnd
  | por
  | vphLow
  | vphLowClear
  | vphHigh
  | esdHit
  | thermal
  | thermalRelease
  | thermalDeferralExpiry
  | writeAbort150c
  | thwarn
  | thermalWarnClear
  | regbo
  | railRestored
  | wdog
  | shedBankSelection
  | shedPageProgramDone
  | shedSaveReadbackDone
  | save
  | forget
  | refRdy
  | reffail
  | refout
  | goActive
  | goWatch
  | goDormant
  | goService
  | reset (arg : Byte)
  | selfcal
  | calzero
  | calpoint (p : Byte)
  | calsolve
  | caltrace
  | caltick
  | opentest
  | faillane (lane : Byte)
  | automode
  | frameBoundary (m : Monitors)
  | dormantModeSet
  | hostWakeRequest
  | dormantExitStart
  | epochReport
  | slotEnd (d : SlotData)
  | recordsReady
  | ntrip
  | waterMapUpdate
  | outputReady
  | trellisOutput
  | stuck (id : Nat)
  | toneCommit
  | toneSnap
  | sieveRsync
  | ovld (drives : List Nat)
  | blankAssert
  | blankDeassert
  | pauseEnd
  | blanked
  | blankChatter
  | blankStuck
  | laneBlankWrite (value : Word)
  | vsyncEdge
  | vlost
  | svcoefDataAccess (write : Option Word)
  | igo
  | injectedSequenceTrigger (host cloche : Bool)
  | injectedSequenceEnd
  | scarecrowCycle (looks : List GangLook)
  | timerModeChange (t : Nat) (tctrl : Word)
  | timerSync (mask : Word)
  | timerArm (t : Nat)
  | timerSwcap (t : Nat)
  | timerWrap (t : Nat)
  | timerCapture (t : Nat)
  | timerMeasureStart (t : Nat)
  | timerMeasureStop (t : Nat)
  | gaugeEnable (en : Bool)
  | gaugePeriod
  | gaugeFreqEdge
  | queueSnap
  | queueReplay (seq : Word)
  | slewEnd
  | hiddDataRead
  | ucdataAccess (write : Option Word)
  | qualificationRestart
  | limiterEngaged
  | limiterReleased
  | refxEntersWindow
  | firstHclkEdge
  | resetCircuitCyclesDone
  | exitRampEnd
  deriving DecidableEq, Repr

end Sys2Proof
end

