-- ==== Sys2Proof/Config.lean ====
section
/-! DEFINITION. What one implementation fixes and the manual leaves open: the free values. Nothing in Lean can
evaluate them, so no statement rests on one (log entry 3). -/

namespace Sys2Proof
namespace Config

/-- A value the manual leaves open at the draw with this number. -/
opaque freeWord : Nat → BitVec 16

/-- A part of a record of a slot that was cut short, by draw number and part (R47, R150): the window is incomplete, and
the manual states no value. -/
opaque cutPart : Nat → Nat → BitVec 24

/-- Whether a sample of a lane clipped in the DFT window of a slot that was cut short, by draw number and lane (R143): no
command brings that window's codes. -/
opaque cutClip : Nat → Nat → Bool

/-- How the delay line's code moves at an hc while it tracks (R43): 1 up, 2 down, else not. -/
opaque lineStep : Nat → BitVec 2

/-- A byte of tracker-core memory nothing has written, by core byte address (R76). -/
opaque coreByte : Nat → BitVec 8

/-- A byte of a Shed page whose program was interrupted (R328), by draw number and byte. -/
opaque tornByte : Nat → Nat → BitVec 8

end Config
end Sys2Proof
end

