-- ==== Sys2Proof/Machine/State.lean ====
section
/-! DEFINITION. The state of the block: the register file, what the rules name beside it, the queue of waiting
commands, and the state right after reset. All of it is plain data. -/

namespace Sys2Proof
namespace Machine

/-- Why a step stops with a fault. No command of this model raises one: every event of the part is a next state
(R63, R69, R115, R121). -/
inductive Fault where
  /-- Raised by nothing: the type must have a name for a fault, and the part has none. Safe. -/
  | none
  deriving DecidableEq, Repr

/-- Why a step has no meaning. -/
inductive Refusal where
  /-- Raised by an arm of exec without a meaning; every arm has one, so nothing raises it. Safe. -/
  | notModelled (mnemonic : String)
  deriving DecidableEq, Repr

/-- Register words by address; addresses rise strictly and no entry holds its register's table value (R342). -/
abbrev Regs := List (Nat × Word)

/-- An exact complex value: a record divided by a range ratio (R193). -/
structure CxQ where
  re : Rat
  im : Rat
  deriving DecidableEq, Repr

/-- Sample tags of Table SC-4. -/
inductive Tag where
  | valid | priming | ranged | blanked | frozen | spare | interp | coefNew
  deriving DecidableEq, Repr

/-- One record of the channelizer (R184). -/
structure Rec where
  v : Cx
  tag : Tag
  rng : Nat
  deriving DecidableEq, Repr

/-- The 80 records of one sensed electrode in one slot, with the lane that sensed it (R184). `elec` is the sense
electrode; under ganging it is the lane's first electrode and `gang` is true (R141). `ratio` is the divisor of its range in 1/4,096 (R285). -/
structure ElecRecs where
  elec : Nat
  lane : Nat
  gang : Bool
  ratio : Nat
  recs : List Rec
  deriving DecidableEq, Repr

/-- One lane's slot check value (R299): the raw bin-239 value in 1/16 LSB, the stuck condition, the divisor. -/
structure Health where
  lane : Nat
  x : Cx
  stuck : Bool
  ratio : Nat
  deriving DecidableEq, Repr

/-- The regular entries M0 to LS are 0 to 7 (R164); injected slots have their index; calibration slots their number. -/
inductive SlotKind where
  | regular (entry : Nat)
  | injected (i : Nat)
  | cal (k : Nat)
  deriving DecidableEq, Repr

/-- A slot's records on their way to the Cloche and the Trellis (R187). `cut` marks the records of a slot that was frozen
or blanked and runs again (R47, R150): nothing uses them. -/
structure SlotRecs where
  due : Nat
  frame : Nat
  kind : SlotKind
  elecs : List ElecRecs
  health : List Health
  cut : Bool
  deriving DecidableEq, Repr

inductive FrameKind where
  | baseline | reentry | regular | repetition
  deriving DecidableEq, Repr

/-- A tone-table entry (Tables RK-13 and RK-14): words A and B. -/
structure Tone where
  a : Word
  b : Word
  deriving DecidableEq, Repr

/-- A frame whose records have not all arrived (R187): its number and kind, the HCPOS of the first hc of its mutual
slots, the records taken, and what its boundary fixed for it: group delay, SCPH, the filter change, whether it is
replaced (R304) or kept by the resampler (R194), the plan, the drives failed, and the settings in force. -/
structure FrameCtx where
  no : Nat
  kind : FrameKind
  starts : List (Nat × Nat)
  got : List SlotRecs
  gdly : Nat
  scph : Nat
  coefNew : Bool
  replaced : Bool
  keep : Bool
  tones : List Tone
  gbin : Nat
  dflt : List Nat
  regs : Regs
  deriving DecidableEq, Repr

/-- Power phases (R22, R32, R121). `qualifying` waits for VPH_QUALIFIED; `resetCircuit` is the short step 1. -/
inductive PowerPhase where
  | qualifying | softStart | resetCircuit | on | thermalHeld | foldbackOpen | regboHeld
  deriving DecidableEq, Repr

/-- The supply: the phase, the limiter, the comparators, a deferred thermal shutdown, the host's pull on ATTN, and the
hc, fast-ticker period and cause of the last reset (R121). -/
structure Power where
  phase : PowerPhase
  limit : Bool
  vphLow : Bool
  warm : Bool
  deferred : Bool
  attnHost : Bool
  lastReset : Option (Nat × Nat × Nat)
  deriving DecidableEq, Repr

/-- What a relock of the delay line is for (R43, R47, R48, R120). -/
inductive Relock where
  | first | frozenSlot | period | dormantExit
  deriving DecidableEq, Repr

/-- HCLK: its first edge seen, lock and relock (`lockAt` is the hc at which a relock completes), the declaration in force
(0: none) and the staged one, and the stop in progress with its absence in fast-ticker periods; `stops` and `cum` are
the stops and the absence of the slot or period under way. The code last changed on hc `lineAt` (R43); a measurement of
R52 under way began at hc `measFrom`. -/
structure Clock where
  seen : Bool
  lock : Bool
  relock : Option Relock
  decl : Nat
  staged : Option Nat
  stopped : Bool
  stops : Nat
  tripped : Bool
  absence : Nat
  cum : Nat
  lockAt : Nat
  lineAt : Nat
  measFrom : Nat
  deriving DecidableEq, Repr

/-- An anchor of R248. -/
structure Anchor where
  hc : Nat
  tsc : Nat
  acc : Nat
  half : Bool
  decl : Nat
  deriving DecidableEq, Repr

structure TimeBase where
  run : Bool
  hcpos : Nat
  tsc : Nat
  acc : Nat
  slewRem : Nat
  held : Nat
  counted : Bool
  anchors : List Anchor
  lost : Bool
  jumped : Bool
  est : Bool
  measured : Bool
  floor : Nat
  deriving DecidableEq, Repr

/-- SYS.STAT.MODE (R14): start-up is code 0. -/
inductive Mode where
  | startup | active | watch | dormant | service
  deriving DecidableEq, Repr

/-- The stages of a DORMANT exit (R120). -/
inductive ExitStage where
  | none | waitClock | relock | settle | reentry
  deriving DecidableEq, Repr

/-- What waits for a reference to settle (R113, R114, R163). -/
inductive RefWait where
  | none | startup | exit | scan
  deriving DecidableEq, Repr

structure ModeCtl where
  mode : Mode
  step : Nat
  exit : ExitStage
  entering : Bool
  code : Nat
  arg : Nat
  busy : Bool
  done : Bool
  badcmd : Bool
  badstate : Bool
  badarg : Bool
  held : Option Nat
  due : Option Nat
  auto : Option Mode
  resetAt : Option Nat
  refUse : Nat
  refRdy : Bool
  refDue : Bool
  refWait : RefWait
  refIn : Bool
  refBad : Bool
  wake : Bool
  wakeKept : Bool
  ageFrom : Nat
  age : Nat
  cause : Nat
  outMask : Nat
  quarter : Nat
  halted : Bool
  stepAt : Option Nat
  debugUps : Bool
  boundaries : Nat
  epochOwed : Bool
  calBusy : Bool
  syncDue : Bool
  idleAt : Option Nat
  deriving DecidableEq, Repr

/-- The answer a request waits for (R57, R64, R67). -/
inductive RespKind where
  | answer | notice | copy
  deriving DecidableEq, Repr

/-- A READ that still waits for earlier posted words (R67). -/
structure ReadReq where
  addr : Word
  count : Nat
  inc : Bool
  deriving DecidableEq, Repr

/-- An accepted request, or a waiting notice, in arrival order. `after` counts the posted words it still waits for;
`ready` is the hc at which it is ready, once known; `shown` says that it has become an ATTN cause (R77). -/
structure Resp where
  kind : RespKind
  tag : Nat
  rcode : Nat
  resent : Bool
  h1 : Word
  payload : List Word
  read : Option ReadReq
  after : Nat
  ready : Option Nat
  shown : Bool
  deriving DecidableEq, Repr

/-- A frame the device sent, with the hc of its first preamble bit and its last CRC bit (R56, R58). -/
structure DevFrame where
  h0 : Word
  h1 : Word
  payload : List Word
  first : Nat
  last : Nat
  deriving DecidableEq, Repr

/-- One word in the posted-write buffer (R65, R66). `hold` marks a lowest word staged because its request covers the
whole wide value (R98), `base` the lowest address of that value on the word that commits it. -/
structure Posted where
  addr : Word
  value : Word
  hold : Bool
  base : Option Word
  deriving DecidableEq, Repr

/-- A page's read shadow: its value's lowest address and the latched higher words (R94). -/
structure Shadow where
  page : Nat
  base : Nat
  words : List Word
  deriving DecidableEq, Repr

/-- A page's write stage: its value's lowest address and the staged words by offset (R97). -/
structure Stage where
  page : Nat
  base : Nat
  words : List (Nat × Word)
  deriving DecidableEq, Repr

/-- A device turn (R56): the GRANT's T, the last hc the device may drive, the hc of the next frame's first bit, and
whether the last CRC bit of the frame before has had its effect. -/
structure Turn where
  start : Nat
  limit : Nat
  next : Nat
  done : Bool
  deriving DecidableEq, Repr

/-- The link. `ddrv` and `dterm` are the driver current and the termination in force (Table LW-8): DDRV is taken at a
transmission, DTERM at a turnaround. `irqWait` holds, for a page, flags an IEN write has enabled and the hc from which they
are ATTN causes (R89). -/
structure Link where
  turn : Option Turn
  resp : List Resp
  retained : List (Nat × DevFrame)
  wbuf : List Posted
  applyAt : Nat
  wacc : Nat
  presence : Bool
  wakeAssert : Bool
  noCause : Bool
  answering : Bool
  attn : Bool
  attnFrom : Nat
  irqWait : List (Nat × Word × Nat)
  turnEnd : Nat
  sent : List DevFrame
  shadow : List Shadow
  stage : List Stage
  unlocked : List Nat
  rdata : Word
  ddrv : Nat
  dterm : Bool
  deriving DecidableEq, Repr

/-- A report (R236). `seq` is none until it is assigned; `life` is the lifecycle class; `cid` the contact. -/
structure Report where
  typ : Nat
  merge : Nat
  seq : Option Nat
  epoch : Nat
  ts : Nat
  body : List Word
  life : Bool
  cid : Option Nat
  up : Bool
  deriving DecidableEq, Repr

/-- The report queue. `rebased` says that the EPOCH report to come is a REBASE's; `epochOld` are the EPOCH reports (true: a
REBASE's) of earlier epochs that had not fallen due at a REBASE, oldest first (R253); `snapDue` holds for a snapshot that waits
for the frame entry or the send of its hc (R245). `replay` is the SEQ and the epoch of the copy a pending replay resends next (R242). -/
structure Queue where
  entries : List Report
  holders : List Report
  waiting : List Report
  gated : List Report
  epochDue : Bool
  rebased : Bool
  epochOld : List Bool
  snapDue : Bool
  seqNext : Nat
  cout : Nat
  cgrant : Nat
  rsent : Nat
  downCnt : Nat
  upCnt : Nat
  fscan : Nat
  fcons : Nat
  frep : Nat
  fdisc : Nat
  copies : List DevFrame
  replay : Option (Nat × Nat)
  sending : Option Report
  deriving DecidableEq, Repr

/-- What follows the baseline or re-entry frames (R111, R120, R288). -/
inductive After where
  | none | startupEnd | calEnd | exitEnd
  deriving DecidableEq, Repr

/-- The injected sequence (R165 to R171). -/
inductive InjPhase where
  | idle | pending | held | exitRamp | slots | reentryRamp
  deriving DecidableEq, Repr

/-- `n` injected slots; `resume` the regular entry that follows (none: the frame boundary); `trigAt` the trigger hc;
`pos` the accumulators' position and the envelope counts when the exit ramp began. -/
structure Inject where
  phase : InjPhase
  startedSince : Bool
  n : Nat
  resume : Option Nat
  trigAt : Nat
  rampFrom : Nat
  pos : Option Int
  toneEnv : Nat
  guardEnv : Nat
  deriving DecidableEq, Repr

/-- The tone plan (R126, R132, R135): both tables, when a commit was written, GBIN in force, and whether RAKE.GUARD
was written since the last frame boundary. -/
structure Plan where
  active : List Tone
  pend : List Tone
  cpend : Option Nat
  gbin : Nat
  gdirty : Bool
  source : Bool
  deriving DecidableEq, Repr

/-- One coupling value in the resampler's history (R193). -/
structure Cell where
  u : CxQ
  tag : Tag
  rng : Nat
  deriving DecidableEq, Repr

/-- A frame of the resampler's history: number since the synchronizing reset, glass instant in 1/32 hc, the cells by
sense electrode and drive; `copy` marks frames -15 to -1 (R194). -/
structure HistFrame where
  no : Int
  t32 : Int
  copy : Bool
  cells : List (List Cell)
  deriving DecidableEq, Repr

/-- A resampler output (R192, R193, R195): ready hc, resolved glass instant in 1/32 hc, whether it carries PRIMING, whether it
leaves RPRIME set (it carries PRIMING after the synchronizing reset, or was computed before it, R194, Table SV-4), whether its
ready hc has passed, WMAP when it was computed (R210), values by electrode and drive. -/
structure Output where
  ready : Nat
  t32 : Int
  phi : Nat
  prim : Bool
  reset : Bool
  seen : Bool
  wmap : Word
  cells : List (List Cell)
  deriving DecidableEq, Repr

/-- The Sieve: the filter in use, both coefficient banks, the coefficient pair under way, and the resampler (R178 to
R199). `waitReset` holds until the first synchronizing reset; `rprime` while outputs are tagged PRIMING after one. -/
structure Sieve where
  modeUse : Nat
  bankUse : Nat
  lenUse : Nat
  coef : List (List Int)
  half : Option (Bool × Word)
  hist : List HistFrame
  nextNo : Int
  targets : List Int
  early : List Int
  first : Option Int
  lastTarget : Option Int
  kept : Option Int
  outs : List Output
  made : Nat
  locked : Bool
  rcnt : Nat
  rsync : Bool
  waitReset : Bool
  rprime : Bool
  deriving DecidableEq, Repr

/-- A zone of the water rule (R210). -/
structure Zone where
  cand : Nat
  dry : Nat
  wet : Bool
  deriving DecidableEq, Repr

/-- The Cloche. `drives` and `guard` are the drives in use and GUARDEN of the frame that entered last, `out` the sense electrodes
interpolated in it (R209); `spill` is STAT.SPILL as it last stood (R210). -/
structure Cloche where
  listenDue : List (Nat × Nat × Word)
  map : List Nat
  nT : List Nat
  nL : List Nat
  trip : Nat
  replanAt : List Nat
  tripDue : Bool
  zones : List Zone
  charger : Bool
  spill : Bool
  row : Nat
  drives : List Nat
  out : List Nat
  guard : Bool
  deriving DecidableEq, Repr

/-- An open contact, a candidate or a peak (R221 to R229): its reported coordinates and size, the peak's sense and
drive index `ps`, `pd`, and the reference position with the HCPOS at which it was set. -/
structure Contact where
  id : Nat
  x : Nat
  y : Nat
  ps : Nat
  pd : Nat
  w : Nat
  h : Nat
  amp : Nat
  area : Nat
  palm : Bool
  wet : Bool
  interp : Bool
  spare : Bool
  prim : Bool
  miss : Nat
  refX : Nat
  refY : Nat
  refAt : Nat
  deriving DecidableEq, Repr

/-- A pending re-acquisition (R219): the sense electrode or drive it affects (none: every one), its group, and the
first frame it affects. -/
inductive ReacqKind where
  | drive | guardTone | filter | sense | stuck
  deriving DecidableEq, Repr

structure Reacq where
  kind : ReacqKind
  elec : Option Nat
  drive : Option Nat
  frame : Nat
  deriving DecidableEq, Repr

structure Trellis where
  base : List (List (Option CxQ))
  self : List (Option CxQ)
  sumN : Nat
  sum : List (List CxQ)
  sumSelf : List (CxQ × Nat)
  sigma : List Rat
  images : List (List Rat)
  contacts : List Contact
  cands : List (Contact × Nat)
  lastId : Nat
  lastTs : Nat
  neg : List (Nat × Nat)
  reacq : List Reacq
  ucurve : List Word
  curve : List Word
  mapS : Word
  mapD : Word
  hid : List Word
  deriving DecidableEq, Repr

/-- What a quarter look is for: the entry pass (R260), a confirmation (R263), the relearn of a look (R262) or the one that
follows a confirmation (`again`), or a refresh (R258). -/
inductive QuarterUse where
  | pass | confirm | relearn | again | refresh
  deriving DecidableEq, Repr

/-- A look of the Scarecrow: at a gang, or at one quarter of it (R257, R260). -/
inductive SkLook where
  | gang (g : Nat)
  | quarter (g q : Nat) (u : QuarterUse)
  deriving DecidableEq, Repr

/-- A Scarecrow cycle under way (R258), in fast-ticker periods: its start, whether every look is forced, its codes, the look
in progress and those to come, the results so far of the confirmation under way, and the first period of the look in progress
with the one after its end. -/
structure Cycle where
  start : Nat
  force : Bool
  looks : List GangLook
  todo : List SkLook
  res : List Int
  began : Nat
  ends : Nat
  deriving DecidableEq, Repr

/-- A Scarecrow gang (R256 to R262). -/
structure Gang where
  base : Int
  last : Int
  qbase : List Int
  out : Bool
  stay : Nat
  sum : Int
  qsum : List Int
  deriving DecidableEq, Repr

/-- The Scarecrow. `qm` is the quarter of the last touch and `tapQ` that of the last touch of a double tap (R267); `burstEnd`
is the end of a burst that a wake cause has interrupted, and `exitDue` says that the exit waits for the end of a burst
(R175). -/
structure Scare where
  running : Bool
  passLeft : Nat
  gangs : List Gang
  gdis : Nat
  fast : Bool
  quiet : Nat
  cycleAt : Nat
  refreshAt : Nat
  tapStage : Nat
  tapAt : Nat
  swipeAt : Option Nat
  lid : Option Nat
  qm : Nat
  tapQ : Nat
  cyc : Option Cycle
  burstEnd : Nat
  exitDue : Bool
  deriving DecidableEq, Repr

/-- What a capture installs on the next hc (R272, R274). -/
inductive CapReq where
  | none | capture | measured | order
  deriving DecidableEq, Repr

/-- A timer. On this hc `fresh` holds off the prescaler and COUNT (a start state), `stay` COUNT alone (a committed or a started
count, R99, R274). -/
structure Timer where
  ctrl : Word
  sel : Word
  down : Bool
  capn : Bool
  ovr : Bool
  order : Bool
  res : Bool
  armed : Bool
  counting : Bool
  count : Nat
  period : Nat
  perBuf : Nat
  cap : Nat
  pre : Nat
  fresh : Bool
  stay : Bool
  req : CapReq
  latch : Option (Nat × Bool × Bool)
  deriving DecidableEq, Repr

/-- The Gauge. `startAt` is the hc at which a new period starts (R277). -/
structure Gauge where
  level : Bool
  v : Nat
  phase : Nat
  pre : Nat
  high : Nat
  acc : Nat
  inc : Nat
  startAt : Option Nat
  deriving DecidableEq, Repr

/-- The calibration activities that run slots in place of frames (R286, R293, R310). -/
inductive CalKind where
  | boot | selfcal | trace | openw
  deriving DecidableEq, Repr

/-- Running sums of self-calibration for one lane, by slice, and its new words (Table CA-2): sums of codes for offset
and gain, products of the skew tone's phasors, tone magnitudes of the ratio phases, and the verify phase. -/
structure CalLane where
  ofs : List Int
  plus : List Int
  minus : List Int
  skew : List Cx
  mags : List Nat
  newOfs : List Int
  newGain : List Int
  newSkew : List Int
  newRatio : List Int
  vofs : List Int
  vplus : List Int
  vminus : List Int
  powers : List Nat
  deriving DecidableEq, Repr

/-- A system-calibration measurement under way (R289): none = CALZERO, some p = CALPOINT p. -/
structure CalMeas where
  point : Option Nat
  counted : Nat
  seen : Nat
  bad : Bool
  sum : List (List Rat)
  pos : List (Rat × Rat)
  deriving DecidableEq, Repr

/-- An accepted point (R289): its peak, mean delta and mean positions on the sense and drive axis. -/
structure CalPt where
  p : Nat
  drive : Nat
  sense : Nat
  delta : Rat
  pS : Rat
  pD : Rat
  deriving DecidableEq, Repr

structure Cal where
  due : Option Nat
  act : Option CalKind
  k : Nat
  lanes : List CalLane
  firstFit : List (Option Rat)
  meas : Option CalMeas
  zero : Option (List (List Rat))
  points : List CalPt
  solve : Option (List (Nat × Word))
  ticks : Option (List Nat)
  lspFail : Bool
  sync : Bool
  deriving DecidableEq, Repr

/-- The slot that ended on this hc, with what its end changed: a stop that begins on this hc belongs to it (R46), and if
it freezes, the decisions of its end are undone and the slot runs again (R47). -/
structure Ended where
  slot : SlotKind
  regs : Regs
  low : List Nat
  inj : Inject
  ca : Cal
  forming : Bool
  formN : Nat
  formLeft : Nat
  formSum : List CxQ
  after : After
  baseLeft : Nat
  step : Nat
  calBusy : Bool
  busy : Bool
  done : Bool
  ow : List (Nat × Nat × Int)
  deriving DecidableEq, Repr

/-- The scan. `blkBall` and `vsBall` are the levels at the balls BLANK and VSYNC; `blkAt` the hc at which effective BLANK takes
a new level, that level, and whether the change has been called off on that hc (R148, R377); `vsEff` the deglitched level of
VSYNC and `vsAt` the hc at which it takes the ball's level, with whether that is an effective edge (R190); `ended` is the slot
that ended on this hc; `cutPause` the pause count of a frozen slot until its bins are emitted (R47). `framed` holds while a frame is under way, `based` says that the last one was a baseline or re-entry frame. -/
structure Scan where
  slot : Option SlotKind
  h : Nat
  lead : Nat
  paused : Bool
  tailAt : Option Nat
  pauseCount : Nat
  edges : Nat
  marked : Bool
  blkEff : Bool
  blkBall : Bool
  blkAt : Option (Nat × Bool × Bool)
  blkTime : Nat
  stuckIgn : Bool
  chatIgn : Bool
  vsBall : Bool
  vsEff : Bool
  vsAt : Option (Nat × Bool)
  frames : List FrameCtx
  frameNo : Nat
  nextAt : Option Nat
  sched : Nat
  period : Nat
  scph : Nat
  framed : Bool
  based : Bool
  low : List Nat
  visit : List Nat
  visitNow : List Nat
  flight : List SlotRecs
  baseLeft : Nat
  reLeft : Nat
  after : After
  rest : Bool
  coefNew : Bool
  ended : Option Ended
  cutPause : Nat
  deriving DecidableEq, Repr

/-- Diagnostics and failover. `dctrl` is DIAG.DCTRL in force; `dacOff` holds from a calibration command's acceptance to the
first frame boundary after it: the test DAC does not inject (R312). -/
structure Diag where
  failed : List Nat
  causes : List (Nat × Nat)
  interp : List Nat
  serves : Option Nat
  declared : List (Nat × Nat × Bool × Nat)
  forced : List Nat
  repeatDue : Option Nat
  reportAt : List (Nat × Report)
  href : List (Option CxQ)
  forming : Bool
  formN : Nat
  formLeft : Nat
  formSum : List CxQ
  frameFails : List (Nat × Nat × Nat)
  ovlNow : List Nat
  ovlCnt : List (Nat × Nat)
  dflt : List Nat
  dctrl : Word
  dacOff : Bool
  drvoff : Bool
  ow : List (Nat × Nat × Int)
  tOut : Bool
  sOut : List Bool
  deriving DecidableEq, Repr

/-- A page program (R318): bank, page, the 256 bytes, and the activity it belongs to. -/
inductive JobKind where
  | payload | header | void | epoch | boot
  deriving DecidableEq, Repr

structure Job where
  kind : JobKind
  bank : Nat
  page : Nat
  bytes : List Byte
  deriving DecidableEq, Repr

/-- The Shed (R318 to R331): its bytes by flat address 8192 × bank + 256 × page + byte, the damaged pages with the draw
of their bytes, and the page programs with the one in progress in front. -/
structure Shed where
  mem : List Host.Cell
  torn : List (Nat × Nat)
  jobs : List Job
  saving : Option Nat
  forgetting : Bool
  readback : Bool
  jobAt : Option Nat
  inForce : Option Nat
  noBank : Bool
  aok : Bool
  bok : Bool
  epok : Bool
  skip : Bool
  ecur : Option Nat
  deriving DecidableEq, Repr

/-- The factory area (R330): its 4 KiB by byte address, in the form of the Shed's bytes. -/
structure Factory where
  area : List Host.Cell
  deriving DecidableEq, Repr

/-- The state of the block. `flagged` are the flags that events have set on this hc, by page: a clearing write of this hc leaves
them set (R87). -/
structure State where
  pending : List Instr
  agenda : List (Nat × Instr)
  now : Nat
  ft : Nat
  free : Nat
  regs : Regs
  force : Regs
  flagged : List (Nat × Word)
  pw : Power
  clk : Clock
  tb : TimeBase
  ms : ModeCtl
  link : Link
  rq : Queue
  scan : Scan
  inj : Inject
  tone : Plan
  sv : Sieve
  cl : Cloche
  tr : Trellis
  sk : Scare
  tm : Vector Timer 6
  gg : Gauge
  ca : Cal
  dg : Diag
  sh : Shed
  fac : Factory
  core : List Host.Cell
  deriving DecidableEq, Repr

/-- The state right after a power-on reset: step 1, before VPH has qualified (R108, R121). Registers stand at their
table values (R102), which the empty lists `regs` and `force` mean; the Shed is erased and the factory area nominal
(log entries 4 and 5). Values the manual does not give are those of log entries 6 and 10. -/
def State.reset : State where
  pending := []
  agenda := []
  now := 0
  ft := 0
  free := 0
  regs := []
  force := []
  flagged := []
  pw := { phase := .qualifying, limit := false, vphLow := false, warm := false, deferred := false, attnHost := false,
          lastReset := none }
  clk := { seen := false, lock := false, relock := none, decl := 0, staged := none, stopped := false, stops := 0,
           tripped := false, absence := 0, cum := 0, lockAt := 0, lineAt := 0, measFrom := 0 }
  tb := { run := false, hcpos := 0, tsc := 0, acc := 0, slewRem := 0, held := 0, counted := true, anchors := [], lost := false, jumped := false,
          est := false, measured := false, floor := 0 }
  ms := { mode := .startup, step := 1, exit := .none, entering := false, code := 0, arg := 0, busy := false, done := false,
          badcmd := false, badstate := false, badarg := false, held := none, due := none, auto := none, resetAt := none,
          refUse := 0, refRdy := false, refDue := false, refWait := .none, refIn := false, refBad := false,
          wake := false, wakeKept := false, ageFrom := 0, age := 0, cause := 0, outMask := 0, quarter := 0,
          halted := false, stepAt := none, debugUps := false, boundaries := 0, epochOwed := false, calBusy := false, syncDue := false,
          idleAt := none }
  link := { turn := none, resp := [], retained := [], wbuf := [], applyAt := 0, wacc := 0, presence := false, wakeAssert := false,
            noCause := false, answering := false, attn := false, attnFrom := 0, irqWait := [], turnEnd := 0, sent := [], shadow := [],
            stage := [], unlocked := [], rdata := 0, ddrv := 2, dterm := true }
  rq := { entries := [], holders := [], waiting := [], gated := [], epochDue := true, rebased := false, epochOld := [], snapDue := false, seqNext := 0, cout := 0, cgrant := 0,
          rsent := 0, downCnt := 0, upCnt := 0, fscan := 0, fcons := 0, frep := 0, fdisc := 0, copies := [], replay := none,
          sending := none }
  scan := { slot := none, h := 0, lead := 0, paused := false, tailAt := none, pauseCount := 0, edges := 0,
            marked := false, blkEff := false, blkBall := false, blkAt := none, blkTime := 0, stuckIgn := false,
            chatIgn := false, vsBall := false, vsEff := false, vsAt := none, frames := [], frameNo := 0, nextAt := none, sched := 0, period := 0,
            scph := 0, framed := false, based := false, low := List.replicate 96 0, visit := List.replicate 96 2, visitNow := [],
            flight := [], baseLeft := 0, reLeft := 0, after := .none, rest := false, coefNew := false, ended := none, cutPause := 0 }
  inj := { phase := .idle, startedSince := false, n := 0, resume := none, trigAt := 0, rampFrom := 0, pos := none, toneEnv := 0, guardEnv := 0 }
  tone := { active := (List.range 64).map (fun n => ⟨BitVec.ofNat 16 (0x8049 + 2 * n), BitVec.ofNat 16 (64 * n * n % 8192)⟩),
            pend := (List.range 64).map (fun n => ⟨BitVec.ofNat 16 (0x8049 + 2 * n), BitVec.ofNat 16 (64 * n * n % 8192)⟩),
            cpend := none, gbin := 96, gdirty := false, source := false }
  sv := { modeUse := 1, bankUse := 0, lenUse := 4,
          coef := [0x1FFFF :: List.replicate 191 0, 0x1FFFF :: List.replicate 191 0], half := none, hist := [], nextNo := 0,
          targets := [], early := [], first := none, lastTarget := none, kept := none, outs := [], made := 0, locked := false, rcnt := 0,
          rsync := false, waitReset := true, rprime := false }
  cl := { listenDue := [], map := List.replicate 232 0xFFFF, nT := List.replicate 64 0, nL := List.replicate 16 0, trip := 0,
          replanAt := [], tripDue := false, zones := List.replicate 16 { cand := 0, dry := 0, wet := false }, charger := false, spill := false,
          row := 0, drives := [], out := [], guard := false }
  tr := { base := [], self := [], sumN := 0, sum := [], sumSelf := [], sigma := [], images := [], contacts := [], cands := [],
          lastId := 31, lastTs := 0, neg := [], reacq := [], ucurve := List.replicate 101 0,
          curve := List.replicate 101 0, mapS := 0x5F00, mapD := 0x3F00, hid := [1, 34560, 23040, 0] }
  sk := { running := false, passLeft := 0, gangs := [], gdis := 0, fast := false, quiet := 0, cycleAt := 0, refreshAt := 0,
          tapStage := 0, tapAt := 0, swipeAt := none, lid := none, qm := 0, tapQ := 0, cyc := none, burstEnd := 0, exitDue := false }
  tm := Vector.replicate 6
        { ctrl := 0x0400, sel := 0, down := false, capn := false, ovr := false, order := false, res := false,
          armed := false, counting := false, count := 0, period := 0, perBuf := 0, cap := 0, pre := 0, fresh := false, stay := false,
          req := .none, latch := none }
  gg := { level := false, v := 0, phase := 0, pre := 0, high := 0, acc := 0, inc := 0, startAt := none }
  ca := { due := none, act := none, k := 0, lanes := [], firstFit := [], meas := none, zero := none, points := [], solve := none,
          ticks := none, lspFail := false, sync := false }
  dg := { failed := [], causes := [], interp := [], serves := none, declared := [], forced := [], repeatDue := none,
          reportAt := [], href := [], forming := false, formN := 0, formLeft := 0, formSum := [], frameFails := [], ovlNow := [],
          ovlCnt := [], dflt := [], dctrl := 0, dacOff := false, drvoff := false, ow := [], tOut := false, sOut := [false, false, false, false] }
  sh := { mem := [], torn := [], jobs := [], saving := none, forgetting := false, readback := false,
          jobAt := none, inForce := none, noBank := false, aok := false, bok := false, epok := false, skip := false, ecur := none }
  fac := { area := [(0, 0x1F), (1, 0x5D), (2, 1), (3, 0), (4, 6), (5, 0), (4092, 0x74), (4093, 0xDA), (4094, 0x27), (4095, 0x6D)] }
  core := []

end Machine
end Sys2Proof
end

