-- ==== Sys2Proof/Machine/Numeric.lean ====
section
/-! DEFINITION. Rounding, roots, angles and list helpers of the signal-chain rules.

Rounding is to the nearest integer with ties away from zero wherever the manual names a rule (R159, R179, R201,
R218); the same rule is taken where it names none (DEDUCED, log entry 8). Sines and roots of the formulas are
computed to a fixed number of binary digits (log entry 8). -/

namespace Sys2Proof
namespace Machine

/-- n / d to the nearest integer, ties away from zero (R179). -/
def roundDiv (n : Int) (d : Nat) : Int :=
  if 0 ≤ n then (2 * n + d) / (2 * d) else -((2 * (-n) + d) / (2 * d))

/-- A rational to the nearest integer, ties away from zero. -/
def roundRat (q : Rat) : Int := roundDiv q.num q.den

/-- ⌈n / d⌉ on naturals. -/
def ceilDiv (n d : Nat) : Nat := (n + d - 1) / d

def clampInt (lo hi x : Int) : Int := if x < lo then lo else if hi < x then hi else x

/-- Saturating 16-bit count. -/
def sat16 (n : Nat) : Nat := if n > 65535 then 65535 else n

/-- The integer square root, one binary digit a step from the bit `k` down. -/
def isqrtFrom (n : Nat) : Nat → Nat → Nat
  | 0, r => r
  | k + 1, r => if (r + 2 ^ k) * (r + 2 ^ k) ≤ n then isqrtFrom n k (r + 2 ^ k) else isqrtFrom n k r

/-- ⌊√n⌋. -/
def isqrt (n : Nat) : Nat := isqrtFrom n (Nat.log2 n / 2 + 1) 0

/-- ⌊|z|⌋ of an integer complex value (R201). -/
def floorMag (z : Cx) : Nat := isqrt z.norm2.toNat

/-- The number of binary digits kept of a magnitude in nu (log entry 8). -/
def magBits : Nat := 16

/-- |z| of an exact complex value, to `magBits` binary digits below one unit (R215). -/
def CxQ.mag (z : CxQ) : Rat :=
  let n := z.re * z.re + z.im * z.im
  (isqrt ((n * (4 ^ magBits : Nat)).floor.toNat) : Rat) / ((2 ^ magBits : Nat) : Rat)

def CxQ.zero : CxQ := { re := 0, im := 0 }
def CxQ.add (a b : CxQ) : CxQ := { re := a.re + b.re, im := a.im + b.im }
def CxQ.sub (a b : CxQ) : CxQ := { re := a.re - b.re, im := a.im - b.im }
def CxQ.scale (k : Rat) (a : CxQ) : CxQ := { re := k * a.re, im := k * a.im }
/-- An integer complex value times a rational. -/
def CxQ.ofCx (k : Rat) (a : Cx) : CxQ := { re := k * a.re, im := k * a.im }

/-- round(2π × 2^64). -/
def twoPi64 : Nat := 115904311329233965478

/-- The binary digits of sines and cosines. -/
def trigBits : Nat := 48

/-- Σ (-1)^k x^(2k+1) / (2k+1)!, in units of 2^-64, from the term t with index k. -/
def sinSeries (x2 : Nat) : Nat → Nat → Int → Int → Int
  | 0, _, _, acc => acc
  | f + 1, k, t, acc =>
    sinSeries x2 f (k + 1) (-(t * x2 / (2 ^ 64 : Nat) / ((2 * k + 2) * (2 * k + 3) : Nat))) (acc + t)

/-- sin(2π n/d) for 0 ≤ n/d ≤ 1/4, in units of 2^-trigBits. -/
def sinQuarter (n d : Nat) : Int :=
  let x := twoPi64 * n / d
  roundDiv (sinSeries (x * x / 2 ^ 64) 16 0 x 0) (2 ^ (64 - trigBits))

/-- sin(2π n/d) in units of 2^-trigBits. -/
def sinTurn (n : Int) (d : Nat) : Int :=
  let m := (n % d).toNat
  if 4 * m ≤ d then sinQuarter m d
  else if 2 * m ≤ d then sinQuarter (d - 2 * m) (2 * d)
  else if 4 * m ≤ 3 * d then -(sinQuarter (2 * m - d) (2 * d))
  else -(sinQuarter (d - m) d)

/-- cos(2π n/d) in units of 2^-trigBits. -/
def cosTurn (n : Int) (d : Nat) : Int := sinTurn (4 * n + d) (4 * d)

/-- e^(i2π n/d) in units of 2^-trigBits. -/
def cisTurn (n : Int) (d : Nat) : Cx := { re := cosTurn n d, im := sinTurn n d }

/-- The angle of z in turns, in units of 2^-bits, by bisection within the quadrant found from the signs. -/
def turnSearch (z : Cx) (bits : Nat) : Nat → Nat → Nat
  | 0, a => a
  | k + 1, a =>
    let c := a + 2 ^ k
    let w := cisTurn c (2 ^ bits)
    if 0 ≤ w.re * z.im - w.im * z.re then turnSearch z bits k c else turnSearch z bits k a

def turnOf (z : Cx) (bits : Nat) : Nat :=
  let q := if 0 ≤ z.re ∧ 0 ≤ z.im then 0 else if z.re < 0 ∧ 0 ≤ z.im then 1 else if z.re < 0 ∧ z.im < 0 then 2 else 3
  turnSearch z bits (bits - 2) (q * 2 ^ (bits - 2))

/-- The phase of z in 1/256 cycle, to the nearest, from -128 to 127 (R316). -/
def phase256 (z : Cx) : Int :=
  let k := (turnOf z 20 + 2048) / 4096 % 256
  if 128 ≤ k then (k : Int) - 256 else k

/-- The binary digits of a bit vector's value read as two's complement of `w` bits. -/
def signed (w : Nat) (v : Nat) : Int := if v % 2 ^ w < 2 ^ (w - 1) then v % 2 ^ w else (v % 2 ^ w : Int) - 2 ^ w

/-- An integer as a two's-complement word. -/
def wordOfInt (x : Int) : Word := BitVec.ofInt 16 x

/-- The field [hi:lo] of a word as a number (R3). -/
def fld (w : Word) (hi lo : Nat) : Nat := w.toNat / 2 ^ lo % 2 ^ (hi + 1 - lo)

def wbit (w : Word) (i : Nat) : Bool := w.getLsbD i

def b2n (b : Bool) : Nat := if b then 1 else 0

def w16 (n : Nat) : Word := BitVec.ofNat 16 n

/-- Word i (lowest first) of a value held as a number (R93). -/
def wordAt (n i : Nat) : Word := w16 (n / 2 ^ (16 * i))

/-- A value from its words, lowest first. -/
def ofWords : List Word → Nat
  | [] => 0
  | w :: ws => w.toNat + 65536 * ofWords ws

def getD {α : Type} (l : List α) (i : Nat) (d : α) : α := l.getD i d

def sumInt (l : List Int) : Int := l.foldl (· + ·) 0

def sumRat (l : List Rat) : Rat := l.foldl (· + ·) 0

def sumNat (l : List Nat) : Nat := l.foldl (· + ·) 0

/-- The mean of naturals to the nearest, ties away from zero (R201); none of none. -/
def meanNat? (l : List Nat) : Option Nat :=
  match l with
  | [] => none
  | _ => some (roundDiv (sumNat l) l.length).toNat

/-- The lowest free key and the pair list with a key's value replaced. -/
def setKey {β : Type} (k : Nat) (v : β) (l : List (Nat × β)) : List (Nat × β) :=
  (k, v) :: l.filter (fun p => p.1 != k)

def getKey {β : Type} (k : Nat) (l : List (Nat × β)) : Option β := (l.find? (fun p => p.1 == k)).map (·.2)

/-- A table of `n` values by index. -/
def tab {α : Type} (n : Nat) (f : Nat → α) : List α := (List.range n).map f

end Machine
end Sys2Proof
end

