-- ==== Sys2Proof/Machine/Registers.lean ====
section
/-! DEFINITION. The Register Index as data (R342 to R351): for every stored word its writable bits, its W1C bits,
read-to-clear, protection, reset class and table value; reading and setting the register file. Words that show state
held elsewhere (status words, running counters, windows) are in RegRead.lean. -/

namespace Sys2Proof
namespace Machine

/-- Reset classes of Table RP-7. -/
inductive RegClass where
  | Z | F | N | M | K
  deriving DecidableEq, Repr

/-- A run of `n` like words from `lo`: value at reset `base` + `step` × index. -/
structure RegRow where
  lo : Nat
  n : Nat
  rw : Nat
  base : Nat
  cls : RegClass
  prot : Bool := false
  w1c : Nat := 0
  rc : Bool := false
  step : Nat := 0

open RegClass in
/-- Pages 0x00 to 0x06 (Tables RI-3 to RI-9). -/
def rowsSystem : List RegRow := [
  ⟨0x000A, 1, 0, 0, N, false, 0, false, 0⟩,
  ⟨0x0101, 1, 0x0003, 3, Z, false, 0, false, 0⟩, ⟨0x0108, 1, 0, 0, M, false, 0, true, 0⟩,
  ⟨0x010A, 1, 0, 0, M, false, 0, true, 0⟩, ⟨0x010B, 1, 0, 0, M, false, 0, false, 0⟩,
  ⟨0x0111, 1, 0, 0, M, false, 0x1F00, false, 0⟩, ⟨0x0112, 1, 0, 0, M, false, 0, false, 0⟩,
  ⟨0x0113, 1, 0, 0, M, false, 0, true, 0⟩, ⟨0x0114, 2, 0, 0, M, false, 0, false, 0⟩,
  ⟨0x0121, 1, 0x000F, 0xE, N, false, 0, false, 0⟩, ⟨0x0122, 2, 0, 0, M, false, 0, false, 0⟩,
  ⟨0x0124, 1, 0, 0, M, false, 0, true, 0⟩,
  ⟨0x0201, 1, 1, 0, N, false, 0, false, 0⟩, ⟨0x0208, 1, 3, 1, N, true, 0, false, 0⟩,
  ⟨0x0209, 1, 3, 0, N, true, 0, false, 0⟩, ⟨0x020A, 1, 0xFFF, 80, N, false, 0, false, 0⟩,
  ⟨0x020B, 1, 0xFFF, 521, N, false, 0, false, 0⟩, ⟨0x020C, 1, 7, 3, N, false, 0, false, 0⟩,
  ⟨0x020D, 1, 0xFFF, 200, N, false, 0, false, 0⟩, ⟨0x020E, 1, 0, 1, M, false, 0, false, 0⟩,
  ⟨0x030E, 2, 0, 0, M, false, 0, false, 0⟩, ⟨0x0310, 1, 0xFFFF, 1600, N, false, 0, false, 0⟩,
  ⟨0x0311, 7, 0, 0, M, false, 0, false, 0⟩,
  ⟨0x0401, 1, 3, 3, N, false, 0, false, 0⟩, ⟨0x0408, 1, 7, 6, N, false, 0, false, 0⟩,
  ⟨0x0409, 1, 0xFFF, 512, N, false, 0, false, 0⟩, ⟨0x040A, 1, 0x3FF, 96, N, false, 0, false, 0⟩,
  ⟨0x040B, 1, 0, 0, M, false, 0, true, 0⟩,
  ⟨0x0501, 1, 4, 0, Z, false, 0, false, 0⟩, ⟨0x0508, 2, 0, 0, M, false, 0, false, 0⟩,
  ⟨0x0601, 1, 3, 1, N, false, 0, false, 0⟩, ⟨0x0608, 1, 0x3FF, 1, N, false, 0, false, 0⟩,
  ⟨0x0609, 1, 0xFF, 64, N, false, 0, false, 0⟩, ⟨0x060A, 1, 0xF, 0xD, N, false, 0, false, 0⟩,
  ⟨0x060B, 1, 0, 0, M, false, 0, true, 0⟩, ⟨0x060C, 1, 0, 0, M, false, 0, false, 0⟩,
  ⟨0x0640, 64, 0x3FF, 0, N, true, 0, false, 0⟩]

open RegClass in
/-- A lane page (Table RI-10), at page 0x10; `laneRow` moves a lane page's address here. -/
def rowsLane : List RegRow := [
  ⟨0x1008, 1, 4, 4, N, false, 0, false, 0⟩, ⟨0x1009, 1, 0xFFF, 0x0AAA, N, false, 0, false, 0⟩,
  ⟨0x100A, 6, 0, 0, M, false, 0, false, 0⟩, ⟨0x1010, 6, 0x3FF, 0, N, true, 0, false, 0⟩,
  ⟨0x1016, 1, 1, 0, N, false, 0, false, 0⟩, ⟨0x1018, 4, 0xFFF, 0, F, true, 0, false, 0⟩,
  ⟨0x101C, 4, 0xFFFF, 0x8000, F, true, 0, false, 0⟩, ⟨0x1020, 4, 0x3F, 0, F, true, 0, false, 0⟩,
  ⟨0x1024, 1, 0xFFFF, 0x2000, F, true, 0, false, 0⟩, ⟨0x1025, 1, 0xFFFF, 0x4000, F, true, 0, false, 0⟩,
  ⟨0x1026, 1, 0xFFFF, 0x8000, F, true, 0, false, 0⟩, ⟨0x1028, 3, 0, 0, M, false, 0, false, 0⟩]

open RegClass in
/-- Pages 0x21 to 0x25 (Tables RI-11 to RI-15). -/
def rowsChain : List RegRow := [
  ⟨0x2101, 1, 2, 2, N, false, 0, false, 0⟩, ⟨0x2108, 1, 3, 3, N, false, 0, false, 0⟩,
  ⟨0x2109, 2, 0, 0, M, false, 0, true, 0⟩, ⟨0x210B, 1, 0xFF, 0x17, N, false, 0, false, 0⟩,
  ⟨0x210C, 1, 0, 0, M, false, 0, false, 0⟩,
  ⟨0x2201, 1, 7, 1, N, false, 0, false, 0⟩, ⟨0x2208, 1, 0x7FF, 4, N, false, 0, false, 0⟩,
  ⟨0x2209, 1, 0, 6, M, false, 0, false, 0⟩, ⟨0x220A, 1, 0xFFFF, 0x08D5, N, false, 0, false, 0⟩,
  ⟨0x220B, 1, 0xFF, 2, N, false, 0, false, 0⟩, ⟨0x220C, 1, 0xFFFF, 0, N, false, 0, false, 0⟩,
  ⟨0x220D, 1, 1, 0, N, false, 0, false, 0⟩, ⟨0x220E, 1, 0, 0, M, false, 0, false, 0⟩,
  ⟨0x220F, 1, 0, 0, M, false, 0, true, 0⟩, ⟨0x2218, 1, 0xFFFF, 0, M, false, 0, false, 0⟩,
  ⟨0x2219, 5, 0, 0, M, false, 0, false, 0⟩,
  ⟨0x2308, 1, 0x1FF, 0, Z, false, 0, false, 0⟩, ⟨0x230A, 2, 0x1FF, 1, N, false, 0, false, 0⟩,
  ⟨0x2401, 1, 0xF, 0xF, N, false, 0, false, 0⟩, ⟨0x2408, 1, 0xFFFF, 256, N, false, 0, false, 0⟩,
  ⟨0x2409, 1, 0x3F, 0x12, N, false, 0, false, 0⟩, ⟨0x240A, 1, 0x1F, 8, N, false, 0, false, 0⟩,
  ⟨0x240B, 1, 0xFFFF, 512, N, false, 0, false, 0⟩, ⟨0x240C, 2, 0, 0, M, false, 0, false, 0⟩,
  ⟨0x240E, 1, 0xFFFF, 0x8188, N, false, 0, false, 0⟩, ⟨0x240F, 1, 0xFFFF, 128, N, false, 0, false, 0⟩,
  ⟨0x2410, 1, 0, 0, M, false, 0, false, 0⟩, ⟨0x2411, 1, 0xFFFF, 8192, N, false, 0, false, 0⟩,
  ⟨0x2412, 2, 0, 0, M, false, 0, true, 0⟩, ⟨0x2414, 1, 0x3FF, 0, M, false, 0, false, 0⟩,
  ⟨0x2420, 16, 0x80FF, 0x8018, N, false, 0, false, 3⟩,
  ⟨0x2501, 1, 7, 6, N, false, 0, false, 0⟩, ⟨0x2508, 1, 0xFFFF, 200, N, false, 0, false, 0⟩,
  ⟨0x2509, 1, 0xFFFF, 120, N, false, 0, false, 0⟩, ⟨0x250A, 1, 0xFFF, 0x622, N, false, 0, false, 0⟩,
  ⟨0x250B, 1, 0xFFFF, 4096, N, false, 0, false, 0⟩, ⟨0x250C, 1, 0xFF, 12, N, false, 0, false, 0⟩,
  ⟨0x250D, 1, 0xFFFF, 0x203C, N, false, 0, false, 0⟩, ⟨0x2510, 1, 0x7F7F, 0x5F00, N, true, 0, false, 0⟩,
  ⟨0x2511, 1, 0x3F3F, 0x3F00, N, true, 0, false, 0⟩, ⟨0x2512, 1, 7, 0, N, true, 0, false, 0⟩,
  ⟨0x2513, 1, 0xFFFF, 34560, N, true, 0, false, 0⟩, ⟨0x2514, 1, 0xFFFF, 23040, N, true, 0, false, 0⟩,
  ⟨0x2515, 1, 0xFF, 0, N, true, 0, false, 0⟩, ⟨0x2516, 1, 0xFF, 1, N, false, 0, false, 0⟩,
  ⟨0x2518, 1, 0x7F, 0, N, false, 0, false, 0⟩]

open RegClass in
/-- Pages 0x26 to 0x2F (Tables RI-16 to RI-25). -/
def rowsRest : List RegRow := [
  ⟨0x260B, 2, 0, 0, M, false, 0, true, 0⟩, ⟨0x2610, 15, 0, 0, M, false, 0, false, 0⟩,
  ⟨0x2701, 1, 0x1F, 0x1F, N, false, 0, false, 0⟩, ⟨0x2708, 1, 0x7FFF, 0x3FB8, N, false, 0, false, 0⟩,
  ⟨0x2709, 1, 0x7FFF, 0x37AC, N, false, 0, false, 0⟩, ⟨0x270A, 1, 0x7FFF, 0x2B80, N, false, 0, false, 0⟩,
  ⟨0x270B, 1, 0x7FFF, 0x5F00, N, false, 0, false, 0⟩, ⟨0x270C, 4, 0xFFFF, 0x1810, N, false, 0, false, 0⟩,
  ⟨0x2710, 1, 0xFFFF, 0x0840, N, false, 0, false, 0⟩, ⟨0x2711, 1, 0xFFF, 0x0440, N, false, 0, false, 0⟩,
  ⟨0x2712, 1, 0xFFFF, 0x4040, N, false, 0, false, 0⟩, ⟨0x2713, 1, 0xFF, 128, N, false, 0, false, 0⟩,
  ⟨0x2714, 1, 0x7FF, 0x040C, N, false, 0, false, 0⟩, ⟨0x2715, 1, 0x3F, 0x37, N, false, 0, false, 0⟩,
  ⟨0x2716, 1, 0xFFFF, 0x2626, N, false, 0, false, 0⟩, ⟨0x2717, 1, 0xFFF, 0x0420, N, false, 0, false, 0⟩,
  ⟨0x2718, 1, 0xFFFF, 400, N, false, 0, false, 0⟩, ⟨0x2720, 9, 0, 0, M, false, 0, false, 0⟩,
  ⟨0x2901, 1, 0x3F, 4, N, false, 0, false, 0⟩, ⟨0x2908, 1, 0xFFFF, 0, N, false, 0, false, 0⟩,
  ⟨0x2909, 1, 0xFFFF, 999, N, false, 0, false, 0⟩, ⟨0x290A, 1, 0xF, 5, N, false, 0, false, 0⟩,
  ⟨0x290B, 1, 0xFFFF, 100, N, false, 0, false, 0⟩, ⟨0x290C, 1, 0xFFFF, 2000, N, false, 0, false, 0⟩,
  ⟨0x290D, 1, 0, 0, M, false, 0, false, 0⟩,
  ⟨0x2A01, 1, 3, 1, N, false, 0, false, 0⟩, ⟨0x2A08, 1, 0xFFFF, 0x2900, N, false, 0, false, 0⟩,
  ⟨0x2A09, 1, 0xFFFF, 0x0820, N, false, 0, false, 0⟩, ⟨0x2A0A, 1, 3, 1, N, false, 0, false, 0⟩,
  ⟨0x2A0B, 1, 0xFFFF, 20, N, false, 0, false, 0⟩, ⟨0x2A0C, 1, 0xFFFF, 800, N, false, 0, false, 0⟩,
  ⟨0x2A0D, 1, 0xFFFF, 100, N, false, 0, false, 0⟩, ⟨0x2A0E, 1, 0xFF, 0, N, false, 0, false, 0⟩,
  ⟨0x2A11, 1, 0, 0, M, false, 0, false, 0⟩, ⟨0x2A14, 1, 0x3FF, 0x60, N, false, 0, false, 0⟩,
  ⟨0x2A15, 1, 0x3FF, 512, N, false, 0, false, 0⟩, ⟨0x2A18, 1, 0, 0, M, false, 0, false, 0⟩,
  ⟨0x2A19, 1, 0xFFFF, 0x6EE7, N, false, 0, false, 0⟩, ⟨0x2A1A, 4, 0, 0, M, false, 0, false, 0⟩,
  ⟨0x2A1E, 1, 0xF, 5, N, false, 0, false, 0⟩, ⟨0x2A1F, 5, 0, 0, M, false, 0, false, 0⟩,
  ⟨0x2B09, 9, 0, 0, M, false, 0, false, 0⟩,
  ⟨0x2C01, 1, 1, 1, N, true, 0, false, 0⟩, ⟨0x2C08, 1, 0xFFFF, 1000, N, true, 0, false, 0⟩,
  ⟨0x2C09, 2, 0xFF, 0, N, true, 0, false, 0⟩, ⟨0x2C0B, 3, 0, 0, M, false, 0, false, 0⟩,
  ⟨0x2C10, 64, 0xFFFF, 16384, N, true, 0, false, 0⟩, ⟨0x2C50, 96, 0xFFFF, 16384, N, true, 0, false, 0⟩,
  ⟨0x2CB0, 48, 0xFFFF, 0, N, true, 0, false, 0⟩, ⟨0x2CE0, 32, 0xFFFF, 0, N, true, 0, false, 0⟩,
  ⟨0x2E11, 4, 0xFFFF, 0, N, true, 0, false, 0⟩, ⟨0x2E15, 2, 0, 0, M, false, 0, false, 0⟩,
  ⟨0x2F08, 1, 0xFE, 0, Z, false, 0, false, 0⟩]

def pageOf (a : Nat) : Nat := a / 256
def offOf (a : Nat) : Nat := a % 256

/-- The mapped pages (R81). -/
def mappedPage (p : Nat) : Bool := p ≤ 0x06 || (0x10 ≤ p && p ≤ 0x2F)

/-- Lane number of a lane page: 0 to 15 for L00 to L15, 16 for LSP (R348). -/
def laneOfPage (p : Nat) : Option Nat :=
  if 0x10 ≤ p && p ≤ 0x20 then some (p - 0x10) else none

/-- The address of word `off` of lane k's page. -/
def laneAddr (k off : Nat) : Nat := (0x10 + k) * 256 + off

/-- LSP has no ERNG, PEAK and TAU words (R155, R348). -/
def lspAbsent (off : Nat) : Bool := (0x09 ≤ off && off ≤ 0x15)

def findRow (rows : List RegRow) (a : Nat) : Option RegRow :=
  rows.find? (fun r => r.lo ≤ a && a < r.lo + r.n)

/-- The stored-word row of an address, lane pages read at page 0x10. -/
def regRow (a : Nat) : Option RegRow :=
  let p := pageOf a
  if 0x10 ≤ p && p ≤ 0x20 then
    if p == 0x20 && lspAbsent (offOf a) then none else findRow rowsLane (0x1000 + offOf a)
  else if p < 0x10 then findRow rowsSystem a
  else if p < 0x26 then findRow rowsChain a
  else findRow rowsRest a

/-- The address the row table knows an address by. -/
def rowAddr (a : Nat) : Nat :=
  if 0x10 ≤ pageOf a && pageOf a ≤ 0x20 then 0x1000 + offOf a else a

/-- The defined bits of a page's IFLG, IEN and ISET (Tables LW-6, LT-9, MS-8, MS-14, RQ-7, RK-4, RK-11, FE-10, FE-3,
DG-4, LC-10, SV-5, R199, CL-3, TR-6, RQ-4, SK-2, TG-5, TG-7, DG-3, SH-5, CA-3). Lanes have bits 3 to 0; on
LSP bit 0 (RSTEP) has no event of its own but is kept as on every lane page. -/
def flagMask (p : Nat) : Nat :=
  if 0x10 ≤ p && p ≤ 0x20 then 0xF else
  match p with
  | 0x00 => 0xF | 0x01 => 0xF07F | 0x02 => 7 | 0x03 => 0xF | 0x04 => 1 | 0x05 => 3 | 0x06 => 0xF
  | 0x21 => 0x1F | 0x22 => 0x3F | 0x23 => 3 | 0x24 => 0xFF | 0x25 => 0x1F | 0x26 => 0xF | 0x27 => 0xF
  | 0x28 => 0xFFF | 0x29 => 1 | 0x2A => 0x3F | 0x2B => 3 | 0x2C => 0x7F | _ => 0

/-- The pages that have protected words and so a key (R92, R347 to R351). -/
def keyedPage (p : Nat) : Bool :=
  p == 0x02 || p == 0x06 || (0x10 ≤ p && p ≤ 0x20) || p == 0x25 || p == 0x2B || p == 0x2C || p == 0x2E

/-- The page's key (R91). -/
def pageKey (p : Nat) : Word := w16 (0x6B00 + p)

/-- The table value of a stored word (R102); the common words IFLG and LOCK are 0, IEN is 1 on QUEUE only (R343). -/
def resetWord (a : Nat) : Word :=
  if offOf a == 4 then (if pageOf a == 0x26 then 1 else 0)
  else match regRow a with
    | some r => w16 (r.base + r.step * (rowAddr a - r.lo))
    | none => 0

/-- The stored value of a word. -/
def Regs.get (r : Regs) (a : Nat) : Word :=
  match r with
  | [] => resetWord a
  | (b, v) :: t => if b = a then v else Regs.get t a

/-- Put a value at its place, keeping the addresses rising. -/
def Regs.put (r : Regs) (a : Nat) (v : Word) : Regs :=
  match r with
  | [] => [(a, v)]
  | (b, w) :: t => if a < b then (a, v) :: (b, w) :: t else if a = b then (a, v) :: t else (b, w) :: Regs.put t a v

/-- Remove an address's entry. -/
def Regs.drop (r : Regs) (a : Nat) : Regs :=
  match r with
  | [] => []
  | (b, w) :: t => if b = a then Regs.drop t a else (b, w) :: Regs.drop t a

/-- Set a word; a word at its table value has no entry, so equal register files are equal lists. -/
def Regs.set (r : Regs) (a : Nat) (v : Word) : Regs := if v = resetWord a then r.drop a else r.put a v

/-- The canonical form: addresses rise strictly from above `lo`, and no entry holds its table value. -/
def Regs.wfFrom : Option Nat → Regs → Bool
  | _, [] => true
  | lo, (a, v) :: t => (match lo with | none => true | some l => decide (l < a)) && decide (v ≠ resetWord a) && Regs.wfFrom (some a) t

def Regs.wf (r : Regs) : Bool := Regs.wfFrom none r

/-- The addresses of the class N words the register file holds, in rising order (R325). -/
def classNAddrs : List Nat :=
  let run (r : RegRow) : List Nat := (List.range r.n).map (r.lo + ·)
  let pick (rows : List RegRow) : List Nat := (rows.filter (fun r => decide (r.cls = RegClass.N))).flatMap run
  pick rowsSystem ++ (List.range 17).flatMap (fun k =>
    (pick rowsLane).filterMap (fun a => if k == 16 && lspAbsent (offOf a) then none else some (a + 256 * k)))
    ++ pick rowsChain ++ pick rowsRest

/-- Is the address a class N word? The tone entries, the FIR windows and the user table have runs of their own
(Table SH-3) or are held beside the register file. -/
def classN (a : Nat) : Bool :=
  match regRow a with
  | some r => decide (r.cls = RegClass.N)
  | none => (0x0510 ≤ a && a ≤ 0x058F)

/-- The value a register takes when `new` is written over `old` (R374 and the "is ignored" rows): `new` has the
writable bits only. -/
def takenWord (a : Nat) (old new : Word) : Word :=
  let n := new.toNat
  let atLeast (f : Nat) (hi lo m : Nat) : Nat := if fld (w16 f) hi lo < m then f + (m - fld (w16 f) hi lo) * 2 ^ lo else f
  let atMost (f : Nat) (hi lo m : Nat) : Nat := if fld (w16 f) hi lo > m then f - (fld (w16 f) hi lo - m) * 2 ^ lo else f
  match rowAddr a with
  | 0x0209 => if n = 3 then old else new
  | 0x020A | 0x020B => w16 (atLeast n 11 0 80)
  | 0x020D | 0x0609 | 0x2108 | 0x2909 | 0x2516 | 0x2713 | 0x1024 | 0x1025 | 0x1026 => w16 (if n = 0 then 1 else n)
  | 0x0409 => w16 (atMost (atLeast n 11 0 64) 11 0 2048)
  | 0x2208 => w16 (atMost (atLeast n 10 0 1) 10 0 1024)
  | 0x2218 => if fld new 15 14 = 3 || fld new 6 0 > 95 || fld new 13 7 > 79 then old else new
  | 0x230A | 0x230B => w16 (atMost (atLeast n 8 0 1) 8 0 384)
  | 0x2409 => w16 (atLeast n 3 0 1)
  | 0x240A => w16 (atMost (atLeast n 4 0 1) 4 0 16)
  | 0x240E => w16 (atLeast (atMost (atLeast n 10 6 1) 10 6 16) 15 11 1)
  | 0x2414 => if fld new 9 8 = 3 then old else new
  | 0x250A => w16 (atLeast (atLeast n 3 0 1) 7 4 1)
  | 0x2710 => w16 (atLeast (atLeast n 7 0 1) 15 8 1)
  | 0x2711 => w16 (atLeast n 7 0 8)
  | 0x2712 => w16 (atLeast n 7 0 1)
  | 0x2717 => w16 (atLeast n 11 8 1)
  | 0x2901 => if fld new 5 3 = 7 then w16 (n % 8 + old.toNat / 8 % 8 * 8) else new
  | 0x2A08 => w16 (atLeast n 15 13 1)
  | _ => new

/-- The wide values of Table RI-2, lowest address and words, with their kind (true: result). Timer blocks are added
by `wideAt`. -/
def wideTable : List (Nat × Nat × Bool) := [
  (0x0308, 3, false), (0x030B, 3, false), (0x030E, 2, true), (0x0313, 3, true), (0x0316, 2, true), (0x0318, 2, false),
  (0x220A, 2, true), (0x2210, 2, false), (0x2219, 2, true), (0x221B, 2, true),
  (0x2612, 2, true), (0x2614, 2, true), (0x2616, 2, true), (0x2618, 2, true), (0x261A, 2, true), (0x261C, 2, true),
  (0x2B0C, 2, true), (0x2B0E, 2, true), (0x2B10, 2, true), (0x2E0E, 3, true), (0x2E15, 2, true)]

/-- The wide value an address belongs to: its lowest address, its number of words, result or running (R346). -/
def wideAt (a : Nat) : Option (Nat × Nat × Bool) :=
  if pageOf a == 0x28 then
    let t := (offOf a - 0x10) / 16
    let o := offOf a % 16
    if 0x10 ≤ offOf a && t < 6 && 4 ≤ o && o ≤ 9 then
      some (a - a % 2, 2, decide (6 ≤ o))
    else none
  else wideTable.find? (fun (b, n, _) => b ≤ a && a < b + n)

/-- The wide values a host may write (Table RI-2: RW). -/
def wideWritable (base : Nat) : Bool :=
  base == 0x220A || (pageOf base == 0x28 && (offOf base % 16 == 4 || offOf base % 16 == 6))

end Machine
end Sys2Proof
end

