-- ==== Sys2Proof/Machine/Operands.lean ====
section
/-! DEFINITION. The operand forms of link requests: header fields (R61, R62), the frame CRC (R60), the CRC-32 of the
Shed (R319), the checks of Table LT-5 and the lengths of frames (R58). -/

namespace Sys2Proof
namespace Machine

/-- One bit of CRC-16, polynomial 0x1021, most significant bit first (R60). -/
def crc16Step (crc : Word) (bit : Bool) : Word :=
  let top := crc.getLsbD 15
  let sh := crc <<< 1
  if top != bit then sh ^^^ 0x1021 else sh

/-- The 16 bits of a word, most significant first (R58). -/
def wordBits (w : Word) : List Bool := (List.range 16).map (fun i => w.getLsbD (15 - i))

/-- CRC-16 over words in transmission order, initial value 0xFFFF, no final XOR (R60). -/
def crc16 (ws : List Word) : Word := (ws.flatMap wordBits).foldl crc16Step 0xFFFF

/-- CRC-32 of IEEE 802.3 (R319), one bit, reflected. -/
def crc32Step (crc : BitVec 32) (bit : Bool) : BitVec 32 :=
  let low := crc.getLsbD 0
  let sh := crc >>> 1
  if low != bit then sh ^^^ 0xEDB88320 else sh

def byteBitsLow (b : Byte) : List Bool := (List.range 8).map (fun i => b.getLsbD i)

/-- CRC-32 over bytes: initial value and final XOR 0xFFFF_FFFF (R319). -/
def crc32 (bs : List Byte) : BitVec 32 := ((bs.flatMap byteBitsLow).foldl crc32Step 0xFFFFFFFF) ^^^ 0xFFFFFFFF

end Machine
open Machine

/-- The request fields of H0 (R61). -/
def Frame.op (f : Frame) : Nat := fld f.h0 15 12
def Frame.inc (f : Frame) : Bool := f.h0.getLsbD 11
def Frame.tag (f : Frame) : Nat := fld f.h0 10 8
def Frame.count (f : Frame) : Nat := fld f.h0 7 0

/-- Does the received CRC agree with the computed one (R60)? -/
def Frame.crcOk (f : Frame) : Bool := decide (f.crc = crc16 (f.h0 :: f.h1 :: f.payload))

/-- The core byte address of DBGRD and DBGWR: the first two payload words, low word first (R76). -/
def Frame.coreAddr (f : Frame) : Nat := ofWords (f.payload.take 2)

namespace Machine

/-- The opcodes of Table LT-2. -/
inductive Op where
  | read | write | writea | grant | credit | resend | tsync | rebase | dbgctl | dbgrd | dbgwr | abort
  deriving DecidableEq, Repr

/-- The request a value of OP names; none for a reserved one (R61, Table LT-2). -/
def opOf : Nat → Option Op
  | 1 => some .read | 2 => some .write | 3 => some .writea | 4 => some .grant | 5 => some .credit | 6 => some .resend
  | 7 => some .tsync | 8 => some .rebase | 9 => some .dbgctl | 10 => some .dbgrd | 11 => some .dbgwr | 12 => some .abort
  | _ => none

def Op.code : Op → Nat
  | .read => 1 | .write => 2 | .writea => 3 | .grant => 4 | .credit => 5 | .resend => 6
  | .tsync => 7 | .rebase => 8 | .dbgctl => 9 | .dbgrd => 10 | .dbgwr => 11 | .abort => 12

/-- The tagged requests (Table LT-2). -/
def Op.tagged : Op → Bool
  | .read | .writea | .resend | .tsync | .rebase | .dbgctl | .dbgrd | .dbgwr => true
  | _ => false

/-- The range of COUNT a request allows (Table LT-2). -/
def Op.countOk (op : Op) (c : Nat) : Bool :=
  match op with
  | .read => 1 ≤ c && c ≤ 32
  | .write | .writea => 1 ≤ c && c ≤ 16
  | .tsync | .rebase => c == 3
  | .dbgrd => c == 2
  | .dbgwr => 4 ≤ c && c ≤ 34 && c % 2 == 0
  | _ => c == 0

/-- The NAK reasons of Table LT-5 that depend on the request alone or on the mode: the checks are tried in the order
of the table's codes; a reserved OP has no request and fails OPCODE before them. `service` and `halted` give the mode of R76. A DBGRD whose number of core words lies outside
1 to 16 fails COUNT (DEDUCED, log entry 9). -/
def nakReason (op : Op) (f : Frame) (service halted : Bool) : Option Nat :=
  if !op.countOk f.count || (op == .dbgrd && !(decide (1 ≤ f.h1.toNat) && decide (f.h1.toNat ≤ 16))) then some 0x02
  else if (op == .read || op == .write || op == .writea) &&
      (!mappedPage (pageOf f.h1.toNat) || (f.inc && decide (offOf f.h1.toNat + f.count - 1 > 0xFF))) then some 0x03
  else if (op == .dbgrd || op == .dbgwr) && f.coreAddr % 4 != 0 then some 0x03
  else if op == .dbgctl && !service then some 0x04
  else if (op == .dbgrd || op == .dbgwr) && !(service && halted) then some 0x04
  else if op == .grant && !(decide (16 ≤ f.h1.toNat) && decide (f.h1.toNat ≤ 1024)) then some 0x06
  else none

/-- The addresses a READ or WRITE of `count` words touches (R61). -/
def spanAddrs (addr : Word) (count : Nat) (inc : Bool) : List Nat :=
  (List.range count).map (fun i => if inc then addr.toNat + i else addr.toNat)

/-- Response header H0 (R62). -/
def respH0 (rcode : Nat) (resent : Bool) (tag count : Nat) : Word :=
  w16 (rcode * 4096 + b2n resent * 2048 + tag * 256 + count)

/-- The length of a frame with an 8-bit preamble and `n` payload words, in hc (R58). -/
def frameHc (n : Nat) : Nat := 72 + 16 * n

/-- The bytes of words, low byte first (R318, R232). -/
def bytesOf (ws : List Word) : List Byte := ws.flatMap (fun (w : Word) => [w.setWidth 8, (w >>> 8).setWidth 8])

end Machine
end Sys2Proof
end

