-- ==== Sys2Proof/Machine/Flags.lean ====
section
/-! DEFINITION. Interrupt flags and their summaries (R87 to R90), the saturating counters, result values and LSTALE
(R93, R95), the write locks (R91), and the status words that gather state (R14, R36, R80). -/

namespace Sys2Proof
namespace Machine

def State.reg (s : State) (a : Nat) : Word := s.regs.get a

/-- The value a frame-boundary setting has in force (R12). -/
def State.inForce (s : State) (a : Nat) : Word := s.force.get a

def State.setReg (s : State) (a : Nat) (v : Word) : State := { s with regs := s.regs.set a v }

/-- Set flags of a page's IFLG, whatever IEN holds; a clearing write of this hc leaves them set (R87). -/
def State.setFlags (s : State) (page : Nat) (bits : Word) : State :=
  { s.setReg (page * 256 + 3) (s.reg (page * 256 + 3) ||| bits) with flagged := (page, bits) :: s.flagged }

def State.setFlag (s : State) (page bit : Nat) : State := s.setFlags page (w16 (2 ^ bit))

def State.setFlagIf (s : State) (c : Bool) (page bit : Nat) : State := if c then s.setFlag page bit else s

/-- A counter word that saturates at 65,535 (for example R54, R80). -/
def State.addSat (s : State) (a n : Nat) : State := s.setReg a (w16 (sat16 ((s.reg a).toNat + n)))

/-- The 8-bit saturating counter LNK.ESDCNT (Table LW-11). -/
def State.addSat8 (s : State) (a : Nat) : State := s.setReg a (w16 (min 255 ((s.reg a).toNat + 1)))

/-- A page has an interrupt pending while IFLG AND IEN is nonzero (R89). -/
def State.pagePending (s : State) (page : Nat) : Bool :=
  decide (s.reg (page * 256 + 3) &&& s.reg (page * 256 + 4) ≠ 0)

/-- Flags of a page that an event has set on this hc: a clearing write of the same hc leaves them set (R87). -/
def State.hcFlagBits (s : State) (page : Nat) : Word :=
  (s.flagged.filter (fun e => decide (e.1 = page))).foldl (fun w e => w ||| e.2) 0

/-- The mapped pages with flags. -/
def flagPages : List Nat := (List.range 7) ++ (List.range 30).map (0x10 + ·)

/-- Flags of a page that an IEN write has enabled on this hc: they are causes from the next hc on (R89). -/
def State.irqHeld (s : State) (page : Nat) : Word :=
  (s.link.irqWait.filter (fun e => decide (e.1 = page) && decide (s.now < e.2.2))).foldl (fun w e => w ||| e.2.1) 0

/-- A page's interrupt counts as an ATTN cause (R89). -/
def State.pageCause (s : State) (page : Nat) : Bool :=
  decide (s.reg (page * 256 + 3) &&& s.reg (page * 256 + 4) &&& ~~~ (s.irqHeld page) ≠ 0)

def State.irqCause (s : State) : Bool := flagPages.any s.pageCause

/-- The summary words: bit i is page `first + i` (R90, Tables RP-4 to RP-6). -/
def State.summary (s : State) (first n : Nat) : Word :=
  w16 (sumNat ((List.range n).map (fun i => b2n (s.pagePending (first + i)) * 2 ^ i)))

/-- Does the page's shadow belong to the value at `base` (R94)? -/
def State.shadowed (s : State) (base : Nat) : Bool :=
  s.link.shadow.any (fun sh => sh.page == pageOf base && sh.base == base)

/-- A change of a latched result value sets STAT.LSTALE (R95). -/
def State.staleIf (s : State) (base : Nat) (changed : Bool) : State :=
  if changed && s.shadowed base then
    s.setReg (pageOf base * 256 + 2) (s.reg (pageOf base * 256 + 2) ||| 0x8000)
  else s

/-- A wide value held in the register file, as a number. -/
def State.wide (s : State) (base n : Nat) : Nat := ofWords ((List.range n).map (fun i => s.reg (base + i)))

def setWords (r : Regs) (base v : Nat) : Nat → Regs
  | 0 => r
  | n + 1 => (setWords r base v n).set (base + n) (wordAt v n)

/-- Load a result value of `n` words; a load of the value already held is no change (R95). -/
def State.setWide (s : State) (base n v : Nat) : State :=
  State.staleIf { s with regs := setWords s.regs base v n } base (decide (s.wide base n ≠ v % 2 ^ (16 * n)))

/-- Is the page unlocked (R91)? -/
def State.unlocked (s : State) (page : Nat) : Bool := s.link.unlocked.contains page

/-- The host-clocked modes and the spans that run on HCLK (R39, R376): not DORMANT before its first exit edge, not
the part of start-up before the first edge. -/
def State.hcDriven (s : State) : Bool :=
  s.clk.seen && !s.clk.stopped && decide (s.pw.phase = PowerPhase.on) &&
    !(decide (s.ms.mode = Mode.dormant) && (decide (s.ms.exit = ExitStage.none) || decide (s.ms.exit = ExitStage.waitClock)))

def Mode.code : Mode → Nat
  | .startup => 0 | .active => 1 | .watch => 2 | .dormant => 3 | .service => 4

/-- ACTIVE, WATCH or SERVICE. -/
def State.hostClocked (s : State) : Bool :=
  decide (s.ms.mode = Mode.active) || decide (s.ms.mode = Mode.watch) || decide (s.ms.mode = Mode.service)

/-- The core runs unless it is halted under debug (R76). -/
def State.coreRuns (s : State) : Bool := !s.ms.halted

/-- The number of working lanes failed this epoch (Table DG-2). -/
def State.nfail (s : State) : Nat := (s.dg.failed.filter (· < 16)).length

def State.lspFailed (s : State) : Bool := s.dg.failed.contains 16

/-- DEGRADED: a failed working lane whose remap boundary has come (R303). -/
def State.degraded (s : State) : Bool :=
  s.dg.failed.any (fun k => decide (k < 16) && !s.dg.declared.any (fun d => d.1 == k))

/-- SYS.STAT (Table TJ-6), LSTALE bit aside. -/
def State.sysStat (s : State) : Nat :=
  s.ms.mode.code + 8 * b2n s.degraded + 16 * b2n (!s.dg.interp.isEmpty) + 32 * b2n s.ms.refRdy
    + 64 * b2n s.ms.calBusy + 128 * b2n s.pw.warm

/-- SYS.CMDSTAT (Table MS-10). -/
def State.cmdStat (s : State) : Nat :=
  s.ms.code + 256 * b2n s.ms.busy + 512 * b2n s.ms.done + 1024 * b2n s.ms.badcmd + 2048 * b2n s.ms.badstate
    + 4096 * b2n s.ms.badarg

/-- A command completes (R115). DONE is set in the status as it stands, which may be that of a command rejected while this one
was BUSY: CODE and BADSTATE are then the rejected command's (DESIGN CHOICE, log entry 77). -/
def State.cmdDone (s : State) : State :=
  State.setFlag { s with ms := { s.ms with busy := false, done := true, calBusy := false } } 0x00 1

/-- The outstanding tags: requests other than RESEND from acceptance until their response is sent (R64). -/
def State.outTags (s : State) : List Nat :=
  (s.link.resp.filter (fun r => decide (r.kind = RespKind.answer))).map (·.tag)

def State.outst (s : State) : Nat :=
  sumNat ((List.range 8).map (fun t => b2n (s.outTags.contains t) * 2 ^ t))

/-- Free posted-write entries (R65). -/
def State.wfree (s : State) : Nat := 16 - s.link.wbuf.length

/-- The level of ATTN: a wired AND of both sides (R30). -/
def State.attnLow (s : State) : Bool := s.link.attn || s.link.presence || s.link.wakeAssert || s.pw.attnHost

def State.attnOut (s : State) : Bool := s.link.attn || s.link.presence || s.link.wakeAssert

/-- LNK.WSTAT (Table LW-7). -/
def State.wstat (s : State) : Nat :=
  b2n (!s.pw.vphLow) + 2 * b2n s.pw.limit + 4 * b2n (!s.attnLow) + 8 * b2n s.attnOut

/-- A replay, a credited report, a ready response or an enabled flag: the ATTN causes of R77, R89 and R242. -/
def State.attnCause (s : State) : Bool :=
  s.link.resp.any (·.shown) || (!s.rq.entries.isEmpty && decide (1 ≤ s.rq.cout)) || s.rq.replay.isSome
    || (wbit (s.reg 0x0101) 1 && s.irqCause)

/-- A free value of 16 bits, fresh at each draw (log entry 3). -/
def State.draw (s : State) : State := { s with free := s.free + 1 }

/-- Put an event in the agenda, `n` hc from now. -/
def State.after (s : State) (n : Nat) (i : Instr) : State := { s with agenda := s.agenda ++ [(s.now + n, i)] }

/-- An event whose end the controller times itself is not due while the agenda still holds it. -/
def State.fires (s : State) (i : Instr) : Bool := !s.agenda.any (fun (e : Nat × Instr) => decide (e.2 = i))

def State.unschedule (s : State) (p : Instr → Bool) : State :=
  { s with agenda := s.agenda.filter (fun e => !p e.2) }

/-- An absolute duration of t µs in hc, by the declaration in force (R42). A duration under way when a later declaration takes
effect keeps the hc it was given where it is scheduled (a page program, a settle, the idle time); BLKMAX and STUCKT are
judged by the new declaration (DESIGN CHOICE, log entry 68). -/
def State.hcOf (s : State) (us : Nat) : Nat := ceilDiv (us * s.clk.decl) 1000

/-- An absolute duration given in tenths of a µs. -/
def State.hcOf10 (s : State) (us10 : Nat) : Nat := ceilDiv (us10 * s.clk.decl) 10000

/-- The deglitch length D (R148). -/
def State.deglitch (s : State) : Nat := s.hcOf 1

end Machine
end Sys2Proof
end

