-- ==== Sys2Proof/Machine/TimerOps.lean ====
section
/-! DEFINITION. The shared operations of the six timers and the Gauge (R269 to R280). -/

namespace Sys2Proof
namespace Machine

def Timer.mode (t : Timer) : Nat := fld t.ctrl 2 0
def Timer.clk (t : Timer) : Nat := fld t.ctrl 5 3
def Timer.frz (t : Timer) : Bool := wbit t.ctrl 10
def Timer.csrc (t : Timer) : Nat := fld t.sel 3 0
def Timer.stop (t : Timer) : Nat := fld t.sel 7 4

def timerReset : Timer :=
  { ctrl := 0x0400, sel := 0, down := false, capn := false, ovr := false, order := false, res := false, armed := false,
    counting := false, count := 0, period := 0, perBuf := 0, cap := 0, pre := 0, fresh := false, stay := false, req := .none, latch := none }

def State.timer (s : State) (t : Nat) : Timer := s.tm.getD t timerReset

def State.setTimer (s : State) (t : Nat) (x : Timer) : State := { s with tm := s.tm.setIfInBounds t x }

/-- The period in use: 0 is taken as 1 (R270). -/
def Timer.p (t : Timer) : Nat := if t.period = 0 then 1 else t.period

/-- The core is halted in SERVICE, and does not execute a STEP on this hc (R76, R275). -/
def State.frozenNow (s : State) : Bool :=
  s.ms.halted && decide (s.ms.mode = Mode.service) && decide (s.ms.stepAt ≠ some s.now)

/-- A halted core in SERVICE freezes a timer whose FRZ is 1 (R275). -/
def State.timerFrozen (s : State) (t : Nat) : Bool := s.frozenNow && (s.timer t).frz

/-- A timer block's commands change a frozen timer too, but no event reaches it. -/
def State.timerRuns (s : State) (t : Nat) : Bool := !s.timerFrozen t

/-- The start state of a mode (Table TG-2); the count event of that hc is not taken (log entry 10). -/
def Timer.start (t : Timer) : Timer :=
  match t.mode with
  | 1 => { t with count := 0, pre := 0, fresh := true, armed := false, counting := false, down := false }
  | 2 => { t with count := t.p, pre := 0, fresh := true, armed := false, counting := false, down := true }
  | 3 => { t with count := 0, down := false, pre := 0, fresh := true, armed := false, counting := false }
  | 4 => { t with count := 0, pre := 0, fresh := true, armed := false, counting := false, down := false }
  | _ => { t with pre := 0, armed := false, counting := false }

/-- Off and Measure load a buffered period at once (R271). -/
def Timer.loadNow (t : Timer) : Timer :=
  if t.mode = 0 ∨ t.mode = 4 then { t with period := t.perBuf } else t

/-- One count event of a counting mode, and whether it is a WRAP event (R270). -/
def Timer.step (t : Timer) : Timer × Bool :=
  match t.mode with
  | 1 => if t.count = t.p then ({ t with count := 0, period := t.perBuf }, true)
         else ({ t with count := (t.count + 1) % 2 ^ 32 }, false)
  | 2 => if t.count = 0 then
           let u : Timer := { t with period := t.perBuf }
           ({ u with count := u.p }, true)
         else ({ t with count := t.count - 1 }, false)
  | 3 => if t.down then
           if t.count ≤ 1 then ({ t with count := 0, down := false, period := t.perBuf }, true)
           else ({ t with count := t.count - 1 }, false)
         else ({ t with count := (t.count + 1) % 2 ^ 32, down := decide (t.p ≤ t.count + 1) }, false)
  | 4 => if t.counting then ({ t with count := min (t.count + 1) 0xFFFFFFFF }, false) else (t, false)
  | _ => (t, false)

/-- A source event after the prescaler: every 2^PRE-th is a count event (R269). -/
def Timer.tick (t : Timer) : Timer × Bool :=
  if t.fresh || t.mode = 0 || 5 ≤ t.mode then (t, false)
  else if t.pre + 1 ≥ 2 ^ fld t.ctrl 9 6 then
    let u : Timer := { t with pre := 0 }
    if t.stay then (u, false) else u.step
  else ({ t with pre := t.pre + 1 }, false)

/-- A START, STOP or capture event with code `c` at a timer (R272, R274). A start on the hc of a stop before any start is
taken first, whichever is heard first. A STOP ends the count with its hc, so that the count of that hc is in the result in
either order; a start leaves a count that a commit set on its hc (R99). -/
def Timer.event (t : Timer) (c : Nat) : Timer :=
  if c = 0 ∨ 9 ≤ c then t
  else if t.mode = 1 ∨ t.mode = 2 ∨ t.mode = 3 then
    if t.csrc = c then { t with req := .capture } else t
  else if t.mode = 4 ∧ t.armed = true then
    if t.counting then
      if t.stop = c then { t with armed := false, req := .measured } else t
    else if t.csrc = c then
      { t with counting := true, count := if t.stay then t.count else 0, stay := true }
    else if t.stop = c then { t with armed := false, req := .order } else t
  else if t.mode = 4 ∧ t.req = .order ∧ t.csrc = c then { t with count := if t.stay then t.count else 0, req := .measured }
  else t

/-- WRAP events run on to the next timer while it counts wraps; `fuel` bounds the ring of six. -/
def State.wrapEvents (s : State) : Nat → Nat → State
  | 0, _ => s
  | fuel + 1, t =>
    let s := s.setFlag 0x28 (6 + t)
    let n := (t + 1) % 6
    if s.timerRuns n then
      let x := (s.timer n).event 5
      if x.clk = 5 then
        let (y, wrapped) := x.tick
        if wrapped then State.wrapEvents (s.setTimer n y) fuel n else s.setTimer n y
      else s.setTimer n x
    else s

/-- One source event at timer t. -/
def State.countTimer (s : State) (t : Nat) : State :=
  if s.timerRuns t then
    let (x, wrapped) := (s.timer t).tick
    if wrapped then (s.setTimer t x).wrapEvents 6 t else s.setTimer t x
  else s

def State.countClk (s : State) (clk : Nat) : State :=
  (List.range 6).foldl (fun s t => if (s.timer t).clk = clk then s.countTimer t else s) s

/-- An event of Table TG-3 at every timer that runs. -/
def State.timerEvent (s : State) (c : Nat) : State :=
  (List.range 6).foldl (fun s t => if s.timerRuns t then s.setTimer t ((s.timer t).event c) else s) s

/-- An event that is both a count source and a capture source (Tables TG-1 and TG-3). -/
def State.timerSource (s : State) (clk c : Nat) : State := (s.countClk clk).timerEvent c

/-- At the end of an hc, a requested capture latches COUNT for installation on the next hc (R272, R274). -/
def Timer.latchReq (t : Timer) : Timer :=
  match t.req with
  | .none => { t with fresh := false, stay := false }
  | .capture => { t with fresh := false, stay := false, req := .none, latch := some (t.count, false, false) }
  | .measured =>
    { t with fresh := false, stay := false, counting := false, req := .none, latch := some (t.count, false, decide (t.count = 0)) }
  | .order => { t with fresh := false, stay := false, req := .none, latch := some (0, true, false) }

/-- The address of TMt.CAP (R281). -/
def capAddr (t : Nat) : Nat := 0x2818 + 16 * t

/-- Installation of a value into CAP (R272): CAPN and CAPt set, OVR if CAPN was 1, ORDER and RES describe it. -/
def State.installCap (s : State) (t v : Nat) (order res : Bool) : State :=
  let x := s.timer t
  State.setFlag (State.staleIf (s.setTimer t { x with cap := v, capn := true, ovr := x.ovr || x.capn, order := order, res := res, latch := none })
    (capAddr t) (decide (x.cap ≠ v))) 0x28 t

/-- The Gauge value v of a source (Table TG-4). -/
def State.gaugeSource (s : State) : Nat :=
  match fld (s.reg 0x2901) 5 3 with
  | 0 => (s.reg 0x2908).toNat
  | 1 => 3276 * s.tr.contacts.length
  | 2 => (s.reg 0x240C).toNat
  | 3 => (clampInt 0 65535 (signed 16 (s.reg 0x2A18).toNat * 16 + 16384)).toNat
  | 4 => 256 * (s.reg 0x0123).toNat
  | 5 => (s.timer 5).cap % 65536
  | 6 => 8192 * s.ms.mode.code + 4096 * b2n s.degraded + 2048 * b2n (!s.dg.interp.isEmpty) + 1024 * b2n s.pw.warm
  | _ => 0

/-- GPER of 0 is taken as 1 (R279). -/
def State.gper (s : State) : Nat := max 1 (s.reg 0x2909).toNat

/-- The start of a PWM period (R279): pick up v and set the high time H. -/
def State.gaugePeriodOp (s : State) : State :=
  let v := s.gaugeSource
  let high := (v * (s.gper + 1) + 32768) / 65535
  { s with regs := s.regs.set 0x290D (w16 v),
           gg := { s.gg with v := v, high := high, phase := 0, pre := 0, level := decide (0 < high), startAt := none } }

/-- The target frequency of frequency mode in Hz before the limit (R280). -/
def State.gaugeFreq (s : State) (v : Nat) : Nat :=
  10 * ((s.reg 0x290B).toNat + v * (s.reg 0x290C).toNat / 65536)

/-- A rising edge in frequency mode (R280): pick up v, limit f, recompute INC. -/
def State.gaugeEdgeOp (s : State) : State :=
  let v := s.gaugeSource
  let f := s.gaugeFreq v
  let g := max 10 (min f 200000)
  State.setFlagIf
    { s with regs := s.regs.set 0x290D (w16 v),
             gg := { s.gg with v := v, level := true, startAt := none,
                               inc := (roundDiv (g * 2 ^ 24 : Nat) (s.clk.decl * 1000)).toNat } }
    (decide (g ≠ f)) 0x29 0

def State.gaugeRuns (s : State) : Bool :=
  wbit (s.reg 0x2901) 0 && decide (s.clk.decl ≠ 0) &&
    !(s.frozenNow && wbit (s.reg 0x2901) 2)

/-- A new period starts on this hc (R277). -/
def State.gaugeStarts (s : State) : Bool := s.gg.startAt.any (fun t => decide (t ≤ s.now))

/-- One hc of the Gauge generator (R277, R279, R280). -/
def State.gaugeTick (s : State) : State :=
  if !s.gaugeRuns then s
  else if s.gg.startAt.isSome && !s.gaugeStarts then s
  else if wbit (s.reg 0x2901) 1 then
    if s.gaugeStarts then State.gaugeEdgeOp { s with gg := { s.gg with acc := 2 ^ 23 } }
    else
      let a := (s.gg.acc + s.gg.inc) % 2 ^ 24
      let up := decide (2 ^ 23 ≤ a)
      if up && !s.gg.level then State.gaugeEdgeOp { s with gg := { s.gg with acc := a } }
      else { s with gg := { s.gg with acc := a, level := up } }
  else if s.gaugeStarts then s.gaugePeriodOp
  else if s.gg.pre + 1 < 2 ^ fld (s.reg 0x290A) 3 0 then { s with gg := { s.gg with pre := s.gg.pre + 1 } }
  else if s.gg.phase + 1 > s.gper then s.gaugePeriodOp
  else { s with gg := { s.gg with pre := 0, phase := s.gg.phase + 1, level := decide (s.gg.phase + 1 < s.gg.high) } }

/-- The GAUGE contact (R31, Table LW-5). -/
inductive PinState where
  | highZ | low | high
  deriving DecidableEq, Repr

/-- GAUGE is high-impedance with its pull-down during power-on reset, P2 and P3 among it, and driven from its end (R31,
R32). -/
def State.gaugePin (s : State) : PinState :=
  if s.pw.phase = .on then (if s.gg.level then .high else .low) else .highZ

/-- A change of GAUGE.CTRL.EN: a new period starts on the next hc (R277). -/
def State.gaugeEnableOp (s : State) (en : Bool) : State :=
  let c := s.reg 0x2901
  if en then
    { s with regs := s.regs.set 0x2901 (c ||| 1), gg := { s.gg with startAt := if wbit c 0 then s.gg.startAt else some (s.now + 1) } }
  else { s with regs := s.regs.set 0x2901 (c &&& 0x3E), gg := { s.gg with level := false, startAt := none } }

end Machine
end Sys2Proof
end

