-- ==== Sys2Proof/Machine/TimeOps.lean ====
section
/-! DEFINITION. The time base (R247 to R253): the accumulator, anchors and timestamps, the advances of a stop and of
DORMANT, uncertainty, and what a change of declaration does. -/

namespace Sys2Proof
namespace Machine

/-- The increment of one hc: half while a backward slew runs (R247). -/
def TimeBase.rate (tb : TimeBase) : Nat := if tb.slewRem ≠ 0 then 8000 else 16000

/-- The ticks the accumulator produces on one hc (R247). -/
def State.hcTicks (s : State) : Nat :=
  if s.tb.run && decide (s.clk.decl ≠ 0) then (s.tb.acc + s.tb.rate) / s.clk.decl else 0

/-- The ticks a slew withholds on one hc: half of each hc's increment, in whole ticks (R252). -/
def State.withheld (s : State) : Nat :=
  if s.tb.slewRem ≠ 0 then (s.tb.held + 8000) / s.clk.decl else 0

/-- One hc of the time base: HCPOS, the accumulator, TSC, SLEWREM (R247, R252). The state counts HCPOS on; TIME.HCPOS
shows it modulo 2^48. -/
def State.accumulate (s : State) : State :=
  if s.tb.run && decide (s.clk.decl ≠ 0) then
    { s with tb := { s.tb with
        hcpos := s.tb.hcpos + 1
        acc := (s.tb.acc + s.tb.rate) % s.clk.decl
        tsc := (s.tb.tsc + s.hcTicks) % 2 ^ 48
        held := if s.tb.slewRem ≠ 0 then (s.tb.held + 8000) % s.clk.decl else 0
        slewRem := s.tb.slewRem - s.withheld } }
  else s

/-- The anchor of this hc (R248). -/
def State.anchorNow (s : State) : Anchor :=
  { hc := s.tb.hcpos, tsc := s.tb.tsc, acc := s.tb.acc, half := decide (s.tb.slewRem ≠ 0), decl := s.clk.decl }

/-- Write an anchor; the ring holds 256, newest first (R248). -/
def State.writeAnchor (s : State) : State :=
  { s with tb := { s.tb with anchors := (s.anchorNow :: s.tb.anchors).take 256
                             lost := s.tb.lost || decide (256 ≤ s.tb.anchors.length) } }

/-- TS of an instant in 1/32 hc from one anchor (R248). -/
def Anchor.stamp (a : Anchor) (t32 : Int) : Int :=
  let f : Int := a.decl
  let r2 : Int := if a.half then 1 else 2
  if a.decl = 0 then a.tsc
  else (a.tsc * f * 64 + a.acc * 64 + r2 * (t32 - 32 * a.hc) * 16000) / (64 * f)

/-- The latest anchor at or before an instant (R248). -/
def State.anchorFor (s : State) (t32 : Int) : Option Anchor :=
  s.tb.anchors.find? (fun a => decide ((32 * a.hc : Int) ≤ t32))

/-- TS(t): the anchor of R248, the oldest where none is left, never below the REBASE floor (R253). Sets ANCLOST where
the right anchor has been overwritten. -/
def State.stamp (s : State) (t32 : Int) : Nat × State :=
  let raise (x : Int) : Nat := max s.tb.floor (x % (2 ^ 48 : Nat)).toNat
  match s.anchorFor t32 with
  | some a => (raise (a.stamp t32), s)
  | none =>
    match s.tb.anchors.getLast? with
    | some a => (raise (max 0 (a.stamp t32)), s.setFlagIf s.tb.lost 0x03 3)
    | none => (raise s.tb.tsc, s)

/-- UNC with EST, whose rising edge sets ESTNEW (R251). -/
def State.setUnc (s : State) (v : Nat) : State :=
  let u := min v 0xFFFFFFFF
  let e := decide ((s.reg 0x0310).toNat ≤ u)
  State.setFlagIf { s.setWide 0x030E 2 u with tb := { s.tb with est := e } } (e && !s.tb.est) 0x03 2

def State.unc (s : State) : Nat := s.wide 0x030E 2

/-- Δ of R249 and R250: an absence in fast-ticker periods to ticks. -/
def absenceTicks (absence ratio decl : Nat) : Nat := absence * ratio * 16000 / (1024 * decl)

/-- The advance of a resume: TSC, ABSLEN, UNC (R249 with 16 and 512; R250 with 32 and 32). -/
def State.advance (s : State) (absence ratio base div : Nat) : State :=
  let d := absenceTicks absence ratio s.clk.decl
  let s := s.setWide 0x0313 3 absence
  let s := { s with tb := { s.tb with tsc := (s.tb.tsc + d) % 2 ^ 48 } }
  s.setUnc (s.unc + base + d / div)

/-- The nominal RATIO of a declaration (R249). -/
def nominalRatio (decl : Nat) : Nat := (roundDiv (decl * 1024000 : Nat) 1048576).toNat

/-- The first declaration starts HCPOS and TSC (R247) and gives RATIO its nominal value if none was measured. -/
def State.firstDeclaration (s : State) (f : Nat) : State :=
  let s := { s with clk := { s.clk with decl := f }, tb := { s.tb with run := true, jumped := false } }
  let s := if s.tb.measured then s else s.setReg 0x0311 (w16 (nominalRatio f))
  s.writeAnchor

/-- A later declaration takes effect: RATIO is scaled, JUMPED clears, an anchor is written (R248, R250, R251). -/
def State.changeDeclaration (s : State) (f : Nat) : State :=
  let ratio := (roundDiv ((s.reg 0x0311).toNat * f : Nat) s.clk.decl).toNat
  let s := s.setReg 0x0311 (w16 (min ratio 65535))
  let s := { s with clk := { s.clk with decl := f, staged := none }, tb := { s.tb with jumped := false } }
  s.writeAnchor

/-- H − T modulo 2^48 as a 48-bit two's-complement value (R252). -/
def syncOffset (h t : Nat) : Int := signed 48 (h + 2 ^ 48 - t % 2 ^ 48)

/-- The TSC steps forward to H, or a slew by −o starts; a slew in progress ends first (R252). -/
def State.slewTo (s : State) (h : Nat) (o : Int) : State :=
  if 0 < o then State.setFlag { s with tb := { s.tb with tsc := h % 2 ^ 48, slewRem := 0 } } 0x03 1
  else if o < 0 then State.setFlag { s with tb := { s.tb with slewRem := (-o).toNat, held := 0 } } 0x03 0
  else { s with tb := { s.tb with slewRem := 0 } }

/-- UNC clears unless JUMPED is 1 (R252, R253). -/
def State.clearUnc (s : State) : State := if s.tb.jumped then s else s.setUnc 0

/-- TSYNC at its reference instant (R252). -/
def State.timeSync (s : State) (h : Nat) : State :=
  let o := syncOffset h s.tb.tsc
  let ofs := ((clampInt (-2147483648) 2147483647 o) % (2 ^ 32 : Nat)).toNat
  (((s.setWide 0x0316 2 ofs).slewTo h o).clearUnc).writeAnchor

/-- The time part of REBASE (R253, step 3): TSC is H, the slew ends, the anchor ring restarts. -/
def State.timeRebase (s : State) (h : Nat) : State :=
  (State.clearUnc { s with tb := { s.tb with
    tsc := h % 2 ^ 48, slewRem := 0, anchors := [], lost := false, floor := h % 2 ^ 48 } }).writeAnchor

/-- TIME.STAT (Table RQ-7). -/
def State.timeStat (s : State) : Nat :=
  b2n s.tb.est + 2 * b2n (decide (s.tb.slewRem ≠ 0)) + 4 * b2n (s.tb.run && s.hcDriven) + 8 * b2n s.tb.jumped

end Machine
end Sys2Proof
end

