-- ==== Sys2Proof/Machine/QueueOps.lean ====
section
/-! DEFINITION. The report queue (R236 to R246): entries, holders, the scan hold, freeing, and the reports that other
rules queue. -/

namespace Sys2Proof
namespace Machine

def State.epochNow (s : State) : Nat := (s.reg 0x000A).toNat

/-- Occupied entries: the queued reports, and the one whose frame is under way (R239, R242). -/
def Queue.used (q : Queue) : Nat := q.entries.length + b2n q.sending.isSome

/-- A report takes an entry with the next SEQ, an event of the timers, and the epoch of that hc (R236, R237, Table TG-3). A
report that already has a SEQ keeps it. -/
def State.takeEntry (s : State) (r : Report) : State :=
  match r.seq with
  | some _ => { s with rq := { s.rq with entries := s.rq.entries ++ [r] } }
  | none =>
    State.timerEvent { s with rq := { s.rq with
      entries := s.rq.entries ++ [{ r with seq := some s.rq.seqNext, epoch := s.epochNow }]
      seqNext := (s.rq.seqNext + 1) % 65536 } } 6

/-- A lifecycle report that finds 64 entries, or others waiting, waits with its SEQ; the first begins a scan hold
(R237, R241). -/
def State.waitEntry (s : State) (r : Report) : State :=
  let first := s.rq.waiting.isEmpty
  let s := State.timerEvent { s with rq := { s.rq with
    waiting := s.rq.waiting ++ [{ r with seq := some s.rq.seqNext, epoch := s.epochNow }]
    seqNext := (s.rq.seqNext + 1) % 65536 } } 6
  if first then (s.setFlag 0x26 0).addSat 0x260C 1 else s

/-- An absorption is counted and flagged (R240). -/
def State.countMerge (s : State) : State := (s.addSat 0x260B 1).setFlag 0x26 1

/-- An UP absorbs its contact's holder (R240). -/
def State.absorbHolder (s : State) (r : Report) : Report × State :=
  match s.rq.holders.find? (fun h => h.cid == r.cid) with
  | some h =>
    ({ r with merge := min 255 (h.merge + 1) },
     State.countMerge { s with rq := { s.rq with holders := s.rq.holders.filter (fun h => h.cid != r.cid) } })
  | none => (r, s)

/-- A lifecycle report falls due (R239, R241, R253). -/
def State.queueLife (s : State) (r : Report) : State :=
  let (r, s) := if r.up then s.absorbHolder r else (r, s)
  if s.rq.epochDue then { s with rq := { s.rq with gated := s.rq.gated ++ [r] } }
  else if s.rq.waiting.isEmpty && decide (s.rq.used < 64) then s.takeEntry r
  else s.waitEntry r

/-- A motion report absorbed into another takes over its body and timestamp (R240). -/
def Report.absorb (old new : Report) : Report :=
  { old with body := new.body, ts := new.ts, typ := new.typ, merge := min 255 (old.merge + 1) }

/-- Absorb a MOVE into the contact's pending MOVE, the latest if it has several (R240, log entry 30). -/
def absorbLast (r : Report) : List Report → List Report
  | [] => []
  | e :: t =>
    if t.any (fun x => x.cid == r.cid && !x.life) then e :: absorbLast r t
    else if e.cid == r.cid && !e.life then e.absorb r :: t else e :: absorbLast r t

/-- A MOVE falls due (R239, R240). Filling an empty holder is no absorption (log entry 30). -/
def State.queueMove (s : State) (r : Report) : State :=
  if s.rq.epochDue then { s with rq := { s.rq with gated := s.rq.gated ++ [r] } }
  else if s.rq.waiting.isEmpty && decide (s.rq.used < 48) then s.takeEntry r
  else if s.rq.entries.any (fun e => e.cid == r.cid && !e.life) then
    State.countMerge { s with rq := { s.rq with entries := absorbLast r s.rq.entries } }
  else if s.rq.holders.any (fun e => e.cid == r.cid) then
    State.countMerge { s with rq := { s.rq with
      holders := s.rq.holders.map (fun e => if e.cid == r.cid then e.absorb r else e) } }
  else { s with rq := { s.rq with holders := s.rq.holders ++ [{ r with merge := 0 }] } }

/-- Entries that are free go to waiting reports in order of falling due, then to holders while fewer than 48 are
occupied (R240, R241). `fuel` bounds the reports moved. -/
def State.refill (s : State) : Nat → State
  | 0 => s
  | fuel + 1 =>
    match s.rq.waiting with
    | r :: rest =>
      if s.rq.used < 64 then State.refill (State.takeEntry { s with rq := { s.rq with waiting := rest } } r) fuel else s
    | [] =>
      match s.rq.holders with
      | h :: rest =>
        if s.rq.used < 48 then State.refill (State.takeEntry { s with rq := { s.rq with holders := rest } } h) fuel else s
      | [] => s

/-- Reports that waited behind an EPOCH report take their entries in order of falling due (R253). -/
def State.openGate (s : State) : State :=
  let g := s.rq.gated
  g.foldl (fun s r => if r.life then s.queueLife r else s.queueMove r)
    { s with rq := { s.rq with gated := [], epochDue := false } }

/-- An event report: EPOCH, LANE or WAKE, with the timestamp counter of this hc (R238). -/
def State.eventReport (s : State) (typ : Nat) (body : List Word) : Report :=
  { typ := typ, merge := 0, seq := none, epoch := s.epochNow, ts := s.tb.tsc, body := body, life := true, cid := none,
    up := false }

/-- The EPOCH report of Table RQ-2, as it falls due on this hc. -/
def State.epochEvent (s : State) (cause : Nat) (isRebase : Bool) : Report :=
  s.eventReport 0x10 [w16 (cause + 32768 * b2n isRebase), w16 s.ms.mode.code]

/-- The EPOCH report of Table RQ-2 takes its entry as SEQ 0 of its epoch; then the gate opens (R237, R253). -/
def State.queueEpoch (s : State) (cause : Nat) (isRebase : Bool) : State :=
  let r := s.epochEvent cause isRebase
  let s :=
    if s.rq.waiting.isEmpty && decide (s.rq.used < 64) then s.takeEntry r else s.waitEntry r
  s.openGate

/-- The words of a report's frame: prefix and body (Table RQ-1). -/
def Report.payload (r : Report) : List Word :=
  [w16 (r.seq.getD 0), w16 r.epoch, wordAt r.ts 0, wordAt r.ts 1, wordAt r.ts 2] ++ r.body

def Report.h1 (r : Report) : Word := w16 (r.typ + 256 * r.merge)

/-- A report of this contact, or of any, in the queue, waiting or gated. -/
def State.reportsOut (s : State) : List Report := s.rq.sending.toList ++ s.rq.entries ++ s.rq.waiting ++ s.rq.gated

/-- An ID is held by an UP not yet sent (R226). -/
def State.idHeld (s : State) (id : Nat) : Bool := s.reportsOut.any (fun r => r.up && r.cid == some id)

/-- QUEUE.STAT (Table RQ-4). -/
def State.queueStat (s : State) : Nat :=
  s.rq.used + 128 * s.rq.holders.length + 4096 * b2n (!s.rq.waiting.isEmpty)
    + 8192 * b2n (!s.rq.entries.isEmpty && decide (s.rq.cout = 0)) + 16384 * b2n s.rq.replay.isSome

/-- A device frame starts or ends on this hc. -/
def State.turnDue (s : State) : Bool :=
  match s.link.turn with
  | none => false
  | some t => decide (t.next = s.now) || (!t.done && decide (t.next = s.now + 1))

/-- A frame entry or a send of this hc is still to come: a snapshot takes the values after it (R245). -/
def State.snapWaits (s : State) : Bool :=
  s.hcDriven && (s.turnDue || s.agenda.any (fun e => decide (e.1 ≤ s.now) && decide (e.2 = Instr.recordsReady)))

/-- The snapshot of R245. -/
def State.snapshot (s : State) : State :=
  let s := { s with rq := { s.rq with snapDue := false }, regs := (s.regs.set 0x2610 (w16 s.rq.cout)).set 0x2611 (w16 s.rq.seqNext) }
  let s := ((((((s.setWide 0x2612 2 s.rq.cgrant).setWide 0x2614 2 s.rq.rsent).setWide 0x2616 2 s.rq.fscan).setWide
    0x2618 2 s.rq.fcons).setWide 0x261A 2 s.rq.frep).setWide 0x261C 2 s.rq.fdisc)
  s.setReg 0x261E (s.reg 0x000A)

def inc32 (n : Nat) : Nat := (n + 1) % 2 ^ 32

/-- A frame is counted once, together with exactly one of FCONS, FREP and FDISC (R244). -/
inductive FrameFate where
  | consumed | replaced | discarded
  deriving DecidableEq, Repr

def State.countFrame (s : State) (f : FrameFate) : State :=
  let q := { s.rq with fscan := inc32 s.rq.fscan }
  { s with rq := match f with
      | .consumed => { q with fcons := inc32 q.fcons }
      | .replaced => { q with frep := inc32 q.frep }
      | .discarded => { q with fdisc := inc32 q.fdisc } }

/-- The LANE report of Table DG-2. -/
def State.laneReport (s : State) (lane kind drive cause : Nat) : Report :=
  s.eventReport 0x11 [w16 (lane + 32 * kind + 256 * drive),
    w16 (cause + 8 * s.nfail + 256 * b2n s.dg.serves.isSome + 512 * b2n s.lspFailed)]

end Machine
end Sys2Proof
end

