-- ==== Sys2Proof/Machine/PlanOps.lean ====
section
/-! DEFINITION. The tone plan: Table RK-2 and the order of R375, commits and GBIN (R132, R135), the Cloche's re-plan
(R204), listen writes and roaming (R205, R206). -/

namespace Sys2Proof
namespace Machine

def Tone.bin (t : Tone) : Nat := fld t.a 7 0
def Tone.en (t : Tone) : Bool := wbit t.a 15
def Tone.phase (t : Tone) : Nat := fld t.b 12 0

/-- The default plan (R137). -/
def defaultPlan : List Tone := tab 64 (fun n => { a := w16 (0x8049 + 2 * n), b := w16 (64 * n * n % 8192) })

/-- Listen entry i in force (R200, R205). -/
def State.listen (s : State) (i : Nat) : Word := s.reg (0x2420 + i)
def State.listenOn (s : State) (i : Nat) : Bool := wbit (s.listen i) 15
def State.listenBin (s : State) (i : Nat) : Nat := fld (s.listen i) 7 0

/-- The listen bins in force: those of the enabled entries (R200). -/
def State.listenBins (s : State) : List Nat :=
  ((List.range 16).filter (fun i => s.listenOn i)).map (fun i => s.listenBin i)

def nearAny (x : Nat) (ls : List Nat) : Bool := ls.any (fun l => decide (l ≤ x + 2) && decide (x ≤ l + 2))

/-- HARM2 or HARM3 for one value (Table RK-2). -/
def harmBad (k a : Nat) (bins listens : List Nat) : Bool :=
  bins.contains (k * a) || (decide (k * a ≤ 255) && nearAny (k * a) listens)

/-- RANGE, LISTEN, HARM2 and HARM3 of one value, DUP by its flag, in the order of R375. -/
def valueBad (a : Nat) (dup : Bool) (bins listens : List Nat) : Option Nat :=
  if a < 24 ∨ 200 < a then some 1
  else if dup then some 2
  else if nearAny a listens then some 3
  else if harmBad 2 a bins listens then some 4
  else if harmBad 3 a bins listens then some 5
  else none

def enabledBins (p : List Tone) : List Nat := (p.filter Tone.en).map Tone.bin

/-- The first failing entry from index i (R375, step 2). -/
def entriesBad (bins listens : List Nat) : Nat → List Tone → Option (Nat × Nat)
  | _, [] => none
  | i, t :: rest =>
    if t.en then
      match valueBad t.bin (decide (1 < bins.count t.bin)) bins listens with
      | some r => some (r, i)
      | none => entriesBad bins listens (i + 1) rest
    else entriesBad bins listens (i + 1) rest

/-- The first failure of a plan in the order of R375: reason, entry, guard. -/
def planBad (p : List Tone) (gbin : Nat) (listens : List Nat) : Option (Nat × Nat × Bool) :=
  let bins := enabledBins p
  if bins.isEmpty then some (6, 0, false)
  else match entriesBad bins listens 0 p with
    | some (r, i) => some (r, i, false)
    | none => match valueBad gbin false bins listens with
      | some r => some (r, 0, true)
      | none => none

/-- TONE.PLANERR takes a failure (Table RK-12). ENTRY is not meaningful for NONE or GUARD = 1: it takes a free value
there (log entry 3). -/
def State.setPlanErr (s : State) (r e : Nat) (g : Bool) : State :=
  if r = 6 ∨ g = true then
    State.draw (s.setReg 0x0509 (w16 (r + 8 * ((Config.freeWord s.free).toNat % 64) + 512 * b2n g)))
  else s.setReg 0x0509 (w16 (r + 8 * e))

/-- A plan change takes effect: PLANSEQ, PLANNEW, SOURCE (R132, R133, R135). -/
def State.planChanged (s : State) (cloche : Bool) : State :=
  let s := State.setFlag (s.setReg 0x0508 (s.reg 0x0508 + 1)) 0x05 0
  { s with tone := { s.tone with source := cloche } }

/-- The drives whose BIN differs between two tables (Table TR-1). -/
def movedDrives (p q : List Tone) : List Nat :=
  (List.range 64).filter (fun n => (p.getD n ⟨0, 0⟩).bin != (q.getD n ⟨0, 0⟩).bin)

/-- One bin as a listen bin against the active plan: 24 to 255, not within 2 of a tone or GBIN nor of a multiple of
theirs that R131 checks (R205, R206). -/
def listenOk (p : List Tone) (gbin b : Nat) : Bool :=
  decide (24 ≤ b) && decide (b ≤ 255) &&
    (gbin :: enabledBins p).all (fun a => !nearAny a [b] && !(decide (2 * a ≤ 255) && nearAny (2 * a) [b])
      && !(decide (3 * a ≤ 255) && nearAny (3 * a) [b]))

/-- The next bin above `b`, wrapping from 255 to 24, that a roaming entry may take (R206). -/
def roamFrom (ok : Nat → Bool) : Nat → Nat → Option Nat
  | 0, _ => none
  | fuel + 1, b =>
    let n := if 255 ≤ b ∨ b < 24 then 24 else b + 1
    if ok n then some n else roamFrom ok fuel n

/-- Step 1 of R205: the roaming entry whose turn it is moves (R206). -/
def State.roam (s : State) : State :=
  if !wbit (s.reg 0x2401) 1 then s else
  let i := 12 + s.ms.boundaries % 4
  if !s.listenOn i then s else
  let others := ((List.range 16).filter (fun j => j != i && s.listenOn j)).map s.listenBin
  let ok (b : Nat) : Bool := !others.contains b && b != s.listenBin i && listenOk s.tone.active s.tone.gbin b
  match roamFrom ok 232 (s.listenBin i) with
  | some b => s.setReg (0x2420 + i) (w16 (0x8000 + b))
  | none => s

/-- Step 2 of R205: host listen writes due at this hc are checked against the active plan, in arrival order. -/
def State.listenWrites (s : State) : State :=
  let due := s.cl.listenDue.filter (fun e => decide (e.1 ≤ s.now))
  let s := { s with cl := { s.cl with listenDue := s.cl.listenDue.filter (fun e => !decide (e.1 ≤ s.now)) } }
  due.foldl (fun s e =>
    let w := e.2.2
    if decide (24 ≤ fld w 7 0) && (!wbit w 15 || listenOk s.tone.active s.tone.gbin (fld w 7 0)) then s.setReg (0x2420 + e.2.1) w
    else s.setFlag 0x24 3) s

/-- The noise map value of a bin; 0xFFFF is unknown (R202). -/
def Cloche.m (c : Cloche) (b : Nat) : Nat := c.map.getD (b - 24) 0xFFFF

/-- The noisy enabled entries, by N_T descending, then by index (R204). -/
def State.noisyEntries (s : State) : List Nat :=
  let lvl := (s.reg 0x2408).toNat
  let l := (List.range 64).filter (fun n => (s.tone.active.getD n ⟨0, 0⟩).en && decide (lvl < s.cl.nT.getD n 0))
  l.mergeSort (fun a b => decide (s.cl.nT.getD b 0 < s.cl.nT.getD a 0) || (decide (s.cl.nT.getD a 0 = s.cl.nT.getD b 0) && decide (a ≤ b)))

def withBin (p : List Tone) (n b : Nat) : List Tone :=
  match p[n]? with
  | some t => p.set n { t with a := (t.a &&& 0xFF00) ||| w16 b }
  | none => p

/-- The cleanest bin an entry may move to (R204). -/
def State.bestBin (s : State) (p : List Tone) (n : Nat) : Option Nat :=
  let clean := (s.reg 0x2408).toNat / 2 ^ fld (s.reg 0x2409) 5 4
  let lst := s.listenBins
  let ok := ((List.range 177).map (24 + ·)).filter (fun b =>
    decide (s.cl.m b ≤ clean) && (planBad (withBin p n b) s.tone.gbin lst).isNone)
  ok.foldl (fun best b => match best with
    | none => some b
    | some x => if s.cl.m b < s.cl.m x then some b else some x) none

/-- The moves of R204 over the noisy entries: the plan, the number moved, and whether an entry found no room. -/
def State.replanMoves (s : State) : List Nat → List Tone → Nat → Bool → List Tone × Nat × Bool
  | [], p, moved, noroom => (p, moved, noroom)
  | n :: rest, p, moved, noroom =>
    if moved = max 1 (min 16 (s.reg 0x240A).toNat) then (p, moved, noroom)
    else match s.bestBin p n with
      | some b => State.replanMoves s rest (withBin p n b) (moved + 1) noroom
      | none => State.replanMoves s rest p moved true

/-- A due re-plan runs (R204). -/
def State.replan (s : State) : State :=
  let (p, moved, noroom) := s.replanMoves s.noisyEntries s.tone.active 0 false
  let s := s.setFlagIf noroom 0x24 2
  if moved = 0 then s
  else
    let s := { s with tone := { s.tone with active := p } }
    ((s.planChanged true).setFlag 0x24 1).addSat 0x2413 moved

/-- A due commit checks the pending table with the GBIN in force (R132, R375): the state, whether the plan changed,
whether it failed. -/
def State.commitPlan (s : State) : State × Bool × Bool :=
  if s.tone.cpend.any (fun t => decide (t + 256 ≤ s.now)) then
    let s := { s with tone := { s.tone with cpend := none } }
    match planBad s.tone.pend s.tone.gbin s.listenBins with
    | none => ({ s with tone := { s.tone with active := s.tone.pend } }, true, false)
    | some (r, e, g) => ((s.setPlanErr r e g).setFlag 0x05 1, false, true)
  else (s, false, false)

/-- The new GBIN against the table in force (R135); PLANERR keeps the failure of a commit at the same boundary. A rejected
GBIN stays in RAKE.GUARD as written and reads back, while `tone.gbin` keeps the GBIN in force (DESIGN CHOICE, log entry
63). -/
def State.commitGuard (s : State) (failed : Bool) : State × Bool :=
  let g := fld (s.reg 0x040A) 7 0
  if s.tone.gdirty && decide (g ≠ s.tone.gbin) then
    match valueBad g false (enabledBins s.tone.active) s.listenBins with
    | none => ({ s with tone := { s.tone with gbin := g } }, true)
    | some r => (State.setFlag (if failed then s else s.setPlanErr r 0 true) 0x05 1, false)
  else (s, false)

/-- Steps 3 and 4 of R205 with the guard rule of R135, at a frame boundary. A re-plan displaced by a commit falls due
again; one that finds HOP = 0 is dropped. -/
def State.planBoundary (s : State) : State :=
  let commitDue := s.tone.cpend.any (fun t => decide (t + 256 ≤ s.now))
  let c := s.commitPlan
  let g := c.1.commitGuard c.2.2
  let s := { g.1 with tone := { g.1.tone with gdirty := false } }
  let s := if c.2.1 || g.2 then s.planChanged false else s
  let rest := s.cl.replanAt.filter (fun t => !decide (t ≤ s.now))
  if !s.cl.replanAt.any (fun t => decide (t ≤ s.now)) then s
  else if !wbit (s.reg 0x2401) 0 then { s with cl := { s.cl with replanAt := rest } }
  else if commitDue then s
  else State.replan { s with cl := { s.cl with replanAt := rest } }

end Machine
end Sys2Proof
end

