-- ==== Sys2Proof/Machine/SignalOps.lean ====
section
/-! DEFINITION. From raw converter codes to records: slice correction (R159), the decimation filter (R178 to R182), the
channelizer (R184 to R186), the trace correction (R147), the slot peak and autoranging (R143 to R145), and the health
values of a slot (R299). -/

namespace Sys2Proof
namespace Machine

/-- The correction of one raw code; a rail passes as that rail (R159). -/
def correctCode (x ofs gcor : Int) : Int :=
  if x = 8191 ∨ x = -8192 then x else clampInt (-8192) 8191 (roundDiv ((16 * x - ofs) * gcor) 524288)

/-- The offset (1/16 LSB) and gain words of slice `sl` of a lane, as in force (R161). -/
def sliceOfs (r : Regs) (lane sl : Nat) : Int := signed 12 (r.get (laneAddr lane (0x18 + sl))).toNat
def sliceGain (r : Regs) (lane sl : Nat) : Int := (r.get (laneAddr lane (0x1C + sl))).toNat

/-- A lane's samples after correction; sample n is on slice n mod 4 (R157). -/
def laneSamples (r : Regs) (lane : Nat) (codes : List Int) : List Int :=
  let o := tab 4 (sliceOfs r lane)
  let g := tab 4 (sliceGain r lane)
  codes.zipIdx.map (fun (x, n) => correctCode x (o.getD (n % 4) 0) (g.getD (n % 4) 0))

def dot : List Int → List Int → Int
  | a :: as, b :: bs => a * b + dot as bs
  | _, _ => 0

def decimateFrom (taps : List Int) (post : Int → Int) : Nat → List Int → List Int
  | 0, _ => []
  | n + 1, xs => post (dot taps xs) :: decimateFrom taps post n (xs.drop 4)

/-- The N taps of a symmetric FIR from its stored half (R179). -/
def firTaps (q : List Int) (n : Nat) : List Int := tab n (fun i => q.getD (min i (n - 1 - i)) 0)

/-- K of the filter in use: N or L (R181). -/
def State.filterLen (s : State) : Nat :=
  if s.sv.modeUse = 0 then (s.reg (0x230A + s.sv.bankUse)).toNat else s.sv.lenUse

/-- The 512 decimated samples before limiting, from corrected samples (R178 to R181). -/
def State.decimate (s : State) (samples : List Int) : List Int :=
  let k := s.filterLen
  let xs := samples.drop 128
  let p := List.replicate (k - 388) (xs.headD 0) ++ xs.drop (388 - k)
  if s.sv.modeUse = 0 then decimateFrom (firTaps (s.sv.coef.getD s.sv.bankUse []) k) (fun v => roundDiv v 8192) 512 p
  else decimateFrom (List.replicate k 1) (fun v => roundDiv (16 * v) k) 512 p

def overDecim (v : Int) : Bool := decide (v < -524287) || decide (524287 < v)
def limitDecim (v : Int) : Int := clampInt (-524287) 524287 v

/-- e^(-i2π k/512) for k = 0 to 511, in units of 2^-trigBits. -/
def dftTable : Array Cx := ((List.range 512).map (fun k : Nat => cisTurn (-(Int.ofNat k)) 512)).toArray

def binSumFrom (t : Array Cx) (b : Nat) : Nat → List Int → Cx → Cx
  | _, [], acc => acc
  | j, d :: ds, acc => binSumFrom t b (j + 1) ds (acc.add ((t.getD (b * j % 512) Cx.zero).scale d))

/-- 256 × X_b of R185, in units of 2^-trigBits. -/
def binSum (t : Array Cx) (ds : List Int) (b : Nat) : Cx := binSumFrom t b 0 ds Cx.zero

/-- A record's value from a product scaled by 2^bits: rounded once and limited (R184, R186). -/
def finishRec (z : Cx) (bits : Nat) : Cx :=
  { re := clampInt (-8388607) 8388607 (roundDiv z.re (2 ^ bits)), im := clampInt (-8388607) 8388607 (roundDiv z.im (2 ^ bits)) }

def overRec (z : Cx) (bits : Nat) : Bool :=
  let f (x : Int) : Bool := decide (8388607 < (roundDiv x (2 ^ bits)).natAbs)
  f z.re || f z.im

/-- 1 + jωτ in units of 2^-trigBits, limited to magnitude 2 at its true phase (R147); whether it was limited. -/
def traceFactor (bin decl tau : Nat) : Cx × Bool :=
  let one : Int := 2 ^ trigBits
  let y : Int := (twoPi64 * bin * decl * tau / (8192 * 1000000) / 2 ^ (64 - trigBits) : Nat)
  if y * y ≤ 3 * one * one then ({ re := one, im := y }, false)
  else
    let m : Int := isqrt (one * one + y * y).toNat
    ({ re := 2 * one * one / m, im := 2 * one * y / m }, true)

/-- τ of sense electrode m, and of six joined electrodes: the mean rounded with ties up (R147). -/
def tauSense (r : Regs) (m : Nat) : Nat := (r.get (laneAddr (m % 16) (0x10 + m / 16))).toNat
def tauGang (r : Regs) (k : Nat) : Nat := (2 * sumNat (tab 6 (fun j => tauSense r (k + 16 * j))) + 6) / 12
def tauDrive (r : Regs) (n : Nat) : Nat := (r.get (0x0640 + n)).toNat

/-- RR of a lane for a range tag, in 1/4,096 (R285). -/
def ratioOf (r : Regs) (lane rng : Nat) : Nat :=
  if rng = 0 then 4096 else max 1 (r.get (laneAddr lane (0x23 + rng))).toNat

/-- The range E of electrode m in a register file (Table FE-5). -/
def erng (r : Regs) (m : Nat) : Nat := (r.get (laneAddr (m % 16) 0x09)).toNat / 4 ^ (m / 16) % 4

/-- The lane that senses for home lane k: itself, LSP while it serves it, none while k is interpolated (R303, R306). -/
def State.laneFor (s : State) (k : Nat) : Option Nat :=
  if s.dg.serves = some k then some 16 else if s.dg.interp.contains k then none else some k

/-- One electrode's (or ganged lane's) sensing in a slot: electrode, home lane, lane, ganged, range. -/
structure Sensed where
  elec : Nat
  home : Nat
  lane : Nat
  gang : Bool
  rng : Nat

/-- What a slot senses (R10, R141, R166). `f` are the settings in force, `visit` the ranges of this frame's visits. -/
def State.sensed (s : State) (kind : SlotKind) (scph : Nat) : List Sensed :=
  let f := s.force
  let fixr := (f.get 0x060A).toNat
  let gangs (rng : Nat) : List Sensed := (List.range 16).filterMap (fun k =>
    (s.laneFor k).map (fun l => { elec := k, home := k, lane := l, gang := true, rng := rng }))
  let single (j : Nat) (rng : Nat → Nat) : List Sensed := (List.range 16).filterMap (fun k =>
    (s.laneFor k).map (fun l => { elec := k + 16 * j, home := k, lane := l, gang := false, rng := rng (k + 16 * j) }))
  match kind with
  | .regular e =>
    if e < 6 then single e (fun m => s.scan.visitNow.getD m 2)
    else
      let rng := if e = 6 then fixr % 4 else fixr / 4 % 4
      if wbit (f.get 0x0601) 1 then gangs rng else single scph (fun _ => rng)
  | .injected _ => gangs (fixr / 4 % 4)
  | .cal _ => []

/-- The sample tag of a slot's records for one sensing, by the priority of R6: PRIMING (R181), SPARE, COEF_NEW (R182),
RANGED (R144, mutual visits only, log entry 21). The first visit after a reset has no previous visit: it is compared with
range 2, G4, the reset value of every ERNG, so that another range from the Shed tags it RANGED (DESIGN CHOICE, log entry
61). -/
def State.slotTag (s : State) (kind : SlotKind) (x : Sensed) : Tag :=
  let isMutual := match kind with | .regular e => decide (e < 6) | _ => false
  if s.sv.modeUse = 1 ∧ 388 < s.sv.lenUse then .priming
  else if x.lane = 16 then .spare
  else if s.scan.coefNew then .coefNew
  else if isMutual && decide (x.rng ≠ s.scan.visit.getD x.elec 2) then .ranged
  else .valid

/-- The plan of one record position: none reads 0; else its bin, the reference phase, and the trace factors. -/
structure RecPlan where
  bin : Nat
  phase : Option Nat
  taus : List Nat

/-- The record positions of a slot for one sensing (Table SV-1, R185, R147). -/
def State.recPlans (s : State) (kind : SlotKind) (x : Sensed) : List (Option RecPlan) :=
  let f := s.force
  let gdly := 2 * (s.filterLen - 1)
  let trc := wbit (f.get 0x0601) 0
  let ref (phi b : Nat) : Option Nat := some (((phi : Int) + b * (12 - gdly)) % 8192).toNat
  let tone (n : Nat) : Tone := s.tone.active.getD n ⟨0, 0⟩
  let listens : List (Option RecPlan) := tab 16 (fun i => some { bin := s.listenBin i, phase := none, taus := [] })
  match kind with
  | .regular e =>
    if e < 6 then
      tab 64 (fun n =>
        let t := tone n
        some { bin := t.bin, phase := ref (t.phase + 2048 * t.bin * (e + 1)) t.bin,
               taus := if trc then [tauSense f x.elec, tauDrive f n] else [] }) ++ listens
    else if e = 6 then
      let guard : Option RecPlan := if wbit (f.get 0x0401) 1 then
          some { bin := s.tone.gbin, phase := ref (2048 * s.tone.gbin) s.tone.gbin,
                 taus := if trc then [if x.gang then tauGang f x.elec else tauSense f x.elec] else [] }
        else none
      guard :: List.replicate 63 none ++ listens
    else tab 64 (fun n => some { bin := (tone n).bin, phase := none, taus := [] }) ++ listens
  | .injected i => tab 80 (fun q => some { bin := min (24 + 80 * i) 176 + q, phase := none, taus := [] })
  | .cal _ => []

/-- The product of one record before rounding, with its scale in bits, and whether a trace factor was limited. -/
def recProduct (t : Array Cx) (decl : Nat) (ds : List Int) (p : RecPlan) : Cx × Nat × Bool :=
  let z := binSum t ds p.bin
  let (z, bits) := match p.phase with
    | some ph => (z.mul (cisTurn (-(ph : Int)) 8192), 2 * trigBits + 8)
    | none => (z, trigBits + 8)
  p.taus.foldl (fun (z, bits, c) tau =>
    let (g, lim) := traceFactor p.bin decl tau
    (z.mul g, bits + trigBits, c || lim)) (z, bits, false)

/-- What one slot gives: the records, the health values, whether a value or a trace factor was limited, and for each
mutual visit the electrode, its home lane, its lane, its range, the slot peak and whether a sample clipped. -/
structure SlotOut where
  elecs : List ElecRecs
  health : List Health
  sat : Bool
  clamp : Bool
  visits : List (Nat × Nat × Nat × Nat × Nat × Bool)

/-- A lane's decimated samples in a slot, with the window's corrected samples and whether a value was limited. -/
def State.laneDecim (s : State) (d : SlotData) (lane : Nat) : List Int × List Int × Bool :=
  let xs := laneSamples s.force lane (d.codes.getD lane [])
  let raw := s.decimate xs
  (raw.map limitDecim, xs.drop 512, raw.any overDecim)

def peakOf (xs : List Int) : Nat := xs.foldl (fun m x => max m x.natAbs) 0
def clips (xs : List Int) : Bool := xs.any (fun x => decide (x = 8191) || decide (x = -8192))

/-- All window codes of a slot are one code (R300). -/
def oneCode (codes : List Int) : Bool :=
  match codes.drop 512 with
  | [] => false
  | c :: t => t.all (fun x => decide (x = c))

/-- The health checks a mutual slot makes (R299): the lane's ratio for the range in use. -/
def State.healthLanes (s : State) (entry : Nat) : List (Nat × Nat) :=
  ((List.range 17).filter (fun k => !s.dg.failed.contains k)).map (fun k =>
    let rng := if k = 16 then
        match s.dg.serves with
        | some h => s.scan.visitNow.getD (h + 16 * entry) 2
        | none => 3
      else s.scan.visitNow.getD (k + 16 * entry) 2
    (k, ratioOf s.force k rng))

/-- The health tone is present (R298). -/
def State.healthOn (s : State) : Bool := wbit (s.force.get 0x2A01) 0 && decide (fld s.dg.dctrl 1 0 = 0)

/-- The records, health values and visits of a completed slot. -/
def State.slotOut (s : State) (kind : SlotKind) (scph : Nat) (d : SlotData) : SlotOut :=
  let t := dftTable
  let lanes : Array (List Int × List Int × Bool) := ((List.range 17).map (s.laneDecim d)).toArray
  let lane (k : Nat) : List Int × List Int × Bool := lanes.getD k ([], [], false)
  let sensed := s.sensed kind scph
  let prods := sensed.map (fun x => (x, (s.recPlans kind x).map (fun p => p.map (recProduct t s.clk.decl (lane x.lane).1))))
  let elecs := prods.map (fun (x, ps) =>
    let tag := s.slotTag kind x
    ({ elec := x.elec, lane := x.lane, gang := x.gang, ratio := ratioOf s.force x.lane x.rng,
       recs := ps.map (fun p => match p with
         | some (z, b, _) => { v := finishRec z b, tag := tag, rng := x.rng }
         | none => { v := Cx.zero, tag := tag, rng := x.rng }) } : ElecRecs))
  let sat := (List.range 17).any (fun k => (lane k).2.2) || prods.any (fun (_, ps) => ps.any (fun p => match p with
      | some (z, b, _) => overRec z b | none => false))
  let clamp := prods.any (fun (_, ps) => ps.any (fun p => match p with | some (_, _, c) => c | none => false))
  let entry := match kind with | .regular e => e | _ => 8
  let health := if entry < 6 ∧ s.healthOn = true then
      (s.healthLanes entry).map (fun (k, ratio) =>
        let z := binSum t (lane k).1 239
        ({ lane := k, x := finishRec z (trigBits + 8), stuck := oneCode (d.codes.getD k []), ratio := ratio } : Health))
    else []
  let visits := if entry < 6 then
      sensed.map (fun x => (x.elec, x.home, x.lane, x.rng, peakOf (lane x.lane).2.1, clips (lane x.lane).2.1))
    else []
  { elecs := elecs, health := health, sat := sat, clamp := clamp, visits := visits }

/-- The next range and low count of R143. -/
def autorange (rng low peak : Nat) (clip : Bool) : Nat × Nat × Bool :=
  if clip then if rng = 0 then (0, low, false) else (rng - 2, 0, true)
  else if 6963 ≤ peak then if rng = 0 then (0, low, false) else (rng - 1, 0, true)
  else if peak ≤ 2457 then
    if 4 ≤ low + 1 ∧ rng < 3 then (rng + 1, 0, true) else (rng, low + 1, false)
  else (rng, 0, false)

/-- Set the ERNG field of an electrode (Table FE-5). -/
def State.setErng (s : State) (m r : Nat) : State :=
  let a := laneAddr (m % 16) 0x09
  let w := (s.reg a).toNat
  let sh := 4 ^ (m / 16)
  s.setReg a (w16 (w - w / sh % 4 * sh + r * sh))

/-- One mutual visit at the end of its window: PEAK, CLIP, the decision (R143, R145). Only a decision that makes a step
replaces a host ERNG write accepted earlier in the frame (DESIGN CHOICE, log entry 62). PEAK counts every
completed mutual visit, of a frame that is replaced later too (Table FE-6; DESIGN CHOICE, log entry 78). -/
def State.visitEnd (s : State) (v : Nat × Nat × Nat × Nat × Nat × Bool) : State :=
  let (m, home, lane, rng, peak, clip) := v
  let s := s.setReg (laneAddr home (0x0A + m / 16)) (w16 (min peak 16383))
  let s := s.setFlagIf clip (0x10 + lane) 1
  if wbit (s.force.get (laneAddr home 0x08)) 2 then
    let (r, low, step) := autorange rng (s.scan.low.getD m 0) peak clip
    let s := { s with scan := { s.scan with low := s.scan.low.set m low } }
    if step then (s.setErng m r).setFlag (0x10 + home) 0 else s
  else s

/-- Lk.GAIN.RANGE: the range a lane used in its last completed slot (Table FE-4). -/
def State.showRange (s : State) (lane rng : Nat) : State :=
  s.setReg (laneAddr lane 0x08) ((s.reg (laneAddr lane 0x08) &&& 4) ||| w16 rng)

/-- The ranges of a completed regular or injected slot: of every lane that sensed, and G8 of idle LSP (Table FE-4, R155). -/
def State.showRanges (s : State) (kind : SlotKind) (scph : Nat) : State :=
  let s := (s.sensed kind scph).foldl (fun s x => s.showRange x.lane x.rng) s
  if s.dg.serves.isNone then s.showRange 16 3 else s

/-- The range every lane uses in calibration slot `k` of self-calibration (Table CA-2); none in the settle slots and in those
of CALTRACE and OPENTEST, where the manual names no range: RANGE keeps its value there (DESIGN CHOICE, log entry 71). -/
def CalKind.range (a : CalKind) (k : Nat) : Option Nat :=
  match a with
  | .boot | .selfcal => if k < 4 then none else if k < 68 ∨ 104 ≤ k then some 0 else some ((k - 68 + 6) / 12)
  | .trace | .openw => none

end Machine
end Sys2Proof
end

