-- ==== Sys2Proof/Machine/FrameOps.lean ====
section
/-! DEFINITION. The records of a whole frame: interpolation across lanes and drives (R307, R309), the values the
resampler and the Trellis use (R193, R215, R291), and the peek words (R198). -/

namespace Sys2Proof
namespace Machine

/-- The codes of Table SC-4 and the priority of R6, lowest 0. -/
def Tag.code : Tag → Nat
  | .valid => 0 | .priming => 1 | .ranged => 2 | .blanked => 3 | .frozen => 4 | .spare => 5 | .interp => 6 | .coefNew => 7

def Tag.prio : Tag → Nat
  | .valid => 0 | .ranged => 1 | .coefNew => 2 | .spare => 3 | .interp => 4 | .priming => 5 | .blanked => 6 | .frozen => 7

def Tag.max (a b : Tag) : Tag := if a.prio < b.prio then b else a

/-- A record of a frame: its value before the division, the divisor in 1/4,096, its tag and range tag. -/
structure FRec where
  raw : CxQ
  div : Nat
  tag : Tag
  rng : Nat

/-- The record divided by its range ratio (R193, R215). -/
def FRec.val (f : FRec) : CxQ := f.raw.scale ((4096 : Rat) / f.div)

def FRec.ofRec (ratio : Nat) (r : Rec) : FRec := { raw := { re := r.v.re, im := r.v.im }, div := ratio, tag := r.tag, rng := r.rng }

def ElecRecs.frecs (e : ElecRecs) : List FRec := e.recs.map (FRec.ofRec e.ratio)

/-- A record with INTERP, unless a source's tag outranks it (R307). -/
def interpRec (v : CxQ) (ts : List Tag) : FRec :=
  { raw := v, div := 4096, tag := ts.foldl Tag.max .interp, rng := 0 }

/-- The interpolation of R307 at position m between positions a < m and b > m. -/
def interpBetween (m a b : Nat) (x y : FRec) : FRec :=
  interpRec (((x.val.scale ((b : Rat) - m)).add (y.val.scale ((m : Rat) - a))).scale (1 / ((b : Rat) - a))) [x.tag, y.tag]

/-- Nearest keys below and above m (lists in rising order). -/
def below (ks : List Nat) (m : Nat) : Option Nat := (ks.filter (· < m)).getLast?
def above (ks : List Nat) (m : Nat) : Option Nat := (ks.filter (m < ·)).head?

/-- The rows of the electrodes `keys` (rising): sensed, or interpolated from the nearest sensed ones (R307). With none sensed
there is no record to copy: the records read 0 with INTERP, or with the tag `own` of every record of the frame where it ranks
higher (R6; DESIGN CHOICE, log entry 73). -/
def interpRows (keys : List Nat) (els : List ElecRecs) (own : Tag) : List (Nat × List FRec) :=
  let have_ := keys.filter (fun m => els.any (fun e => e.elec == m))
  let row (m : Nat) : List FRec := match els.find? (fun e => e.elec == m) with
    | some e => e.frecs
    | none => []
  keys.map (fun m =>
    if have_.contains m then (m, row m)
    else match below have_ m, above have_ m with
      | some a, some b => (m, List.zipWith (interpBetween m a b) (row a) (row b))
      | some a, none => (m, (row a).map (fun f => interpRec f.val [f.tag]))
      | none, some b => (m, (row b).map (fun f => interpRec f.val [f.tag]))
      | none, none => (m, List.replicate 80 (interpRec CxQ.zero [own])))

/-- The drives of a row, with failed drives interpolated along the drive axis (R309). With all 64 declared failed no record is left
to copy: the value is 0 with INTERP, or with the record's own tag where it ranks higher (R6; DESIGN CHOICE, log entry 73). -/
def interpDrives (dflt : List Nat) (row : List FRec) : List FRec :=
  if dflt.isEmpty then row
  else
    let good := (List.range 64).filter (fun n => !dflt.contains n)
    let z := interpRec CxQ.zero []
    row.zipIdx.map (fun (f, n) =>
      if n < 64 ∧ dflt.contains n = true then
        match below good n, above good n with
        | some a, some b => interpBetween n a b (row.getD a z) (row.getD b z)
        | some a, none => let g := row.getD a z; interpRec g.val [g.tag]
        | none, some b => let g := row.getD b z; interpRec g.val [g.tag]
        | none, none => interpRec CxQ.zero [f.tag]
      else f)

/-- The slots of entry e the frame has taken. -/
def FrameCtx.slotRecs (c : FrameCtx) (e : Nat) : List ElecRecs :=
  match c.got.find? (fun r => decide (r.kind = SlotKind.regular e)) with
  | some r => r.elecs
  | none => []

def FrameCtx.gang (c : FrameCtx) : Bool := wbit (c.regs.get 0x0601) 1

/-- The tag every record of the frame has, sensed or not: PRIMING under a moving average above 388 (R181). -/
def FrameCtx.ownTag (c : FrameCtx) : Tag := if wbit (c.regs.get 0x2201) 0 ∧ 388 < (c.regs.get 0x2208).toNat then .priming else .valid

/-- The mutual slots' sensings. -/
def FrameCtx.mutualRecs (c : FrameCtx) : List ElecRecs := (List.range 6).flatMap c.slotRecs

/-- The mutual records of all 96 sense electrodes. -/
def FrameCtx.mutual (c : FrameCtx) : List (List FRec) :=
  (interpRows (List.range 96) c.mutualRecs c.ownTag).map (fun (_, r) => interpDrives c.dflt r)

/-- The sense electrodes that no lane sensed in the frame: their records are interpolated (R307). -/
def FrameCtx.unsensed (c : FrameCtx) : List Nat :=
  let els := c.mutualRecs
  (List.range 96).filter (fun m => !els.any (fun e => e.elec == m))

/-- The SC or LS records, by electrode or by lane under ganging (R141). -/
def FrameCtx.selfRows (c : FrameCtx) (e : Nat) : List (Nat × List FRec) :=
  let keys := if c.gang then List.range 16 else tab 16 (fun k => k + 16 * c.scph)
  interpRows keys (c.slotRecs e) c.ownTag

/-- SGAIN(m) and DGAIN(n) with APPLY (R291). -/
def FrameCtx.apply (c : FrameCtx) : Bool := wbit (c.regs.get 0x2C01) 0
def FrameCtx.sgain (c : FrameCtx) (m : Nat) : Nat := (c.regs.get (0x2C50 + m)).toNat
def FrameCtx.dgain (c : FrameCtx) (n : Nat) : Nat := (c.regs.get (0x2C10 + n)).toNat

/-- The coupling values of a frame: u of R193 and x of R215, with tags and range tags. `calu` = false leaves out the
CALU gains (R289). -/
def FrameCtx.cells (c : FrameCtx) (calu : Bool) : List (List Cell) :=
  c.mutual.zipIdx.map (fun (row, m) => (row.take 64).zipIdx.map (fun (f, n) =>
    let v := f.val
    let g : Rat := if calu && c.apply then (c.sgain m * c.dgain n : Nat) / ((2 ^ 28 : Nat) : Rat) else 1
    ({ u := v.scale g, tag := f.tag, rng := f.rng } : Cell)))

/-- The self values of a frame: for each sense electrode it covers, s of R215 and its tag. A ganged lane's value
belongs to each of its six electrodes (R209). -/
def FrameCtx.selfVals (c : FrameCtx) : List (Nat × CxQ × Tag) :=
  if !wbit (c.regs.get 0x0401) 1 then []
  else c.selfRows 6 |>.flatMap (fun (k, row) =>
    match row with
    | [] => []
    | f :: _ =>
      (if c.gang then tab 6 (fun j => k + 16 * j) else [k]).map (fun m =>
        let g : Rat := if c.apply then (c.sgain m : Nat) / ((2 ^ 14 : Nat) : Rat) else 1
        (m, f.val.scale g, f.tag)))

/-- The record PKSEL names, if the frame has it (R198). -/
def FrameCtx.peek (c : FrameCtx) (elec idx src : Nat) : Option FRec :=
  if src = 0 then (c.mutual.getD elec [])[idx]?
  else
    let k := if c.gang then elec % 16 else elec
    match (c.selfRows (5 + src)).find? (fun p => p.1 == k) with
    | some (_, row) => row[idx]?
    | none => none

/-- The water classification runs (R209, R210). -/
def State.waterOn (s : State) : Bool := wbit (s.reg 0x2401) 2 && wbit (s.force.get 0x0401) 1

/-- CLOCHE.WMAP: 0 while the classification does not run (R210). -/
def State.wmap (s : State) : Word := if s.waterOn then s.reg 0x2410 else 0

/-- The peek words load at a frame entry (R198); a record the frame does not hold loads nothing (log entry 22). -/
def State.peekLoad (s : State) (c : FrameCtx) : State :=
  let w := (s.reg 0x2218).toNat
  match c.peek (w % 128) (w / 128 % 128) (w / 16384) with
  | some f =>
    let word (q : Rat) : Nat := (roundRat q % (2 ^ 32 : Nat)).toNat
    State.setReg ((s.setWide 0x2219 2 (word f.raw.re)).setWide 0x221B 2 (word f.raw.im)) 0x221D (w16 (f.tag.code + 16 * f.rng))
  | none => s

end Machine
end Sys2Proof
end

