-- ==== Sys2Proof/Machine/ResampOps.lean ====
section
/-! DEFINITION. The resampler (R188 to R196): glass instants, targets, outputs, and the synchronizing reset. Instants
are in 1/32 hc on the scale of HCPOS. -/

namespace Sys2Proof
namespace Machine

def State.rmode (s : State) : Bool := wbit (s.force.get 0x2201) 2

/-- RPER in hc; a value below 40,960 is taken as 40,960 (Table SV-6, R374). -/
def State.rper (s : State) : Nat := s.wide 0x220A 2

/-- t_F of a frame in 1/32 hc, rounded to the nearest (R188). -/
def glassInstant (starts : List Nat) (gdly : Nat) : Int :=
  roundDiv (32 * sumNat starts : Nat) 6 + 32 * (6148 - gdly)

/-- The Lagrange weight h_φ[i] times 2^17 (R193). -/
def lagrange (phi i : Nat) : Int :=
  let ks := (List.range 8).filter (· ≠ i)
  let num : Int := ks.foldl (fun (p : Int) (k : Nat) => p * (192 + phi - 32 * k)) (2 ^ 17)
  let den : Int := ks.foldl (fun (p : Int) (k : Nat) => p * (32 * ((i : Int) - k))) 1
  if 0 < den then roundDiv num den.toNat else roundDiv (-num) (-den).toNat

/-- q of R192 from t, t_F(n), t_F(n+1), ties rounded up. -/
def phaseOf (t a b : Int) : Nat := ((64 * (t - a) + (b - a)) / (2 * (b - a))).toNat

/-- Frame `no` in the history. -/
def histFrame (h : List HistFrame) (no : Int) : Option HistFrame := h.find? (fun f => decide (f.no = no))

def emptyCell : Cell := { u := CxQ.zero, tag := .priming, rng := 0 }

/-- A cell of an output: the weighted sum of R193 over the frames, newest last; `draw` frames count for the tag, and
`rng` is the frame of the range tag. -/
def outCell (ws : List Int) (cs : List Cell) (draw : Nat) (rngCell : Cell) : Cell :=
  let sum := (ws.zip cs).foldl (fun (a : CxQ) (p : Int × Cell) => a.add (p.2.u.scale ((p.1 : Rat) / ((2 ^ 17 : Nat) : Rat)))) CxQ.zero
  let tag := (cs.take draw).foldl (fun t (c : Cell) => Tag.max t c.tag) .valid
  { u := sum, tag := tag, rng := rngCell.rng }

/-- Where the target rounds up to t_F(n+1), the frame n − 6 is not drawn (R195), but the windows of Table SV-2 still hold the target:
its COEF_NEW and RANGED tag the output too. The two rules differ there and the model follows the windows (DESIGN CHOICE, log entry
35). -/
def windowTag (f : Option HistFrame) (m i : Nat) (t : Tag) : Tag :=
  match f with
  | some f =>
    let x := ((f.cells.getD m []).getD i emptyCell).tag
    if x = .coefNew ∨ x = .ranged then Tag.max t x else t
  | none => t

/-- The output of a target in [t_F(n), t_F(n+1)) (R192, R193, R195, R196), with WMAP as it stands; none when an older frame is
needed. -/
def resolve (h : List HistFrame) (n : Int) (t : Int) (made : Nat) (ready : Nat) (wmap : Word) : Option Output :=
  match histFrame h n, histFrame h (n + 1) with
  | some a, some b =>
    let q := phaseOf t a.t32 b.t32
    let full := decide (q = 32)
    let base := if full then n + 1 else n
    let phi := if full then 0 else q
    let inputs := (List.range 8).map (fun i : Nat => histFrame h (base - 6 + i))
    let drawn := if full then 7 else 8
    if (inputs.take drawn).any Option.isNone then none
    else
      let fs := (inputs.take drawn).filterMap id
      let reset := decide (made < 7) || fs.any (·.copy)
      let edge := if full then histFrame h (n - 6) else none
      let ws := (List.range drawn).map (lagrange phi)
      let cells := b.cells.zipIdx.map (fun (row, m) => row.zipIdx.map (fun (c, i) =>
        let o := outCell ws (fs.map (fun f => (f.cells.getD m []).getD i emptyCell)) drawn c
        let tag := windowTag edge m i o.tag
        { o with tag := if reset then Tag.max tag .priming else tag }))
      let prim := reset || cells.any (fun row => row.any (fun c => decide (c.tag = .priming)))
      some { ready := ready, t32 := if full then b.t32 else a.t32 + roundDiv (phi * (b.t32 - a.t32)) 32, phi := phi, prim := prim,
             reset := reset, seen := false, wmap := wmap, cells := cells }
  | _, _ => none

/-- Does a target need a frame older than the listed ones (R191)? One at or after the newest frame does not. -/
def needsOlder (h : List HistFrame) (t : Int) : Bool :=
  match h.find? (fun f => decide (f.t32 ≤ t) && !f.copy) with
  | none => true
  | some a => match histFrame h (a.no + 1) with
    | none => false
    | some b => (histFrame h (if phaseOf t a.t32 b.t32 = 32 then a.no - 5 else a.no - 6)).isNone

/-- A target is discarded and counted (R191). -/
def State.dropTarget (s : State) (flag : Nat) : State := (s.setFlag 0x22 flag).addSat 0x220F 1

/-- A target enters, once t_F(0) is known (R191): before t_F(0) it vanishes; too soon after the last kept it sets VFAST; one
that needs a frame older than `h`, those left when it is resolved, sets LATE. Only a target that stays is kept. -/
def State.takeTarget (s : State) (h : List HistFrame) (t0 t : Int) : State :=
  if t < t0 then s
  else if s.sv.kept.any (fun k => decide (t < k + 32 * 40960)) then s.dropTarget 4
  else if needsOlder h t then s.dropTarget 3
  else { s with sv := { s.sv with targets := s.sv.targets ++ [t], kept := some t } }

/-- Targets that RPER continues from the last one, up to and including `upTo` (R189). -/
def State.freeRun (s : State) (h : List HistFrame) (upTo : Int) : Nat → State
  | 0 => s
  | fuel + 1 =>
    match s.sv.lastTarget, s.sv.first with
    | some l, some t0 =>
      let t := l + 32 * s.rper
      if t ≤ upTo then State.freeRun (State.takeTarget { s with sv := { s.sv with lastTarget := some t } } h t0 t) h upTo fuel else s
    | _, _ => s

def freeFuel (s : State) (upTo : Int) : Nat :=
  match s.sv.lastTarget with
  | some l => ((upTo - l) / (32 * 40960)).toNat + 1
  | none => 0

/-- Resolve the targets before t_F of the newest frame, oldest first (R191, R192, R195). -/
def State.resolveTargets (s : State) (newest : HistFrame) : List Int → State
  | [] => s
  | t :: ts =>
    if newest.t32 ≤ t then State.resolveTargets s newest ts
    else
      let s := { s with sv := { s.sv with targets := s.sv.targets.filter (fun x => decide (x ≠ t)) } }
      match s.sv.hist.find? (fun f => decide (f.t32 ≤ t) && !f.copy) with
      | some a =>
        match resolve s.sv.hist a.no t s.sv.made (s.now + 512) s.wmap with
        | some o => State.resolveTargets { s with sv := { s.sv with outs := s.sv.outs ++ [o], made := s.sv.made + 1 } } newest ts
        | none => State.resolveTargets (s.dropTarget 3) newest ts
      | none => State.resolveTargets (s.dropTarget 3) newest ts

/-- A frame enters the resampler (R187, R189, R194, R195); true where outputs became due. -/
def State.resamplerEnter (s : State) (starts : List Nat) (gdly : Nat) (cells : List (List Cell)) : State :=
  let no := s.sv.nextNo
  let f : HistFrame := { no := no, t32 := glassInstant starts gdly, copy := false, cells := cells }
  let hist := if no = 0 then f :: tab 15 (fun i => { f with no := -((i : Int) + 1), copy := true }) else (f :: s.sv.hist).take 16
  let s := { s with sv := { s.sv with hist := hist, nextNo := no + 1 } }
  let s :=
    if no = 0 then
      let early := s.sv.early
      let s := { s with sv := { s.sv with first := some f.t32, early := [] } }
      if s.rmode then early.foldl (fun s t => s.takeTarget hist f.t32 t) s
      else State.takeTarget { s with sv := { s.sv with lastTarget := some f.t32 } } hist f.t32 f.t32
    else s
  let s := if !s.rmode || (!s.sv.locked && s.sv.lastTarget.isSome) then s.freeRun hist (f.t32 - 1) (freeFuel s f.t32) else s
  let n : Nat := s.sv.outs.length
  let s : State := s.resolveTargets f s.sv.targets
  if decide (n < s.sv.outs.length) then s.after 512 .outputReady else s

/-- The synchronizing reset of R194 at a frame boundary. An output computed before it and ready after it leaves RPRIME set: it is
none of those the reset tags (Table SV-4). -/
def State.syncReset (s : State) : State :=
  let s := s.unschedule (fun i => decide (i = Instr.vlost))
  State.setFlag { s with
    sv := { s.sv with hist := [], nextNo := 0, targets := [], early := [], first := none, lastTarget := none, kept := none, made := 0,
                      locked := false, rsync := false, waitReset := false, rprime := true
                      outs := s.sv.outs.map (fun o => if o.seen then o else { o with reset := true }) }
    scan := { s.scan with frames := s.scan.frames.map (fun c => { c with keep := false }) } } 0x22 5

/-- The hc until VLOST is due, from the instant of the last target (R189). -/
def State.vlostIn (s : State) (t32 : Int) : Nat := (roundDiv (t32 + 32 * 4 * s.rper - 32 * s.tb.hcpos) 32).toNat

/-- An effective VSYNC edge whose ball change was at hcpos v (R189, R191). Its target is resolved at the next entry, which
leaves 15 of the frames held now. -/
def State.vsyncTarget (s : State) (v : Nat) : State :=
  if !s.rmode then s
  else
    let left := s.sv.hist.take 15
    let nowT : Int := 32 * s.tb.hcpos
    let s := if !s.sv.locked && s.sv.lastTarget.isSome then s.freeRun left nowT (freeFuel s nowT) else s
    let s := if s.sv.locked then s else State.setFlag { s with sv := { s.sv with locked := true } } 0x22 1
    let t : Int := 32 * ((v : Int) - 16 * (s.reg 0x220C).toNat)
    let s := { s with sv := { s.sv with lastTarget := some t } }
    let s := match s.sv.first with
      | some t0 => s.takeTarget left t0 t
      | none => { s with sv := { s.sv with early := s.sv.early ++ [t] } }
    (s.unschedule (fun i => decide (i = Instr.vlost))).after (s.vlostIn t) .vlost

/-- An output counts in RCNT and shows in RLAST (R195, R197); the first one not tagged PRIMING after a reset clears RPRIME
(Table SV-4). -/
def State.outputCount (s : State) (o : Output) : State :=
  State.setReg { s with sv := { s.sv with rcnt := inc32 s.sv.rcnt, rprime := s.sv.rprime && o.reset } } 0x220E (w16 (o.phi + 32 * b2n o.prim))

/-- VLOST falls due (R189). -/
def State.vsyncLost (s : State) : State :=
  if s.rmode && s.sv.locked then State.setFlag { s with sv := { s.sv with locked := false } } 0x22 2 else s

end Machine
end Sys2Proof
end

