-- ==== Sys2Proof/Machine/ShedOps.lean ====
section
/-! DEFINITION. The Shed (R318 to R331): its bytes, headers and records, the stored image, bank selection, page
programs, saves and FORGET. -/

namespace Sys2Proof
namespace Machine

/-- A stored byte; an address nothing lists is erased and reads 0xFF (log entry 5). -/
def memGet (m : List Host.Cell) (a : Nat) : Byte :=
  match m with
  | [] => 0xFF
  | (b, v) :: t => if b = a then v else memGet t a

def memPut (m : List Host.Cell) (a : Nat) (v : Byte) : List Host.Cell :=
  match m with
  | [] => [(a, v)]
  | (b, w) :: t => if a < b then (a, v) :: (b, w) :: t else if a = b then (a, v) :: t else (b, w) :: memPut t a v

def memDrop (m : List Host.Cell) (a : Nat) : List Host.Cell :=
  match m with
  | [] => []
  | (b, w) :: t => if b = a then memDrop t a else (b, w) :: memDrop t a

/-- Write one byte, keeping the canonical form: an erased byte has no entry. -/
def memSet (m : List Host.Cell) (a : Nat) (v : Byte) : List Host.Cell := if v = 0xFF then memDrop m a else memPut m a v

def memSetAll (m : List Host.Cell) (a : Nat) : List Byte → List Host.Cell
  | [] => m
  | v :: vs => memSetAll (memSet m a v) (a + 1) vs

/-- The canonical form: addresses rise strictly from above `lo`, and no entry holds the erased value. -/
def memWfFrom : Option Nat → List Host.Cell → Bool
  | _, [] => true
  | lo, (a, v) :: t => (match lo with | none => true | some l => decide (l < a)) && decide (v ≠ 0xFF) && memWfFrom (some a) t

def Memory.wf (m : List Host.Cell) : Bool := memWfFrom none m

/-- A byte of the Shed; the bytes of a damaged page are free values (R328, log entry 3). -/
def Shed.byteAt (h : Shed) (a : Nat) : Byte :=
  match getKey (a / 256) h.torn with
  | some d => Config.tornByte d (a % 256)
  | none => memGet h.mem a

def Shed.bytesAt (h : Shed) (a n : Nat) : List Byte := (List.range n).map (fun i => h.byteAt (a + i))

/-- A field stored lowest byte first (R318). -/
def leNat : List Byte → Nat
  | [] => 0
  | b :: bs => b.toNat + 256 * leNat bs

def leBytes (n : Nat) : Nat → List Byte
  | 0 => []
  | k + 1 => BitVec.ofNat 8 n :: leBytes (n / 256) k

def Shed.field (h : Shed) (a n : Nat) : Nat := leNat (h.bytesAt a n)

def bankBase (bank : Nat) : Nat := 8192 * bank

/-- Is a page undamaged? -/
def Shed.intact (h : Shed) (page : Nat) : Bool := (getKey page h.torn).isNone

/-- A header with MAGIC and FORMAT, valid or void (Table SH-2). -/
def Shed.hasHeader (h : Shed) (x : Nat) : Bool :=
  h.intact (32 * x) && decide (h.field (bankBase x) 2 = 0x5D17) && decide (h.field (bankBase x + 2) 2 = 1)

def Shed.seqOf (h : Shed) (x : Nat) : Nat := h.field (bankBase x + 6) 2
def Shed.npage (h : Shed) (x : Nat) : Nat := h.field (bankBase x + 8) 2
def Shed.nbyte (h : Shed) (x : Nat) : Nat := h.field (bankBase x + 10) 2
def Shed.crcOf (h : Shed) (x : Nat) : Nat := h.field (bankBase x + 28) 4

/-- WEAR of a bank: 0 where no header was ever programmed (R331). -/
def Shed.wearOf (h : Shed) (x : Nat) : Nat :=
  if h.hasHeader x || !h.intact (32 * x) then h.field (bankBase x + 12) 4 else 0

def Shed.payload (h : Shed) (x : Nat) : List Byte := h.bytesAt (bankBase x + 256) (h.nbyte x)

/-- ok[x] of R323; a damaged page of the bank fails its CRC (R328). -/
def Shed.bankOk (h : Shed) (x : Nat) : Bool :=
  h.hasHeader x && decide (h.field (bankBase x + 4) 2 = 0xA5A5) && decide (1 ≤ h.npage x) && decide (h.npage x ≤ 29)
    && (List.range (h.npage x)).all (fun p => h.intact (32 * x + 1 + p))
    && decide (h.crcOf x = (crc32 (h.bytesAt (bankBase x) 28 ++ h.payload x)).toNat)

/-- newer(a, b) of R323. -/
def seqNewer (a b : Nat) : Bool :=
  let d := (a + 65536 - b % 65536) % 65536
  decide (1 ≤ d) && decide (d ≤ 0x7FFF)

/-- A bank's valid epoch record: EPOCH and CNT (R322). -/
def Shed.epochRec (h : Shed) (x : Nat) : Option (Nat × Nat) :=
  let b := bankBase x + 31 * 256
  if h.intact (32 * x + 31) && decide (h.field (b + 2) 2 = 1) && decide (h.field (b + 8) 4 = (crc32 (h.bytesAt b 8)).toNat)
  then some (h.field b 2, h.field (b + 4) 4) else none

/-- The epoch record in force: the larger CNT, A on a tie (R323), with its bank. -/
def Shed.epochBest (h : Shed) : Option (Nat × Nat × Nat) :=
  match h.epochRec 0, h.epochRec 1 with
  | some (e0, c0), some (e1, c1) => if c0 < c1 then some (1, e1, c1) else some (0, e0, c0)
  | some (e, c), none => some (0, e, c)
  | none, some (e, c) => some (1, e, c)
  | none, none => none

/-- The 256 bytes of a header page (Tables SH-1 and SH-2). -/
def headerBytes (state seq npage nbyte wear crc : Nat) : List Byte :=
  leBytes 0x5D17 2 ++ leBytes 1 2 ++ leBytes state 2 ++ leBytes seq 2 ++ leBytes npage 2 ++ leBytes nbyte 2 ++ leBytes wear 4
    ++ List.replicate 12 0 ++ leBytes crc 4 ++ List.replicate 224 0

def padPage (bs : List Byte) : List Byte := bs.take 256 ++ List.replicate (256 - bs.length) 0

/-- The 256 bytes of an epoch page (R322). -/
def epochBytes (epoch cnt : Nat) : List Byte :=
  let b := leBytes epoch 2 ++ leBytes 1 2 ++ leBytes cnt 4
  padPage (b ++ leBytes (crc32 b).toNat 4)

/-- The addresses of the class N registers of an image, rising (R325). -/
def imageAddrs : List Nat :=
  classNAddrs.filter (· < 0x0500) ++ (List.range 128).map (0x0510 + ·) ++ classNAddrs.filter (0x0500 ≤ ·)

/-- The tone-table word at an address, of one table (R139). -/
def toneWord (p : List Tone) (a : Nat) : Word :=
  if a < 0x0550 then (p.getD (a - 0x0510) ⟨0, 0⟩).a else (p.getD (a - 0x0550) ⟨0, 0⟩).b

/-- Write a tone-table word: reserved bits are kept 0 (Tables RK-13, RK-14). -/
def setToneWord (p : List Tone) (a : Nat) (w : Word) : List Tone :=
  if a < 0x0550 then p.set (a - 0x0510) { p.getD (a - 0x0510) ⟨0, 0⟩ with a := w &&& 0x83FF }
  else p.set (a - 0x0550) { p.getD (a - 0x0550) ⟨0, 0⟩ with b := w &&& 0x1FFF }

/-- What a save captures at an address (R325): the active tone table and GBIN in force, else the register. -/
def State.imageWord (s : State) (a : Nat) : Word :=
  if 0x0510 ≤ a ∧ a < 0x0590 then toneWord s.tone.active a
  else if a = 0x040A then (s.reg a &&& 0x0300) ||| w16 s.tone.gbin
  else s.reg a

/-- Maximal runs of consecutive addresses: start and length. -/
def runsOf : List Nat → List (Nat × Nat)
  | [] => []
  | a :: t =>
    match runsOf t with
    | (b, n) :: r => if b = a + 1 then (a, n + 1) :: r else (a, 1) :: (b, n) :: r
    | [] => [(a, 1)]

/-- A coefficient's low half and high half, 18-bit two's complement (R199). -/
def coefLow (c : Int) : Word := wordOfInt c
def coefHigh (c : Int) : Word := w16 ((c % 2 ^ 18).toNat / 65536)

/-- The image of R325 in the form of Table SH-3. -/
def State.imageWords (s : State) : List Word :=
  (runsOf imageAddrs).flatMap (fun (a, n) => w16 n :: w16 a :: (List.range n).map (fun i => s.imageWord (a + i)))
    ++ (List.range 2).flatMap (fun b => w16 (0x1000 + 385) :: w16 b :: s.reg (0x230A + b) ::
        (s.sv.coef.getD b []).flatMap (fun c => [coefLow c, coefHigh c]))
    ++ w16 (0x2000 + 101) :: 0 :: s.tr.ucurve ++ [0xF000, 0]

/-- The index of SVCOEF.PTR after a high half (R199). -/
def coefNext (p : Word) : Word := (p &&& 0x100) ||| w16 (if fld p 7 0 < 191 then fld p 7 0 + 1 else 0)

/-- UCPTR after an access to UCDATA (R223): an index of 100 or more wraps to 0. -/
def curveNext (p : Word) : Word := w16 (if fld p 6 0 < 100 then fld p 6 0 + 1 else 0)

/-- A bank whose coefficients and tap count are protected (R183). -/
def State.bankProtected (s : State) (b : Nat) : Bool :=
  (decide (s.sv.modeUse = 0) && decide (b = s.sv.bankUse)) || (!wbit (s.reg 0x2201) 0 && decide (b = b2n (wbit (s.reg 0x2201) 1)))

/-- A coefficient is written on the high-half write of its pair (R183, R199). -/
def State.coefStore (s : State) (lo hi : Word) : State :=
  let p := s.reg 0x2308
  let i := fld p 7 0
  let b := fld p 8 8
  if 192 ≤ i then s
  else if s.bankProtected b then s.setFlag 0x23 0
  else { s with sv := { s.sv with coef := s.sv.coef.set b ((s.sv.coef.getD b []).set i (signed 18 (lo.toNat + 65536 * (hi.toNat % 4)))) } }

/-- A write to SVCOEF.DATA (R199). -/
def State.coefWrite (s : State) (v : Word) : State :=
  match s.sv.half with
  | none => { s with sv := { s.sv with half := some (true, v) } }
  | some (false, _) => State.setFlag { s with sv := { s.sv with half := none } } 0x23 1
  | some (true, lo) =>
    State.setReg (State.coefStore { s with sv := { s.sv with half := none } } lo v) 0x2308 (coefNext (s.reg 0x2308))

/-- A write to UCDATA (R234): an index above 100 is ignored. -/
def State.curveWrite (s : State) (v : Word) : State :=
  State.setReg { s with tr := { s.tr with ucurve := s.tr.ucurve.set (fld (s.reg 0x2518) 6 0) v } } 0x2518 (curveNext (s.reg 0x2518))

/-- Words of an image that are skipped (R321). -/
def State.skipWords (s : State) (n : Nat) : State :=
  if n = 0 then s else State.addSat { s with sh := { s.sh with skip := true } } 0x2B0B n

/-- One word of a TYPE 0 run, or its skip (R321). ERNG is read-only while its lane's AUTO is 1 (Table FE-5). -/
def State.loadWord (s : State) (a : Nat) (w : Word) : State :=
  if a = 0x2309 then s.coefWrite w
  else if a = 0x2519 then s.curveWrite w
  else if !mappedPage (pageOf a) || !classN a || (pageOf a == 0x20 && lspAbsent (offOf a)) then s.skipWords 1
  else if rowAddr a = 0x1009 ∧ wbit (s.reg (a - 1)) 2 = true then s
  else if 0x0510 ≤ a ∧ a < 0x0590 then
    { s with tone := { s.tone with active := setToneWord s.tone.active a w, pend := setToneWord s.tone.pend a w } }
  else match regRow a with
    | some r =>
      let old := s.reg a
      s.setReg a (takenWord a old ((w &&& w16 r.rw) ||| (old &&& ~~~ (w16 r.rw))))
    | none => s

def State.loadWords (s : State) (a : Nat) : List Word → State
  | [] => s
  | w :: ws => State.loadWords (s.loadWord a w) (a + 1) ws

/-- Coefficients from their low and high halves (R199). -/
def coefsOf : List Word → List Int
  | lo :: hi :: t => signed 18 (lo.toNat + 65536 * (hi.toNat % 4)) :: coefsOf t
  | _ => []

/-- One run of an image (R320, R321). A FIR run of another bank is skipped like TYPE 0x3 to 0xE: its words count. -/
def State.loadRun (s : State) (typ addr : Nat) (data : List Word) : State :=
  if typ = 0 then s.loadWords addr data
  else if typ = 1 ∧ addr < 2 then
    match data with
    | n :: cs =>
      let q := (coefsOf cs).take 192
      let s := s.setReg (0x230A + addr) (takenWord (0x230A + addr) 1 (n &&& 0x1FF))
      { s with sv := { s.sv with coef := s.sv.coef.set addr (q ++ (s.sv.coef.getD addr []).drop q.length) } }
    | [] => s
  else if typ = 2 then
    { s with tr := { s.tr with ucurve := (data.take 101) ++ List.replicate (101 - data.length) 0 } }
  else s.skipWords data.length

def State.loadImage (s : State) : Nat → List Word → State
  | 0, _ => s
  | fuel + 1, ws =>
    match ws with
    | h :: a :: t =>
      if fld h 15 12 = 15 then s
      else State.loadImage (s.loadRun (fld h 15 12) a.toNat (t.take (fld h 11 0))) fuel (t.drop (fld h 11 0))
    | _ => s

/-- Words of bytes, low byte first. -/
def wordsOf : List Byte → List Word
  | a :: b :: t => w16 (a.toNat + 256 * b.toNat) :: wordsOf t
  | _ => []

/-- Does the bank in force hold a user curve table (R223)? -/
def Shed.holdsCurve (h : Shed) : Bool :=
  match h.inForce with
  | none => false
  | some x =>
    let rec go : Nat → List Word → Bool
      | 0, _ => false
      | f + 1, hd :: _ :: t => decide (fld hd 15 12 = 2) || (decide (fld hd 15 12 ≠ 15) && go f (t.drop (fld hd 11 0)))
      | _ + 1, _ => false
    go 4096 (wordsOf (h.payload x))

/-- STAT.BUSY (R327): a command or a REBASE epoch program; the step-2 program does not set it. -/
def Shed.busy (h : Shed) : Bool :=
  h.jobs.any (fun j => decide (j.kind ≠ JobKind.boot)) || h.readback

/-- SHED.STAT (Table SH-5). -/
def Shed.stat (h : Shed) : Nat :=
  b2n h.busy + 2 * b2n (decide (h.inForce = some 1)) + 4 * b2n h.noBank + 8 * b2n h.aok + 16 * b2n h.bok + 32 * b2n h.epok
    + 64 * b2n h.skip

/-- SHED.PROG: the page being programmed and its bank; 0 while none is (R331). -/
def Shed.prog (h : Shed) : Nat :=
  match h.jobs with
  | j :: _ => j.page + 32 * j.bank
  | [] => 0

/-- The Shed's durations are timed in hc under R42 unless no declaration is in force or HCLK does not drive the part. -/
def State.shedByHc (s : State) : Bool := s.hcDriven && decide (s.clk.decl ≠ 0)

/-- A program or read-back that the ticker times goes on in hc when a declaration takes effect (R42). The manual bounds
what remains of it, so its length is a free value up to that bound (log entry 3). -/
def State.shedToHc (s : State) : State :=
  let left (us : Nat) : Nat := min (s.hcOf us) (Config.freeWord s.free).toNat
  if !s.sh.jobs.isEmpty && s.sh.jobAt.isNone then
    State.draw (State.after { s with sh := { s.sh with jobAt := some (s.now + left 1300) } } (left 1300) .shedPageProgramDone)
  else if s.sh.readback && !s.agenda.any (fun e => decide (e.2 = Instr.shedSaveReadbackDone)) then
    State.draw (s.after (left 80) .shedSaveReadbackDone)
  else s

/-- The page program in front starts: an epoch record takes its bytes now (R324), and its end is scheduled (R325). -/
def State.shedStart (s : State) : State :=
  match s.sh.jobs with
  | [] => { s with sh := { s.sh with jobAt := none } }
  | j :: rest =>
    let j := if j.bytes.isEmpty then
        match s.sh.epochBest with
        | some (x, _, c) => { j with bank := 1 - x, bytes := epochBytes s.epochNow (c + 1) }
        | none => { j with bank := 0, bytes := epochBytes s.epochNow 1 }
      else j
    if s.shedByHc then
      State.after { s with sh := { s.sh with jobs := j :: rest, jobAt := some (s.now + s.hcOf 1200) } } (s.hcOf 1200)
        .shedPageProgramDone
    else { s with sh := { s.sh with jobs := j :: rest, jobAt := none } }

/-- Add page programs; the first starts at once if none is in progress. -/
def State.shedAdd (s : State) (js : List Job) : State :=
  let idle := s.sh.jobs.isEmpty
  let s := { s with sh := { s.sh with jobs := s.sh.jobs ++ js } }
  if idle then s.shedStart else s

/-- A REBASE epoch program, due at this frame boundary: before the next page of a save (R324). -/
def State.shedEpoch (s : State) : State :=
  let j : Job := { kind := .epoch, bank := 0, page := 31, bytes := [] }
  match s.sh.jobs with
  | [] => s.shedAdd [j]
  | h :: rest => { s with sh := { s.sh with jobs := h :: j :: rest } }

/-- WEAR of a bank as shown (R331). -/
def wearAddr (x : Nat) : Nat := 0x2B0C + 2 * x

/-- SAVE (R325, steps 1 to 3). -/
def State.shedSave (s : State) : State :=
  let words := s.imageWords
  let payload := bytesOf words
  let npage := ceilDiv payload.length 256
  let x := match s.sh.inForce with
    | some b => 1 - b
    | none => if s.sh.wearOf 1 < s.sh.wearOf 0 then 1 else 0
  let seq := match s.sh.hasHeader 0, s.sh.hasHeader 1 with
    | true, true => (if seqNewer (s.sh.seqOf 1) (s.sh.seqOf 0) then s.sh.seqOf 1 + 1 else s.sh.seqOf 0 + 1) % 65536
    | true, false => (s.sh.seqOf 0 + 1) % 65536
    | false, true => (s.sh.seqOf 1 + 1) % 65536
    | false, false => 0
  let wear := (s.sh.wearOf x + 1) % 2 ^ 32
  let h0 := headerBytes 0xA5A5 seq npage payload.length wear 0
  let hdr := headerBytes 0xA5A5 seq npage payload.length wear (crc32 (h0.take 28 ++ payload)).toNat
  let pages := (List.range npage).map (fun p =>
    ({ kind := .payload, bank := x, page := p + 1, bytes := padPage (payload.drop (256 * p)) } : Job))
  State.shedAdd { s with sh := { s.sh with saving := some x } } (pages ++ [{ kind := .header, bank := x, page := 0, bytes := hdr }])

/-- Is the user table valid (R223)? -/
def ucValid (t : List Word) : Bool :=
  let rising (pts : List Word) : Bool :=
    (List.range 32).all (fun k => decide (signed 16 (pts.getD k 0).toNat ≤ signed 16 (pts.getD (k + 1) 0).toNat)) && decide (pts.getD 16 0 = 0)
  decide (t.getD 0 0 = 0x0C01) && rising (t.drop 1) && rising (t.drop 51)

/-- An axis is on curve 15 while the user table is invalid or not held in the Shed (R223). -/
def State.curveBad (s : State) : Bool :=
  let cv := s.force.get 0x2515
  (decide (fld cv 3 0 = 15) || decide (fld cv 7 4 = 15)) && !(ucValid s.tr.curve && s.sh.holdsCurve)

/-- FORGET completes (R326, R337); a curve 15 that loses its table falls back to 0, with CFGBAD (R223). -/
def State.forgetDone (s : State) : State :=
  let was := s.curveBad
  let s := { s with sh := { s.sh with forgetting := false, inForce := none, noBank := true } }
  ((s.setWide 0x2E15 2 0).setFlag 0x2B 0).setFlagIf (!was && s.curveBad) 0x25 3

/-- The header page of a bank with STATE void, its SEQ and WEAR + 1, and the CRC of Table SH-2 over them (R326). -/
def Shed.voidHeader (h : Shed) (x : Nat) : List Byte :=
  let make (crc : Nat) : List Byte := headerBytes 0 (h.seqOf x) (h.npage x) (h.nbyte x) ((h.wearOf x + 1) % 2 ^ 32) crc
  make (crc32 ((make 0).take 28 ++ h.payload x)).toNat

/-- FORGET (R326). With no valid bank it completes at once (log entry 20). -/
def State.shedForget (s : State) : State :=
  let order := match s.sh.inForce with | some b => [b, 1 - b] | none => [0, 1]
  let valid := order.filter s.sh.bankOk
  if valid.isEmpty then s.forgetDone
  else State.shedAdd { s with sh := { s.sh with forgetting := true } }
    (valid.map (fun x => ({ kind := .void, bank := x, page := 0, bytes := s.sh.voidHeader x } : Job)))

/-- Write a completed page (R318). -/
def Shed.program (h : Shed) (j : Job) : Shed :=
  { h with mem := memSetAll h.mem (bankBase j.bank + 256 * j.page) j.bytes
           torn := h.torn.filter (fun p => p.1 != 32 * j.bank + j.page) }

/-- The read-back of a save begins (R325, step 4): 2,048 hc. -/
def State.shedReadback (s : State) : State :=
  let s := { s with sh := { s.sh with readback := true } }
  if s.shedByHc then s.after 2048 .shedSaveReadbackDone else s

/-- The page program in front ends: its bytes are stored, counters follow, and the activity goes on. The next page does
not start here. -/
def State.shedPageEnd (s : State) (j : Job) (rest : List Job) : State :=
  let s := { s with sh := { s.sh.program j with jobs := rest, jobAt := none } }
  match j.kind with
  | .payload => s
  | .header => (s.setWide (wearAddr j.bank) 2 (s.sh.wearOf j.bank)).shedReadback
  | .void =>
    let s := s.setWide (wearAddr j.bank) 2 (s.sh.wearOf j.bank)
    if rest.any (fun k => decide (k.kind = JobKind.void)) then s else s.forgetDone
  | .epoch | .boot =>
    match s.sh.epochRec j.bank with
    | some (_, c) => s.setWide 0x2B10 2 c
    | none => s

/-- The read-back ends (R325, step 5; R337). -/
def State.shedCheck (s : State) : State :=
  match s.sh.saving with
  | none => s
  | some x =>
    let good := s.sh.bankOk x
    let sh := { s.sh with saving := none, readback := false
                          aok := if x = 0 then good else s.sh.aok
                          bok := if x = 1 then good else s.sh.bok }
    if good then
      let s := { s with sh := { sh with inForce := some x, noBank := false } }
      State.setFlag (State.setWide (s.setReg 0x2B09 (w16 (s.sh.seqOf x))) 0x2E15 2 (s.sh.crcOf x)) 0x2B 0
    else State.setFlag { s with sh := sh } 0x2B 1

/-- Interruption of the page in progress (R328): it is damaged, and no activity remains. -/
def State.shedInterrupt (s : State) : State :=
  match s.sh.jobs with
  | j :: _ =>
    let p := 32 * j.bank + j.page
    State.draw { s with sh := { s.sh with torn := setKey p s.free s.sh.torn, jobs := [], saving := none, forgetting := false,
                                          readback := false, jobAt := none } }
  | [] => { s with sh := { s.sh with saving := none, forgetting := false, readback := false, jobAt := none } }

/-- The bank R323 loads: the newer of two valid ones. -/
def Shed.pick (h : Shed) : Option Nat :=
  if h.bankOk 0 && h.bankOk 1 then some (if seqNewer (h.seqOf 1) (h.seqOf 0) then 1 else 0)
  else if h.bankOk 0 then some 0 else if h.bankOk 1 then some 1 else none

/-- The picked bank's image, SEQ and IMGCRC (R321, R323, R337). -/
def State.loadBank (s : State) (pick : Option Nat) : State :=
  match pick with
  | some x => State.setWide ((s.loadImage 4096 (wordsOf (s.sh.payload x))).setReg 0x2B09 (w16 (s.sh.seqOf x))) 0x2E15 2 (s.sh.crcOf x)
  | none => State.setWide (s.setReg 0x2B09 0) 0x2E15 2 0

/-- SYS.EPOCH and SHED.ECNT by the epoch record in force (R123, R323). -/
def State.takeEpoch (s : State) (best : Option (Nat × Nat × Nat)) : State :=
  match best with
  | some (_, e, c) => (s.setReg 0x000A (w16 (e % 65535 + 1))).setWide 0x2B10 2 c
  | none => s.setReg 0x000A 1

/-- Bank selection up to the start of the epoch program (R323, R321, R337). -/
def State.bankSelect (s : State) : State :=
  let s := { s with sh := { s.sh with aok := s.sh.bankOk 0, bok := s.sh.bankOk 1, inForce := s.sh.pick, noBank := s.sh.pick.isNone,
                                      skip := false, epok := s.sh.epochBest.isSome } }
  let s := (s.setReg 0x2B0B 0).loadBank s.sh.inForce
  let s := (s.setWide (wearAddr 0) 2 (s.sh.wearOf 0)).setWide (wearAddr 1) 2 (s.sh.wearOf 1)
  (s.takeEpoch s.sh.epochBest).shedAdd [{ kind := .boot, bank := 0, page := 31, bytes := [] }]

/-- A byte of the factory area (R330); one nothing lists reads 0xFF (log entry 5). -/
def Factory.byteAt (f : Factory) (a : Nat) : Byte := memGet f.area a

def Factory.bytesAt (f : Factory) (a n : Nat) : List Byte := (List.range n).map (fun i => f.byteAt (a + i))

def Factory.field (f : Factory) (a n : Nat) : Nat := leNat (f.bytesAt a n)

/-- The check of the factory area: MAGIC, FORMAT, LEN, and the CRC-32 in its last 4 bytes (R330). -/
def Factory.good (f : Factory) : Bool :=
  let len := f.field 4 2
  decide (f.field 0 2 = 0x5D1F) && decide (f.field 2 2 = 1) && decide (len ≤ 4092)
    && decide (f.field 4092 4 = (crc32 (f.bytesAt 0 len)).toNat)

/-- Entries of four bytes from byte 6 on: a register address, then its word (DESIGN CHOICE, log entry 4). -/
def entriesOf : List Byte → List (Nat × Word)
  | a :: b :: c :: d :: t => (a.toNat + 256 * b.toNat, w16 (c.toNat + 256 * d.toNat)) :: entriesOf t
  | _ => []

/-- The words the factory area gives the pages CALF and LIKE: none where its check fails (R283, R330). -/
def Factory.words (f : Factory) : List (Nat × Word) := if f.good then entriesOf (f.bytesAt 6 (f.field 4 2 - 6)) else []

end Machine
end Sys2Proof
end

