-- ==== Sys2Proof/Machine/ContactOps.lean ====
section
/-! DEFINITION. Contact events: their record bodies (R231, R232), forced UPs (R227), and the HID descriptor (R233). -/

namespace Sys2Proof
namespace Machine

/-- Events and reasons (Tables TR-3 and TR-4). -/
inductive Event where
  | down | move | up (reason : Nat)
  deriving DecidableEq, Repr

def Event.code : Event → Nat
  | .down => 0 | .move => 1 | .up _ => 2

def Event.reason : Event → Nat
  | .up r => r | _ => 0

/-- An UP other than LIFT is forced (R229). -/
def Event.forced : Event → Bool
  | .up r => decide (r ≠ 0) | _ => false

/-- CLASS of a contact: PALM wins over WET (R229, log entry 23). -/
def Contact.cls (c : Contact) : Nat := if c.palm then 1 else if c.wet then 2 else 0

/-- Confidence (R229). -/
def Contact.conf (c : Contact) (e : Event) : Bool := decide (c.cls = 0) && !e.forced

/-- The native record (Table TR-4). -/
def nativeBody (c : Contact) (e : Event) : List Word :=
  [w16 (c.id + 32 * e.code + 128 * e.reason + 1024 * c.cls + 4096 * b2n (c.conf e) + 8192 * b2n c.interp + 16384 * b2n c.spare
      + 32768 * b2n c.prim), w16 c.x, w16 c.y, w16 c.w, w16 c.h, w16 c.amp, w16 c.area]

/-- The HID input report (Table TR-5); HIDRID 0 is taken as 1. -/
def hidBody (rid : Nat) (c : Contact) (e : Event) (ts count : Nat) : List Word :=
  let tip := match e with | .up _ => false | _ => true
  let lo (n : Nat) : Nat := n % 256
  let hi (n : Nat) : Nat := n / 256 % 256
  let scan := ts / 1600 % 65536
  let bytes : List Nat := [rid, b2n tip + 2 * b2n (c.conf e), c.id, lo c.x, hi c.x, lo c.y, hi c.y, lo c.w, hi c.w, lo c.h, hi c.h,
    lo scan, hi scan, count]
  tab 7 (fun i => w16 (bytes.getD (2 * i) 0 + 256 * bytes.getD (2 * i + 1) 0))

/-- Queue one contact report (R231, R232, R236, R244); `count` is the number it shows if it is the first of its
output. -/
def State.contactReport (s : State) (c : Contact) (e : Event) (ts count : Nat) : State :=
  let hid := wbit (s.force.get 0x2501) 0
  let body := if hid then hidBody (s.force.get 0x2516).toNat c e ts count else nativeBody c e
  let r : Report := { typ := if hid then 2 else 1, merge := 0, seq := none, epoch := s.epochNow, ts := ts, body := body,
                      life := decide (e ≠ .move), cid := some c.id, up := decide (e.code = 2) }
  match e with
  | .move => s.queueMove r
  | .down => State.queueLife { s with rq := { s.rq with downCnt := (s.rq.downCnt + 1) % 65536 } } r
  | .up _ => State.queueLife { s with rq := { s.rq with upCnt := (s.rq.upCnt + 1) % 65536 } } r

/-- The reports of one output or event, in order; the first shows their number (R230, R232). -/
def State.contactReports (s : State) (l : List (Contact × Event)) (ts : Nat) : State :=
  (l.zipIdx).foldl (fun s (p : (Contact × Event) × Nat) =>
    s.contactReport p.1.1 p.1.2 ts (if p.2 = 0 then l.length else 0)) s

/-- The idle time of R117 runs in ACTIVE while no contact is open; PWR.IDLET is read at its start (log entry 26). -/
def State.idleCheck (s : State) : State :=
  if s.ms.mode = .active ∧ s.tr.contacts.isEmpty = true then
    match s.ms.idleAt with
    | some _ => s
    | none =>
      let t := s.hcOf ((s.reg 0x020D).toNat * 10000)
      State.after { s with ms := { s.ms with idleAt := some (s.now + t) } } t .automode
  else
    let s := s.unschedule (fun i => decide (i = Instr.automode))
    { s with ms := { s.ms with idleAt := none } }

/-- Close contacts with one reason, by ascending ID, at an event other than an output (R227, R238). While the core is halted no
report is formed: the contacts stay open, and close for DEBUG at the first output after it (R76, Table TR-3; DEDUCED, log entry
58). -/
def State.forceUps (s : State) (sel : Contact → Bool) (reason : Nat) : State :=
  let cs := (s.tr.contacts.filter sel).mergeSort (fun a b => decide (a.id ≤ b.id))
  if cs.isEmpty || s.ms.halted then s
  else
    let s := { s with tr := { s.tr with contacts := s.tr.contacts.filter (fun c => !sel c) } }
    (s.contactReports (cs.map (fun c => (c, Event.up reason))) (max s.tb.floor s.tr.lastTs)).idleCheck

def State.forceAll (s : State) (reason : Nat) : State := s.forceUps (fun _ => true) reason

/-- Is electrode m within ±2 of the contact's peak (R218)? -/
def Contact.nearSense (c : Contact) (m : Nat) : Bool := decide (c.ps ≤ m + 2) && decide (m ≤ c.ps + 2)
def Contact.nearDrive (c : Contact) (n : Nat) : Bool := decide (c.pd ≤ n + 2) && decide (n ≤ c.pd + 2)

/-- Forced UPs with reason LANE for a lane's six electrodes (R303). Where this boundary closes every contact for MODE,
that higher reason is the one each of them gets (R227, R305). -/
def State.forceLane (s : State) (k : Nat) : State :=
  if s.ms.due = some 4 ∨ (s.ms.due = some 3 ∧ s.sh.jobs.isEmpty = true) then s
  else s.forceUps (fun c => (List.range 6).any (fun j => c.nearSense (k + 16 * j))) 2

/-- A HID short item: prefix by tag and type, and the least of 0, 1, 2 or 4 data bytes that hold the value with the
item's sign (R233). -/
def hidItem (prefix_ : Nat) (isSigned : Bool) (v : Int) : List Nat :=
  let u := (v % 2 ^ 32).toNat
  let fits (bits : Nat) : Bool :=
    if isSigned then decide (-(2 ^ (bits - 1) : Int) ≤ v) && decide (v < 2 ^ (bits - 1)) else decide (0 ≤ v) && decide (v < 2 ^ bits)
  if fits 8 then [prefix_ + 1, u % 256]
  else if fits 16 then [prefix_ + 2, u % 256, u / 256 % 256]
  else [prefix_ + 3, u % 256, u / 256 % 256, u / 65536 % 256, u / 16777216]

/-- The report descriptor of R233 from HIDRID, XSIZE, YSIZE and ORIENT. Logical and physical limits and the unit
exponent are signed items; an item of value 0 takes one data byte (log entry 24). -/
def hidDescriptor (w : List Word) : List Byte :=
  let rid := (w.getD 0 0).toNat
  let swap := wbit (w.getD 3 0) 0
  let xs := (w.getD (if swap then 2 else 1) 0).toNat
  let ys := (w.getD (if swap then 1 else 2) 0).toNat
  let usagePage := hidItem 0x04 false
  let usage := hidItem 0x08 false
  let collection := hidItem 0xA0 false
  let reportId := hidItem 0x84 false
  let logMin := hidItem 0x14 true
  let logMax := hidItem 0x24 true
  let physMin := hidItem 0x34 true
  let physMax := hidItem 0x44 true
  let unitExp := hidItem 0x54 true
  let unit := hidItem 0x64 false
  let size := hidItem 0x74 false
  let cnt := hidItem 0x94 false
  let input := hidItem 0x80 false
  let items : List Nat :=
    usagePage 0x0D ++ usage 0x04 ++ collection 1 ++ reportId rid ++
    usage 0x22 ++ collection 2 ++
    usage 0x42 ++ usage 0x47 ++ logMin 0 ++ logMax 1 ++ size 1 ++ cnt 2 ++ input 2 ++
    cnt 6 ++ input 1 ++
    usage 0x51 ++ logMax 31 ++ size 8 ++ cnt 1 ++ input 2 ++
    usagePage 0x01 ++ logMax 65535 ++ size 16 ++ unitExp (-3) ++ unit 0x11 ++ physMin 0 ++
    usage 0x30 ++ physMax xs ++ input 2 ++
    usage 0x31 ++ physMax ys ++ input 2 ++
    usagePage 0x0D ++ usage 0x48 ++ physMax xs ++ input 2 ++
    usage 0x49 ++ physMax ys ++ input 2 ++
    [0xC0] ++
    unitExp (-4) ++ unit 0x1001 ++ physMax 65535 ++ usage 0x56 ++ input 2 ++
    unit 0 ++ unitExp 0 ++ physMax 0 ++ logMax 20 ++ size 8 ++ usage 0x54 ++ input 2 ++
    [0xC0]
  items.map (BitVec.ofNat 8)

/-- The words the descriptor is built from (R233). -/
def hidWords (r : Regs) : List Word := [r.get 0x2516, r.get 0x2513, r.get 0x2514, r.get 0x2512 &&& 1]

/-- HIDD.DATA at an offset: bytes beyond LEN read 0 (R235). -/
def State.hidData (s : State) (ptr : Nat) : Word :=
  let d := hidDescriptor s.tr.hid
  w16 ((d.getD ptr 0).toNat + 256 * (d.getD (ptr + 1) 0).toNat)

end Machine
end Sys2Proof
end

