-- ==== Sys2Proof/Machine/ImageOps.lean ====
section
/-! DEFINITION. The Trellis: the panel map (R216), baselines (R217 to R220), peaks and positions (R221 to R224), and the
tracking of contacts (R225 to R230). -/

namespace Sys2Proof
namespace Machine

/-- The map of R216 as first and last electrode. -/
structure PanelMap where
  s0 : Nat
  s1 : Nat
  d0 : Nat
  d1 : Nat

/-- MAPS and MAPD as first and last electrodes (Table TR-6). -/
def mapWords (s d : Word) : PanelMap :=
  { s0 := s.toNat % 128, s1 := s.toNat / 256, d0 := d.toNat % 64, d1 := d.toNat / 256 }

/-- A map the Trellis applies: at least three electrodes on each axis (R216), none beyond S95 (log entry 25). -/
def PanelMap.ok (p : PanelMap) : Bool := decide (p.s0 + 2 ≤ p.s1) && decide (p.d0 + 2 ≤ p.d1) && decide (p.s1 ≤ 95)

def PanelMap.ns (p : PanelMap) : Nat := p.s1 + 1 - p.s0
def PanelMap.nd (p : PanelMap) : Nat := p.d1 + 1 - p.d0
def PanelMap.has (p : PanelMap) (m n : Nat) : Bool := decide (p.s0 ≤ m) && decide (m ≤ p.s1) && decide (p.d0 ≤ n) && decide (n ≤ p.d1)

/-- The map in use: the last one that was applied. -/
def State.panel (s : State) : PanelMap := mapWords s.tr.mapS s.tr.mapD

def State.baseAt (s : State) (m n : Nat) : Option CxQ := ((s.tr.base.getD m []).getD n none)

def cellAt (cs : List (List Cell)) (m n : Nat) : Cell := (cs.getD m []).getD n emptyCell

/-- Is a coupling in the footprint of an open contact or a pending candidate (R218)? -/
def State.footprint (s : State) (m n : Nat) : Bool :=
  (s.tr.contacts ++ s.tr.cands.map (·.1)).any (fun c => c.nearSense m && c.nearDrive n)

def State.footSense (s : State) (m : Nat) : Bool :=
  (s.tr.contacts ++ s.tr.cands.map (·.1)).any (fun c => c.nearSense m)

/-- Is electrode m in a wet zone (R209, R210)? -/
def State.wetAt (s : State) (m : Nat) : Bool := wbit s.wmap (m / 6)

def meanCx (sum : CxQ) (n : Nat) : CxQ := sum.scale (1 / ((n : Nat) : Rat))

/-- A baseline or re-entry frame's values are added (R217). -/
def State.baseAccumulate (s : State) (cells : List (List Cell)) (selfs : List (Nat × CxQ × Tag)) : State :=
  let sum := tab 96 (fun m => tab 64 (fun n => CxQ.add ((s.tr.sum.getD m []).getD n CxQ.zero) (cellAt cells m n).u))
  let sumSelf := tab 96 (fun m =>
    let (v, k) := s.tr.sumSelf.getD m (CxQ.zero, 0)
    match selfs.find? (fun p => p.1 == m) with
    | some (_, x, _) => (v.add x, k + 1)
    | none => (v, k))
  { s with tr := { s.tr with sumN := s.tr.sumN + 1, sum := sum, sumSelf := sumSelf } }

/-- Does a pending re-acquisition affect a coupling, and which couplings share its r (R219)? -/
def Reacq.affects (r : Reacq) (m n : Nat) : Bool :=
  match r.kind with
  | .drive => r.drive == some n
  | .guardTone => false
  | .filter => true
  | .sense => match r.elec with | some e => e == m | none => true
  | .stuck => match r.elec, r.drive with
    | some e, some d => decide (e ≤ m + 2) && decide (m ≤ e + 2) && decide (d ≤ n + 2) && decide (n ≤ d + 2)
    | _, _ => false

/-- Does it affect the self baseline of an electrode (R219)? -/
def Reacq.selfAt (r : Reacq) (m : Nat) : Bool :=
  match r.kind with
  | .guardTone | .filter => match r.elec with | some e => e == m | none => true
  | _ => false

/-- What is left of an event that the rotation of R141 has not brought to an electrode yet. -/
def Reacq.left (r : Reacq) : Bool := decide (r.kind = .guardTone) && r.elec.isSome

/-- The re-acquisitions after frame `no`, whose events `evs` have had their effect on the electrodes it sensed: the self
baselines of the others wait for the next frame that senses them (R141, R219). -/
def State.reacqRest (s : State) (evs : List Reacq) (no : Nat) (sensed : Nat → Bool) : List Reacq :=
  s.tr.reacq.filter (fun r => !decide (r.frame ≤ no)) ++ (List.range 96).filterMap (fun m =>
    if !sensed m && (s.tr.self.getD m none).isSome && evs.any (fun r => r.selfAt m) then
      some { kind := .guardTone, elec := some m, drive := none, frame := no + 1 } else none)

/-- Some coupling has a baseline (R217). -/
def State.formed (s : State) : Bool := s.tr.base.any (fun r => r.any Option.isSome)

/-- The baselines form from the frames added (R217): the mean, which after re-entry replaces b only where it lies
within RELTH of it, or where an event of Table TR-1 affects it from one of these frames on (R219). Events that begin at a
later frame than `no` stay pending. -/
def State.baseForm (s : State) (reentry : Bool) (no : Nat) : State :=
  let evs := s.tr.reacq.filter (fun r => decide (r.frame ≤ no))
  let rel : Rat := ((s.force.get 0x2509).toNat : Nat)
  let pick (old : Option CxQ) (event : Bool) (m : CxQ) : Option CxQ :=
    match old with
    | some b => if reentry && !event then (if (m.sub b).mag < rel then some m else some b) else some m
    | none => some m
  if s.tr.sumN = 0 then s
  else
    let p := s.panel
    let base := tab 96 (fun m => tab 64 (fun n =>
      if p.has m n then pick (s.baseAt m n) (evs.any (fun r => r.affects m n)) (meanCx ((s.tr.sum.getD m []).getD n CxQ.zero) s.tr.sumN) else none))
    let self := tab 96 (fun m =>
      let (v, k) := s.tr.sumSelf.getD m (CxQ.zero, 0)
      if k = 0 then s.tr.self.getD m none else pick (s.tr.self.getD m none) (evs.any (fun r => r.selfAt m)) (meanCx v k))
    let rest := s.reacqRest evs no (fun m => decide ((s.tr.sumSelf.getD m (CxQ.zero, 0)).2 ≠ 0))
    let t := { s with tr := { s.tr with base := base, self := self, sumN := 0, sum := [], sumSelf := [], neg := [], reacq := rest } }
    t.setFlagIf (reentry && evs.any (fun r => !r.left) && s.formed) 0x25 4

/-- round((x − b) / 2^BSHIFT) added to b, each part rounded (R218). -/
def baseStep (b x : CxQ) (sh : Nat) : CxQ :=
  { re := b.re + roundRat ((x.re - b.re) / ((2 ^ sh : Nat) : Rat)), im := b.im + roundRat ((x.im - b.im) / ((2 ^ sh : Nat) : Rat)) }

/-- The group of a coupling: drive for a plan change, sense for τ and LSP, one group for a filter change. -/
def Reacq.group (r : Reacq) (m n : Nat) : Nat :=
  match r.kind with
  | .drive => n | .sense => m | _ => 0

/-- The mean of |x| / |b| over listed couplings (R219); 1 where there is none. -/
def meanRatio (l : List (Rat × Rat)) : Rat :=
  let l := l.filter (fun p => decide (p.2 ≠ 0))
  if l.isEmpty then 1 else sumRat (l.map (fun p => p.1 / p.2)) / ((l.length : Nat) : Rat)

/-- The re-acquired baseline of one coupling; none where no event affects it (R219). A coupling that a new map takes in
gets its frame value at the full re-acquisition of that change (R216, R234). -/
def State.reacqAt (s : State) (evs : List Reacq) (cells : List (List Cell)) (m n : Nat) : Option CxQ :=
  match evs.find? (fun r => r.affects m n), s.baseAt m n with
  | some r, some b =>
    let x := (cellAt cells m n).u
    if decide (r.kind = ReacqKind.stuck) || !s.footprint m n then some x
    else
      let g := r.group m n
      let peers := (List.range 96).flatMap (fun m' => (List.range 64).filterMap (fun n' =>
        if s.panel.has m' n' && r.affects m' n' && decide (r.group m' n' = g) && !s.footprint m' n' then
          (s.baseAt m' n').map (fun b' => ((cellAt cells m' n').u.mag, b'.mag))
        else none))
      some (b.scale (meanRatio peers))
  | some r, none =>
    if decide (r.kind = ReacqKind.filter) && s.formed && s.panel.has m n then some (cellAt cells m n).u else none
  | none, _ => none

/-- The Trellis at the entry of a normal frame (R218 to R220). With no baseline formed yet there is nothing to
re-acquire, and REACQ stays. A coupling outside the map has no baseline (R216). -/
def State.trellisFrame (s : State) (no : Nat) (cells : List (List Cell)) (selfs : List (Nat × CxQ × Tag)) : State :=
  let relth : Rat := ((s.force.get 0x2509).toNat : Nat)
  let touch : Rat := ((s.force.get 0x2508).toNat : Nat)
  let sh := fld (s.force.get 0x250A) 11 8
  let anti := wbit (s.force.get 0x2501) 1
  let evs := s.tr.reacq.filter (fun r => decide (r.frame ≤ no))
  let formed := s.formed
  let fresh (t : Tag) : Bool := decide (t ≠ .priming) && decide (t ≠ .coefNew)
  -- after re-acquisition
  let base0 := tab 96 (fun m => tab 64 (fun n =>
    if !s.panel.has m n then (none, false)
    else match s.reacqAt evs cells m n with
    | some b => (some b, true)
    | none => (s.baseAt m n, false)))
  let delta (b : CxQ) (m n : Nat) : Rat := b.mag - (cellAt cells m n).u.mag
  let neg := if !anti then [] else (List.range 96).flatMap (fun m => (List.range 64).filterMap (fun n =>
    match ((base0.getD m []).getD n (none, false)).1 with
    | some b => if delta b m n ≤ -touch then some (m, n) else none
    | none => none))
  let again := neg.filter (fun p => s.tr.neg.contains p)
  let base := tab 96 (fun m => tab 64 (fun n =>
    match (base0.getD m []).getD n (none, false) with
    | (none, _) => none
    | (some b, acquired) =>
      let c := cellAt cells m n
      if again.contains (m, n) then some c.u
      else if acquired then some b
      else
        let d := delta b m n
        if fresh c.tag && decide (-relth < d) && decide (d < relth) && !s.footprint m n && !s.wetAt m
        then some (baseStep b c.u sh) else some b))
  -- self baselines
  let selfEv (m : Nat) : Bool := evs.any (fun r => r.selfAt m)
  let ratio := meanRatio (selfs.filterMap (fun (m, x, _) =>
    if s.footSense m then none else (s.tr.self.getD m none).map (fun b => (x.mag, b.mag))))
  let self := tab 96 (fun m =>
    match s.tr.self.getD m none, selfs.find? (fun p => p.1 == m) with
    | some b, some (_, x, t) =>
      if selfEv m then (if s.footSense m then some (b.scale ratio) else some x)
      else
        let d := x.mag - b.mag
        if fresh t && decide (-relth < d) && decide (d < relth) && !s.footSense m && !s.wetAt m then some (baseStep b x sh)
        else some b
    | none, some (_, x, _) => some x
    | b, none => b)
  let sigma := tab 96 (fun m =>
    match self.getD m none, selfs.find? (fun p => p.1 == m) with
    | some b, some (_, x, _) => x.mag - b.mag
    | _, _ => s.tr.sigma.getD m 0)
  let image := tab 96 (fun m => tab 64 (fun n =>
    match (base.getD m []).getD n none with
    | some b => delta b m n
    | none => 0))
  let s := { s with tr := { s.tr with base := base, self := self, sigma := sigma, images := image,
                                      neg := neg.filter (fun p => !again.contains p),
                                      reacq := s.reacqRest evs no (fun m => selfs.any (fun p => p.1 == m)) } }
  (s.setFlagIf (evs.any (fun r => !r.left) && formed) 0x25 4).setFlagIf (!again.isEmpty) 0x25 2

/-- Curve constants A and E of Table TR-2 in hundredths. -/
def curveA : List Nat := [0, 6, 8, 10, 12, 14, 14, 16, 18, 20, 22, 4, 6, 8, 9]
def curveE : List Nat := [0, 30, 32, 34, 36, 38, 36, 38, 40, 42, 44, 28, 32, 40, 42]

/-- Linear interpolation between table points of pitch 1/16 from `lo` (R223), in 1/4,096 pitch. -/
def tablePoint (pts : List Word) (t : Rat) (last : Nat) : Rat :=
  let k := min t.floor.toNat (last - 1)
  let f := t - ((k : Nat) : Rat)
  let a : Rat := (signed 16 (pts.getD k 0).toNat : Int)
  let b : Rat := (signed 16 (pts.getD (k + 1) 0).toNat : Int)
  (a + (b - a) * f) / 4096

/-- The corrected offset u' (R222, R223). `pts` are the axis's 50 points for curve 15. -/
def curveInner (curve : Nat) (pts : List Word) (u : Rat) : Rat :=
  if curve = 15 then tablePoint pts ((u + 1) * 16) 32
  else u - ((curveA.getD curve 0 : Nat) : Rat) / 100 * ((sinTurn u.num u.den : Int) : Rat) / ((2 ^ trigBits : Nat) : Rat)
    * ((2 ^ 64 : Nat) : Rat) / ((twoPi64 : Nat) : Rat)

def curveEdge (curve : Nat) (pts : List Word) (u : Rat) : Rat :=
  if curve = 15 then tablePoint (pts.drop 33) (u * 16) 16
  else if u < 1 / 2 then u - ((curveE.getD curve 0 : Nat) : Rat) / 100 * (1 - 2 * u) else u

/-- u' for a peak at index `i` of `n` on an axis. -/
def curveApply (curve : Nat) (pts : List Word) (i n : Nat) (u : Rat) : Rat :=
  if i = 0 then curveEdge curve pts u else if i + 1 = n then -(curveEdge curve pts (-u)) else curveInner curve pts u

/-- The curve of an axis as used: 15 falls back to 0 while the table is invalid or not held (R223). -/
def State.curveUsed (s : State) (axis : Nat) : Nat :=
  let c := fld (s.force.get 0x2515) (4 * axis + 3) (4 * axis)
  if c = 15 ∧ !(ucValid s.tr.curve && s.sh.holdsCurve) then 0 else c

/-- √q to the nearest integer. -/
def roundSqrt (q : Rat) : Nat := (isqrt (4 * q).floor.toNat + 1) / 2

/-- A peak of an image, before tracking: its record values and δ. -/
structure Peak where
  c : Contact
  delta : Rat

/-- The image δ = |b| − |y| of an output over the map; 0 is taken outside it (R215, R216). -/
def State.outputImage (s : State) (o : Output) : List (List Rat) :=
  let p := s.panel
  tab 96 (fun m => tab 64 (fun n =>
    if p.has m n then match s.baseAt m n with
      | some b => b.mag - (cellAt o.cells m n).u.mag
      | none => 0
    else 0))

def imgAt (img : List (List Rat)) (m n : Nat) : Rat := (img.getD m []).getD n 0

/-- The eight neighbors of a coupling in the map. -/
def PanelMap.neighbors (p : PanelMap) (m n : Nat) : List (Nat × Nat) :=
  ([(0, 0), (0, 1), (0, 2), (1, 0), (1, 2), (2, 0), (2, 1), (2, 2)].filterMap (fun (i, j) =>
    if 1 ≤ m + i ∧ 1 ≤ n + j ∧ p.has (m + i - 1) (n + j - 1) = true then some (m + i - 1, n + j - 1) else none))

/-- Is (m, n) a peak at level `lvl` (R221)? On a tie the lower drive, then the lower sense index is the peak. -/
def isPeak (p : PanelMap) (img : List (List Rat)) (lvl : Rat) (m n : Nat) : Bool :=
  let d := imgAt img m n
  decide (lvl ≤ d) && (p.neighbors m n).all (fun (i, j) =>
    let e := imgAt img i j
    decide (e < d) || (decide (e = d) && (decide (n < j) || (decide (n = j) && decide (m < i)))))

/-- The region of a peak: offsets 0 to 6 stand for −3 to 3 (R221). -/
def growRegion (ok : Nat → Nat → Bool) : Nat → List (Nat × Nat) → List (Nat × Nat)
  | 0, r => r
  | f + 1, r =>
    let new := ((List.range 7).flatMap (fun i => (List.range 7).filterMap (fun j =>
      if !r.contains (i, j) && ok i j && (r.contains (i + 1, j) || r.contains (i, j + 1) || (decide (0 < i) && r.contains (i - 1, j))
          || (decide (0 < j) && r.contains (i, j - 1))) then some (i, j) else none)))
    if new.isEmpty then r else growRegion ok f (r ++ new)

/-- The δ-weighted variance of a list of (index, weight). -/
def variance (l : List (Rat × Rat)) : Rat :=
  let w := sumRat (l.map (·.2))
  if w = 0 then 0
  else
    let mean := sumRat (l.map (fun p => p.1 * p.2)) / w
    sumRat (l.map (fun p => (p.1 - mean) * (p.1 - mean) * p.2)) / w

/-- The δ-weighted mean offset over the 3 × 3 around the peak on one axis; negative δ counts as 0 (R222, step 1). -/
def offset (l : List (Int × Rat)) : Rat :=
  let l := l.map (fun (i, d) => (i, if d < 0 then 0 else d))
  let w := sumRat (l.map (·.2))
  if w = 0 then 0 else sumRat (l.map (fun (i, d) => (i : Rat) * d)) / w

def coord (p : Rat) (n : Nat) : Nat := (clampInt 0 65535 (roundRat ((p + 1 / 2) * 65535 / ((n : Nat) : Rat)))).toNat

/-- Width or height: 4 standard deviations, at least one pitch, in units of the axis (R224). -/
def extent (var : Rat) (n : Nat) : Nat :=
  let q : Rat := 65535 / ((n : Nat) : Rat)
  min 65535 (if 16 * var < 1 then (roundRat q).toNat else roundSqrt (16 * var * q * q))

/-- The offset POFS of an electrode in 1/256 pitch, with APPLY (R291). -/
def pofs (r : Regs) (base i : Nat) : Rat :=
  if wbit (r.get 0x2C01) 0 then ((signed 8 ((r.get (base + i / 2)).toNat / 256 ^ (i % 2)) : Int) : Rat) / 256 else 0

/-- p on one axis before POFS: peak index + u' (R222, steps 1 to 3). -/
def State.axisIndex (s : State) (axis i n : Nat) (l : List (Int × Rat)) : Rat :=
  ((i : Nat) : Rat) + curveApply (s.curveUsed axis) (s.tr.curve.drop (1 + 50 * axis)) i n (offset l)

/-- The 3 × 3 δ values around a peak. -/
def around (img : List (List Rat)) (p : PanelMap) (m n : Nat) : List (Int × Int × Rat) :=
  (List.range 3).flatMap (fun i => (List.range 3).filterMap (fun j =>
    if 1 ≤ m + i ∧ 1 ≤ n + j ∧ p.has (m + i - 1) (n + j - 1) = true then
      some ((i : Int) - 1, (j : Int) - 1, imgAt img (m + i - 1) (n + j - 1)) else none))

/-- Form the record of a peak at (m, n) (R221 to R224, R231). An output is judged by the WMAP that stood at the entry it was computed
at, which the frame before that entry gave (R210). -/
def State.formPeak (s : State) (o : Output) (img : List (List Rat)) (m n : Nat) : Peak :=
  let p := s.panel
  let rel : Rat := ((s.force.get 0x2509).toNat : Nat)
  let ar := around img p m n
  let ps := s.axisIndex 0 (m - p.s0) p.ns (ar.map (fun (i, _, d) => (i, d))) + pofs s.force 0x2CB0 m
  let pd := s.axisIndex 1 (n - p.d0) p.nd (ar.map (fun (_, j, d) => (j, d))) + pofs s.force 0x2CE0 n
  let ok (i j : Nat) : Bool := decide (3 ≤ m + i) && decide (3 ≤ n + j) && p.has (m + i - 3) (n + j - 3)
    && decide (rel ≤ imgAt img (m + i - 3) (n + j - 3))
  let region := growRegion ok 49 [(3, 3)]
  let weigh (f : Nat × Nat → Nat) : List (Rat × Rat) := region.map (fun q => (((f q : Nat) : Rat), imgAt img (m + q.1 - 3) (n + q.2 - 3)))
  let cs := coord ps p.ns
  let cd := coord pd p.nd
  let es := extent (variance (weigh (·.1))) p.ns
  let ed := extent (variance (weigh (·.2))) p.nd
  let ori := (s.force.get 0x2512)
  let sw := wbit ori 0
  let flip (b : Bool) (c : Nat) : Nat := if b then 65535 - c else c
  let tags := (around img p m n).map (fun (i, j, _) => (cellAt o.cells ((m : Int) + i).toNat ((n : Int) + j).toNat).tag)
  let d := imgAt img m n
  { delta := d
    c := { id := 0, x := flip (wbit ori 1) (if sw then cd else cs), y := flip (wbit ori 2) (if sw then cs else cd),
           ps := m, pd := n, w := if sw then ed else es, h := if sw then es else ed,
           amp := (clampInt 0 65535 (roundRat d)).toNat, area := min 255 region.length, palm := false, wet := wbit o.wmap (m / 6),
           interp := tags.contains .interp, spare := tags.contains .spare, prim := o.prim, miss := 0, refX := 0, refY := 0, refAt := 0 } }

/-- The peaks of an output, at the lower of TOUCHTH and RELTH (R221). -/
def State.peaks (s : State) (o : Output) : List Peak :=
  let img := s.outputImage o
  let p := s.panel
  let lvl : Rat := ((min (s.force.get 0x2508).toNat (s.force.get 0x2509).toNat : Nat) : Rat)
  (List.range 96).flatMap (fun m => (List.range 64).filterMap (fun n =>
    if p.has m n && isPeak p img lvl m n then some (s.formPeak o img m n) else none))

def dist2 (a b : Contact) : Nat := ((a.x : Int) - b.x).natAbs ^ 2 + ((a.y : Int) - b.y).natAbs ^ 2

/-- Greedy matching of R225: pairs (distance², key, target, peak) in rising order, each used once. -/
def matchPairs : List (Nat × Nat × Nat × Nat) → List (Nat × Nat) → List (Nat × Nat)
  | [], acc => acc
  | (_, _, t, k) :: rest, acc =>
    if acc.any (fun p => p.1 == t || p.2 == k) then matchPairs rest acc else matchPairs rest (acc ++ [(t, k)])

def pairLe (a b : Nat × Nat × Nat × Nat) : Bool :=
  decide (a.1 < b.1) || (decide (a.1 = b.1) && (decide (a.2.1 < b.2.1) || (decide (a.2.1 = b.2.1) && decide (a.2.2.2 ≤ b.2.2.2))))

/-- Match targets to the peaks listed by index: pairs within TRKDIST in order of distance, then key (R225). -/
def State.matchUp (s : State) (targets : List (Nat × Contact)) (peaks : List (Nat × Peak)) : List (Nat × Nat) :=
  let trk := (s.force.get 0x250B).toNat
  let pairs := targets.zipIdx.flatMap (fun ((key, c), t) => peaks.filterMap (fun (k, p) =>
    if dist2 c p.c ≤ trk * trk then some (dist2 c p.c, key, t, k) else none))
  matchPairs (pairs.mergeSort pairLe) []

/-- A peak's values taken over by a contact or candidate; PALM stays (R229). -/
def Contact.take (c : Contact) (p : Contact) (palmArea : Nat) : Contact :=
  { p with id := c.id, palm := c.palm || decide (palmArea ≤ p.area), miss := 0, refX := c.refX, refY := c.refY, refAt := c.refAt }

/-- The reference position moves with a contact that left its radius (R228). -/
def Contact.follow (c : Contact) (radius now : Nat) : Contact :=
  let d := ((c.x : Int) - c.refX).natAbs ^ 2 + ((c.y : Int) - c.refY).natAbs ^ 2
  if (16 * radius) ^ 2 < d then { c with refX := c.x, refY := c.y, refAt := now } else c

/-- Has the reference stood for STUCKT seconds (R228)? -/
def State.stuckNow (s : State) (c : Contact) : Bool :=
  let t := (s.force.get 0x250D).toNat % 256
  decide (t ≠ 0) && decide (c.refAt + t * s.clk.decl * 1000 ≤ s.tb.hcpos)

/-- The first ID after `last` that is neither taken nor held by an UP not yet sent (R226). -/
def State.freeId (s : State) (taken : List Nat) (last : Nat) : Option Nat :=
  ((List.range 32).map (fun i => (last + 1 + i) % 32)).find? (fun id => !taken.contains id && !s.idHeld id)

/-- Open due candidates while places and IDs last (R225, R226): those opened, those left, the last ID, overflow. -/
def State.openCands (s : State) : List (Contact × Nat) → Nat → List Nat → Nat → List Contact × List (Contact × Nat) × Nat × Bool
  | [], _, _, last => ([], [], last, false)
  | x :: xs, 0, taken, last => let r := State.openCands s xs 0 taken last; (r.1, x :: r.2.1, r.2.2.1, true)
  | x :: xs, places + 1, taken, last =>
    match s.freeId taken last with
    | some id =>
      let r := State.openCands s xs places (id :: taken) id
      ({ x.1 with id := id, refX := x.1.x, refY := x.1.y, refAt := s.tb.hcpos } :: r.1, r.2.1, r.2.2.1, r.2.2.2)
    | none => let r := State.openCands s xs 0 taken last; (r.1, x :: r.2.1, r.2.2.1, true)

/-- A stuck contact's footprint is re-acquired from the next frame value (R219, R228). -/
def stuckReacq (c : Contact) : Reacq := { kind := .stuck, elec := some c.ps, drive := some c.pd, frame := 0 }

/-- A DOWN may take WATCH to ACTIVE (R116). -/
def State.noteDown (s : State) : State :=
  { s with ms := { s.ms with auto := if s.ms.mode = .watch ∧ wbit (s.reg 0x020C) 1 = true then some .active else s.ms.auto } }

/-- Close a contact as STUCK (R228): flag and re-acquisition. -/
def State.stuckClose (s : State) (cs : List Contact) : State :=
  State.setFlagIf { s with tr := { s.tr with reacq := s.tr.reacq ++ cs.map stuckReacq } } (!cs.isEmpty) 0x25 1

/-- The Trellis processes one output (R221 to R230). -/
def State.trellisProcess (s : State) (o : Output) : State :=
  let peaks := (s.peaks o).zipIdx.map (fun (p, k) => (k, p))
  let touch : Rat := ((s.force.get 0x2508).toNat : Nat)
  let deb := s.force.get 0x250A
  let palm := (s.force.get 0x250C).toNat
  let radius := (s.force.get 0x250D).toNat / 256
  -- the first output after a debug halt closes every open contact (Table TR-3)
  let debug := s.ms.debugUps
  let s := { s with ms := { s.ms with debugUps := false } }
  let sorted := s.tr.contacts.mergeSort (fun a b => decide (a.id ≤ b.id))
  let contacts := if debug then [] else sorted
  let m1 := s.matchUp (contacts.map (fun c => (c.id, c))) peaks
  let used := m1.map (·.2)
  let strong := peaks.filter (fun (k, p) => !used.contains k && decide (touch ≤ p.delta))
  let m2 := s.matchUp (s.tr.cands.zipIdx.map (fun ((c, _), i) => (i, c))) strong
  let used2 := m2.map (·.2)
  let peakOf (k : Nat) : Option Contact := (peaks.find? (fun p => p.1 == k)).map (·.2.c)
  let hit (ms : List (Nat × Nat)) (i : Nat) : Option Contact := (ms.find? (fun p => p.1 == i)).bind (fun p => peakOf p.2)
  -- open contacts
  let upd := contacts.zipIdx.map (fun (c, i) => match hit m1 i with
    | some p => ((c.take p palm).follow radius s.tb.hcpos, true)
    | none => ({ c with miss := c.miss + 1 }, false))
  let verdict (c : Contact) (hit : Bool) : Option Nat :=
    if s.stuckNow c then some 3 else if !hit && decide (max 1 (fld deb 7 4) ≤ c.miss) then some 0 else none
  let ups := (if debug then sorted.map (fun c => (c, Event.up 5)) else [])
    ++ upd.filterMap (fun (c, h) => (verdict c h).map (fun r => (c, Event.up r)))
  let kept := upd.filter (fun (c, h) => (verdict c h).isNone)
  let moves := (kept.filter (·.2)).map (fun (c, _) => (c, Event.move))
  let open_ := kept.map (·.1)
  -- candidates, older first; an unmatched candidate is dropped; PALM counts from the output that opens one
  let cands := (s.tr.cands.zipIdx.filterMap (fun ((c, n), i) => (hit m2 i).map (fun p => (Contact.take { c with palm := false } p palm, n + 1))))
    ++ (strong.filter (fun (k, _) => !used2.contains k)).map (fun (_, p) => ({ p.c with palm := decide (palm ≤ p.c.area) }, 1))
  let wetSup := wbit (s.force.get 0x2501) 2
  let isDue (x : Contact × Nat) : Bool := decide (max 1 (fld deb 3 0) ≤ x.2) && !(wetSup && x.1.wet)
  let due := (cands.filter isDue).mergeSort (fun a b => decide (b.1.amp ≤ a.1.amp))
  let s := s.stuckClose ((ups.filter (fun (_, e) => decide (e = Event.up 3))).map (·.1))
  let (begun, others, last, tooMany) :=
    s.openCands due (20 - open_.length) (open_.map (·.id) ++ ups.map (fun (c, _) => c.id)) s.tr.lastId
  let (ts, s) := s.stamp o.t32
  let downs := (begun.mergeSort (fun a b => decide (a.id ≤ b.id))).map (fun c => (c, Event.down))
  let s := { s with tr := { s.tr with contacts := open_ ++ begun, cands := cands.filter (fun x => !isDue x || others.contains x),
                                      lastTs := ts, lastId := last } }
  let reports := (ups ++ downs ++ moves).map (fun (c, e) => (({ c with prim := o.prim } : Contact), e))
  let s := (s.setFlagIf tooMany 0x25 0).contactReports reports ts
  (if downs.isEmpty then s else s.noteDown).idleCheck

end Machine
end Sys2Proof
end

