-- ==== Sys2Proof/Machine/ClocheOps.lean ====
section
/-! DEFINITION. The Cloche: noise values (R201), the noise map (R202), the trip (R203), the charger estimate (R208),
water zones (R209, R210) and impulses (R211). -/

namespace Sys2Proof
namespace Machine

/-- The noise magnitude of a record sensed with a ratio (R201). -/
def Rec.noise (r : Rec) (ratio : Nat) : Nat := min 0xFFFE (roundDiv (floorMag r.v * 4096 : Nat) ratio).toNat

/-- A record the Cloche uses: not FROZEN, BLANKED or INTERP (R201). -/
def Rec.usable (r : Rec) : Bool := decide (r.tag ≠ .frozen) && decide (r.tag ≠ .blanked) && decide (r.tag ≠ .interp)

/-- The noise magnitudes of the usable records at position `p` of a slot. -/
def noisesAt (els : List ElecRecs) (p : Nat) : List Nat :=
  els.filterMap (fun e => match e.recs[p]? with
    | some r => if r.usable then some (r.noise e.ratio) else none
    | none => none)

/-- Values with the ones no record gives drawn as free values, limited like every mean (R201; log entry 3). -/
def State.fillFree (s : State) : List (Option Nat) → List Nat × State
  | [] => ([], s)
  | some v :: t => let r := State.fillFree s t; (v :: r.1, r.2)
  | none :: t =>
    let r := State.fillFree s.draw t
    (min 0xFFFE (Config.freeWord s.free).toNat :: r.1, r.2)

/-- Was listen entry i enabled in the frame, and its bin (R200)? -/
def FrameCtx.listenOn (c : FrameCtx) (i : Nat) : Bool := wbit (c.regs.get (0x2420 + i)) 15
def FrameCtx.listenBin (c : FrameCtx) (i : Nat) : Nat := fld (c.regs.get (0x2420 + i)) 7 0

/-- The slots whose records give N_L(i): SC and LS only on bin 239 (R201, R302). -/
def FrameCtx.listenSlots (c : FrameCtx) (i : Nat) : List Nat := if c.listenBin i = 239 then [6, 7] else List.range 8

def State.setMap (s : State) (b v : Nat) : State := { s with cl := { s.cl with map := s.cl.map.set (b - 24) v } }

/-- CMLVL, CMBIN and CHARGER (R208). With no bin known both take free values (log entry 3). -/
def State.chargerUpdate (s : State) : State :=
  let known := (List.range 232).filter (fun i => decide (s.cl.map.getD i 0xFFFF ≠ 0xFFFF))
  let best := known.foldl (fun (b : Option Nat) i => match b with
    | none => some i
    | some j => if s.cl.map.getD j 0 < s.cl.map.getD i 0 then some i else some j) none
  let s := match best with
    | some i => (s.setReg 0x240C (w16 (s.cl.map.getD i 0))).setReg 0x240D (w16 (24 + i))
    | none => (s.setReg 0x240C (Config.freeWord s.free)).draw.setReg 0x240D (Config.freeWord (s.free + 1) &&& 0xFF) |>.draw
  let lvl := (s.reg 0x240C).toNat
  let chg := (s.reg 0x240B).toNat
  if chg ≤ lvl then State.setFlagIf { s with cl := { s.cl with charger := true } } (!s.cl.charger) 0x24 6
  else if 2 * lvl < chg then { s with cl := { s.cl with charger := false } }
  else s

/-- The measurements of a frame entry: N_T, N_L, the map, the trip counter and the charger (R201 to R203, R208). A
trip is due 256 hc later, 1,280 hc after the last hc of LS. -/
def State.clocheFrame (s : State) (c : FrameCtx) : State :=
  let (nT, s) := s.fillFree (tab 64 (fun n => meanNat? (noisesAt (c.slotRecs 7) n)))
  let (nL, s) := s.fillFree (tab 16 (fun i => meanNat? ((c.listenSlots i).flatMap (fun e => noisesAt (c.slotRecs e) (64 + i)))))
  let s := { s with cl := { s.cl with nT := nT, nL := nL } }
  let tones := (List.range 64).filter (fun n => (c.tones.getD n ⟨0, 0⟩).en)
  let s := tones.foldl (fun s n => s.setMap (c.tones.getD n ⟨0, 0⟩).bin (nT.getD n 0)) s
  let s := ((List.range 16).filter c.listenOn).foldl (fun s i => s.setMap (c.listenBin i) (nL.getD i 0)) s
  let s := s.chargerUpdate
  let noisy := tones.any (fun n => decide ((s.reg 0x2408).toNat < nT.getD n 0))
  let trip := if noisy then s.cl.trip + 1 else 0
  if max 1 (fld (s.reg 0x2409) 3 0) ≤ trip then
    State.after { s with cl := { s.cl with trip := 0, tripDue := true } } 256 .ntrip
  else { s with cl := { s.cl with trip := trip } }

/-- A re-plan becomes due at the first boundary at least 2,048 hc from now (R204). -/
def State.replanSoon (s : State) : State := { s with cl := { s.cl with replanAt := s.cl.replanAt ++ [s.now + 2048] } }

/-- An injected slot's records reach the Cloche (R202, R208). -/
def State.clocheInjected (s : State) (i : Nat) (els : List ElecRecs) : State :=
  let all := els.flatMap (fun e => (e.recs.filter Rec.usable).map (fun r => r.noise e.ratio))
  let s := match meanNat? all with
    | some m =>
      if (s.reg 0x2411).toNat < m then s
      else (List.range 80).foldl (fun s q => match meanNat? (noisesAt els q) with
        | some v => s.setMap (min (24 + 80 * i) 176 + q) v
        | none => s) s
    | none => s
  s.chargerUpdate

/-- A slot whose enabled listen records have a mean noise magnitude above IMPLVL (R211). -/
def State.impulseSlot (s : State) (c : FrameCtx) (r : SlotRecs) : Bool :=
  match meanNat? (((List.range 16).filter c.listenOn).flatMap (fun i => noisesAt r.elecs (64 + i))) with
  | some m => decide ((s.reg 0x2411).toNat < m)
  | none => false

/-- Is the frame, as far as it has arrived, one that R211 discards? -/
def State.impulseFrame (s : State) (c : FrameCtx) : Bool :=
  wbit (s.reg 0x2401) 3 && decide (s.cl.row < 3) && !decide (c.kind = .baseline) && !decide (c.kind = .reentry)
    && c.got.any (s.impulseSlot c)

/-- A frame is discarded for an impulse (R211). -/
def State.impulseDiscard (s : State) : State :=
  ((State.setFlag { s with cl := { s.cl with row := s.cl.row + 1 } } 0x24 7).addSat 0x2412 1).countFrame .discarded

/-- The run of discarded frames after a frame that R211 does not discard: three in a row stay noted until a frame passes the test,
and any fewer end with the frame. -/
def State.impulsePassed (s : State) (c : FrameCtx) : State :=
  if c.got.any (s.impulseSlot c) && wbit (s.reg 0x2401) 3 && decide (3 ≤ s.cl.row) then s
  else { s with cl := { s.cl with row := 0 } }

/-- The sense electrodes of a zone that the frame measured: those tagged INTERP are left out (R209, R307). -/
def State.zoneElecs (s : State) (z : Nat) : List Nat := ((List.range 6).map (6 * z + ·)).filter (fun m => !s.cl.out.contains m)

/-- A zone's two values (R209): the largest mutual delta magnitude over the drives in use, and the largest self delta. -/
def State.zoneMutual (s : State) (z : Nat) : Rat :=
  (s.zoneElecs z).foldl (fun a m => s.cl.drives.foldl (fun a n => max a |imgAt s.tr.images m n|) a) 0

def State.zoneSelf (s : State) (z : Nat) : Rat := (s.zoneElecs z).foldl (fun a m => max a (s.tr.sigma.getD m 0)) 0

/-- A zone is a candidate in the frame (R209). -/
def State.zoneCand (s : State) (z : Nat) : Bool :=
  decide (((s.reg 0x240F).toNat : Rat) ≤ s.zoneMutual z)
    && decide (16 * s.zoneSelf z < ((fld (s.reg 0x240E) 5 0 : Nat) : Rat) * s.zoneMutual z)

/-- One frame of one zone (R210). -/
def State.zoneStep (s : State) (z : Nat) (x : Zone) : Zone :=
  if s.zoneCand z then { cand := x.cand + 1, dry := 0, wet := x.wet || decide (2 ≤ x.cand + 1) }
  else { cand := 0, dry := x.dry + 1, wet := x.wet && decide (x.dry + 1 < max 1 (fld (s.reg 0x240E) 15 11)) }

def wetMap (zs : List Zone) : Word := w16 (sumNat (zs.zipIdx.map (fun (z, i) => b2n z.wet * 2 ^ i)))

/-- SPILLZ as taken: 1 to 16 zones (Table CL-4). -/
def State.spillZones (s : State) : Nat := max 1 (min 16 (fld (s.reg 0x240E) 10 6))

def State.wetCount (s : State) : Nat := (s.cl.zones.filter (·.wet)).length

/-- STAT.SPILL and STAT.DROPLETS (R210). -/
def State.spillNow (s : State) : Bool := s.waterOn && decide (s.spillZones ≤ s.wetCount)
def State.dropNow (s : State) : Bool := s.waterOn && decide (1 ≤ s.wetCount) && decide (s.wetCount < s.spillZones)

/-- A rising edge of STAT.SPILL sets SPILLNEW, whatever made it rise (R210). -/
def State.spillEdge (s : State) : State :=
  if s.spillNow = s.cl.spill then s
  else State.setFlagIf { s with cl := { s.cl with spill := s.spillNow } } s.spillNow 0x24 5

def dryZones : List Zone := List.replicate 16 { cand := 0, dry := 0, wet := false }

/-- WMAP is updated 512 hc after a frame entry (R210), from a frame that had self images (R209). -/
def State.waterUpdate (s : State) : State :=
  let on := s.waterOn && s.cl.guard
  let zs := if on then s.cl.zones.zipIdx.map (fun (x, z) => s.zoneStep z x) else dryZones
  let new := (s.cl.zones.zip zs).any (fun p => !p.1.wet && p.2.wet)
  let s := { s with cl := { s.cl with zones := zs } }
  ((s.setReg 0x2410 (wetMap zs)).setFlagIf new 0x24 4).spillEdge

/-- A frame enters: what its images rest on (R209, R216, R309), and the update of WMAP 512 hc later (R210). -/
def State.waterEnter (s : State) (c : FrameCtx) : State :=
  let p := s.panel
  State.after { s with cl := { s.cl with
      drives := (List.range 64).filter (fun n => decide (p.d0 ≤ n) && decide (n ≤ p.d1) && !c.dflt.contains n)
      out := c.unsensed, guard := wbit (c.regs.get 0x0401) 1 } } 512 .waterMapUpdate

/-- What a DORMANT exit clears (R202, R210). -/
def State.clocheExit (s : State) : State :=
  State.setReg { s with cl := { s.cl with map := List.replicate 232 0xFFFF, trip := 0,
                                          zones := dryZones, spill := false } } 0x2410 0

/-- What DORMANT entry drops (R204). -/
def State.clocheDormant (s : State) : State := { s with cl := { s.cl with replanAt := [], tripDue := false } }

/-- CLOCHE.STAT (Table CL-2). -/
def State.clocheStat (s : State) : Nat :=
  b2n s.cl.charger + 2 * b2n s.spillNow + 4 * b2n s.dropNow + 8 * b2n (!s.waterOn)

/-- CLOCHE.NVAL (Table CL-5). -/
def State.noiseValue (s : State) : Word :=
  let w := s.reg 0x2414
  let i := fld w 7 0
  w16 (match fld w 9 8 with
    | 0 => s.cl.nT.getD i 0xFFFF
    | 1 => s.cl.nL.getD i 0xFFFF
    | _ => if i < 24 then 0xFFFF else s.cl.map.getD (i - 24) 0xFFFF)

end Machine
end Sys2Proof
end

