-- ==== Sys2Proof/Machine/DiagOps.lean ====
section
/-! DEFINITION. Diagnostics (R298 to R317): health checks and forming periods, declarations, the remap to LSP and
interpolation, LANE reports, drive faults, monitors, and the injection controls. -/

namespace Sys2Proof
namespace Machine

/-- A lane's health value (R299). -/
def Health.val (h : Health) : CxQ := CxQ.ofCx ((4096 : Rat) / h.ratio) h.x

/-- Angles in 1/256 cycle: x against the reference, and whether it lies beyond `tol` (R300, R316). -/
def relative (x h : CxQ) : Cx :=
  let re := x.re * h.re + x.im * h.im
  let im := x.im * h.re - x.re * h.im
  { re := re.num * im.den, im := im.num * re.den }

def phaseBeyond (z : Cx) (tol : Nat) : Bool := decide (tol * 2 ^ 16 < turnOf { re := z.re, im := z.im.natAbs } 24)

/-- The phase of x against h as HPH shows it, and whether it lies beyond `tol` (R300, R316). A zero has no phase: the
free value `free` stands in (log entry 3). -/
def healthPhase (free : Word) (x h : CxQ) (tol : Nat) : Word × Bool :=
  let z := relative x h
  if z = Cx.zero then (free &&& 0xFF, decide (tol < (signed 8 free.toNat).natAbs))
  else (w16 ((phase256 z % 256).toNat), phaseBeyond z tol)

/-- The first failing cause of a slot check: 1 STUCK, 2 MAG, 3 PHASE (R300, Table DG-2). -/
def checkCause (cfg : Word) (stuck beyond : Bool) (x h : CxQ) : Option Nat :=
  let n2 (z : CxQ) : Rat := z.re * z.re + z.im * z.im
  let tol : Rat := ((fld cfg 12 9 : Nat) : Rat)
  if stuck then some 1
  else if 256 * n2 x < n2 h * (16 - tol) * (16 - tol) ∨ n2 h * (16 + tol) * (16 + tol) < 256 * n2 x then some 2
  else if beyond then some 3
  else none

def satMag (z : CxQ) : Word := w16 (sat16 (roundRat z.mag).toNat)

/-- One health check (R300): HVAL, HPH, HFAIL, and the failing slots of the frame under way. -/
def State.healthCheck (s : State) (v : Health) : State :=
  match s.dg.href.getD v.lane none with
  | none => s
  | some h =>
    let x := v.val
    let (ph, beyond) := healthPhase (Config.freeWord s.free) x h (fld (s.force.get 0x2A09) 7 0)
    let s := ((s.setReg (laneAddr v.lane 0x28) (satMag x)).setReg (laneAddr v.lane 0x2A) ph).draw
    match checkCause (s.force.get 0x2A08) v.stuck beyond x h with
    | none => s
    | some c =>
      let old := s.dg.frameFails.find? (fun f => f.1 == v.lane)
      let new := match old with
        | some (_, n, c0) => (v.lane, n + 1, c0)
        | none => (v.lane, 1, c)
      State.setFlag { s with dg := { s.dg with frameFails := new :: s.dg.frameFails.filter (fun f => f.1 != v.lane) } } (0x10 + v.lane) 2

/-- A lane is declared failed (R300, R301, R315): FAILED and CAUSE, FAULT, and the remap that is due. An idle LSP
sets LANE_FAULT at once (R306). -/
def State.declare (s : State) (lane cause : Nat) (forming : Bool) (frame : Nat) : State :=
  if s.dg.failed.contains lane then s
  else
    let s := State.setFlag { s with dg := { s.dg with
      failed := s.dg.failed ++ [lane], causes := s.dg.causes ++ [(lane, cause)],
      declared := s.dg.declared ++ [(lane, cause, forming, frame)] } } (0x10 + lane) 3
    s.setFlagIf (decide (lane = 16) && s.dg.serves.isNone) 0x2A 0

/-- Does a declaration of this lane replace its frame (R304)? -/
def State.replaces (s : State) (lane : Nat) : Bool := decide (lane < 16) || s.dg.serves.isSome

/-- Mark a frame as replaced and due for its repetition. -/
def State.replaceFrame (s : State) (no : Nat) : State :=
  { s with dg := { s.dg with repeatDue := some no }
           scan := { s.scan with frames := s.scan.frames.map (fun c => if c.no = no then { c with replaced := true } else c) } }

/-- The frame check, decided with the check of M5 (R300). -/
def State.frameCheck (s : State) (c : FrameCtx) : State :=
  let hslot := max 1 (fld (s.force.get 0x2A08) 15 13)
  let bad := (s.dg.frameFails.filter (fun f => decide (hslot ≤ f.2.1))).mergeSort (fun a b => decide (a.1 ≤ b.1))
  let s := { s with dg := { s.dg with frameFails := [] } }
  if s.impulseFrame c then s
  else
    bad.foldl (fun s f =>
      let rep := s.replaces f.1
      let s := s.declare f.1 f.2.2 false c.no
      if rep then s.replaceFrame c.no else s) s

/-- Begin a forming period of `n` frames; a longer one under way goes on (R301). -/
def State.formStart (s : State) (n : Nat) : State :=
  { s with dg := { s.dg with forming := true, formLeft := if s.dg.forming then max n s.dg.formLeft else n,
                             formN := if s.dg.forming then s.dg.formN else 0,
                             formSum := if s.dg.forming then s.dg.formSum else List.replicate 17 CxQ.zero } }

/-- The median of magnitudes: the middle one, or the mean of the two middle ones. -/
def median (l : List Rat) : Rat :=
  let m := l.mergeSort (fun a b => decide (a ≤ b))
  let n := m.length
  if n % 2 = 1 then m.getD (n / 2) 0 else (m.getD (n / 2 - 1) 0 + m.getD (n / 2) 0) / 2

/-- A forming period ends (R301): HREF, and the lanes far from the median. -/
def State.formEnd (s : State) (frame : Nat) : State :=
  let n := s.dg.formN
  let s0 := { s with dg := { s.dg with forming := false, formN := 0, formLeft := 0, formSum := [], frameFails := [] } }
  if n = 0 then s0
  else
    let good := (List.range 17).filter (fun k => !s.dg.failed.contains k)
    let href := tab 17 (fun k => if good.contains k then some (meanCx (s.dg.formSum.getD k CxQ.zero) n) else s.dg.href.getD k none)
    let mag (k : Nat) : Rat := match href.getD k none with | some h => h.mag | none => 0
    let med := median (good.map mag)
    let s1 := good.foldl (fun s k => s.setReg (laneAddr k 0x29) (satMag ((href.getD k none).getD CxQ.zero)))
      { s0 with dg := { s0.dg with href := href } }
    (good.filter (fun k => decide (2 * mag k < med) || decide (2 * med < mag k))).foldl
      (fun s k => s.declare k 4 true frame) s1

/-- The health values of a mutual slot arrive (R299 to R301). The first checked frame with no HREF forms it (log
entry 27). -/
def State.healthSlot (s : State) (c : FrameCtx) (entry : Nat) (hs : List Health) : State :=
  let s := if !hs.isEmpty && s.dg.href.isEmpty && !s.dg.forming then s.formStart 1 else s
  let s :=
    if s.dg.forming then
      if hs.isEmpty then s
      else { s with dg := { s.dg with formN := s.dg.formN + 1,
                                      formSum := tab 17 (fun k => match hs.find? (fun h => h.lane == k) with
                                        | some h => (s.dg.formSum.getD k CxQ.zero).add h.val
                                        | none => s.dg.formSum.getD k CxQ.zero) } }
    else hs.foldl State.healthCheck s
  if entry ≠ 5 then s
  else if s.dg.forming then
    if s.dg.formLeft ≤ 1 then s.formEnd c.no else { s with dg := { s.dg with formLeft := s.dg.formLeft - 1 } }
  else s.frameCheck c

/-- The electrodes of a home lane are re-acquired from frame `frame` on (Table TR-1). -/
def State.reacqLane (s : State) (k frame : Nat) : State :=
  { s with tr := { s.tr with reacq := s.tr.reacq ++ tab 6 (fun j => { kind := .sense, elec := some (k + 16 * j), drive := none, frame := frame }) } }

/-- A LANE report falls due. While the core is halted no report is formed (R76). -/
def State.queueLane (s : State) (r : Report) : State := if s.ms.halted then s else s.queueLife r

/-- Queue a LANE report now, or 128 hc later where the declaration came from a forming period (R303, R304). -/
def State.laneReportAt (s : State) (late : Bool) (lane kind cause : Nat) : State :=
  let r := s.laneReport lane kind 0 cause
  if late then { s with dg := { s.dg with reportAt := s.dg.reportAt ++ [(s.now + 128, r)] } } else s.queueLane r

/-- The remap of one declared lane at its frame boundary (R303, R306). `frame` is the frame that starts here. -/
def State.remapLane (s : State) (frame : Nat) (d : Nat × Nat × Bool × Nat) : State :=
  let (lane, cause, forming, _) := d
  let s := { s with dg := { s.dg with declared := s.dg.declared.filter (fun x => x.1 != lane) } }
  if lane = 16 then
    match s.dg.serves with
    | none => s.laneReportAt forming 16 3 cause
    | some k =>
      let s := s.forceLane k
      let s := { s with dg := { s.dg with serves := none, interp := s.dg.interp ++ [k] } }
      ((s.reacqLane k frame).setFlag 0x2A 0).laneReportAt forming 16 4 cause
  else if s.lspFailed || s.dg.serves.isSome then
    let s := s.forceLane lane
    let s := { s with dg := { s.dg with interp := s.dg.interp ++ [lane] } }
    ((s.reacqLane lane frame).setFlag 0x2A 0).laneReportAt forming lane 2 cause
  else
    let s := s.forceLane lane
    let s := { s with dg := { s.dg with serves := some lane } }
    ((s.reacqLane lane frame).setFlag 0x2A 0).laneReportAt forming lane 1 cause

/-- The lane declared by FAILLANE at this boundary, as if the frame check of the frame that ends there had failed: its
repetition follows. A frame with a long REST has entered by then, and stays as it entered (R304, R315; log entry 59). -/
def State.forceFail (s : State) (lane : Nat) : State :=
  let no := s.scan.frameNo
  let under := s.scan.framed && !s.scan.based
  let rep := s.replaces lane && under
  let s := s.declare lane 5 false no
  if rep then s.replaceFrame no else s

/-- All remaps due at a frame boundary: FAILLANE, then LSP, then the lanes in order (R303, R305, R306, R315). `frame`
is the number of the frame that starts here. -/
def State.remapBoundary (s : State) (frame : Nat) : State :=
  let s := s.dg.forced.foldl State.forceFail { s with dg := { s.dg with forced := [] } }
  let order := s.dg.declared.filter (fun d => d.1 == 16) ++
    (s.dg.declared.filter (fun d => d.1 != 16)).mergeSort (fun a b => decide (a.1 ≤ b.1))
  order.foldl (fun s d => s.remapLane frame d) s

/-- Lane reports whose hc has come (R304). -/
def State.lateReports (s : State) : State :=
  let due := s.dg.reportAt.filter (fun r => decide (r.1 ≤ s.now))
  due.foldl (fun s r => s.queueLane { r.2 with ts := s.tb.tsc, epoch := s.epochNow })
    { s with dg := { s.dg with reportAt := s.dg.reportAt.filter (fun r => !decide (r.1 ≤ s.now)) } }

/-- Overloads of the frame that ends here are counted, and drives that reach OVLDN consecutive frames fail (R309). -/
def State.driveBoundary (s : State) : State :=
  let n := fld (s.force.get 0x2A09) 15 8
  let cnt := s.dg.ovlNow.map (fun d => (d, (getKey d s.dg.ovlCnt).getD 0 + 1))
  let s := { s with dg := { s.dg with ovlNow := [], ovlCnt := cnt } }
  let bad := ((cnt.filter (fun p => decide (0 < n) && decide (n ≤ p.2) && !s.dg.dflt.contains p.1)).map (·.1)).mergeSort (fun a b => decide (a ≤ b))
  bad.foldl (fun s d =>
    let s := { s with dg := { s.dg with dflt := s.dg.dflt ++ [d] } }
    let a := 0x2A20 + d / 16
    let s := (s.setReg a (s.reg a ||| w16 (2 ^ (d % 16)))).setFlag 0x2A 1
    s.queueLane (s.laneReport 0 5 d 0)) s

/-- Does a rail lie outside nominal ± SWTOL % (R313)? -/
def railOut (nominal mv pct : Nat) : Bool :=
  decide (100 * mv < nominal * (100 - pct)) || decide (nominal * (100 + pct) < 100 * mv)

/-- A word of page CALF among the factory area's words, nominal where they hold none (R283, Table CA-1). -/
def calfOf (ws : List (Nat × Word)) (off nominal : Nat) : Nat :=
  match getKey (0x2D00 + off) ws with | some w => w.toNat | none => nominal

def State.calf (s : State) (off nominal : Nat) : Nat := calfOf s.fac.words off nominal

/-- A trim code with its adjustment, limited to 0 to 255 (R284). -/
def trimSum (code : Nat) (adj : Word) : Nat := (clampInt 0 255 (code % 256 + signed 8 adj.toNat)).toNat

/-- The bandgap trim in force: a change of either sum takes effect at the next frame boundary (R284). -/
def State.refTrim (s : State) : Nat := trimSum (s.calf 0x09 128) (s.force.get 0x2C09)

/-- The fast-ticker trim in force: at the next frame boundary, in DORMANT at the next fast-ticker period (R284). -/
def State.tickTrim (s : State) : Nat :=
  trimSum (s.calf 0x0A 128) (if s.ms.mode = .dormant then s.reg 0x2C0A else s.force.get 0x2C0A)

/-- The monitors of R313 at a frame boundary of a host-clocked mode. -/
def State.monitorDiag (s : State) (m : Monitors) : State :=
  let t := m.temp + signed 16 (s.calf 0x0C 0)
  let s := s.setReg 0x2A18 (wordOfInt (clampInt (-32768) 32767 t))
  let s := (m.rails.zipIdx).foldl (fun s (p : Nat × Nat) => s.setReg (0x2A1A + p.2) (w16 p.1)) s
  let win := s.reg 0x2A19
  let out := decide (t < 16 * signed 8 (fld win 7 0)) || decide (16 * signed 8 (fld win 15 8) < t)
  let pct := fld (s.reg 0x2A1E) 3 0
  let outs := tab 4 (fun i => railOut ([1800, 1100, 1800, 1200].getD i 0) (m.rails.getD i 0) pct)
  let newS := (outs.zip s.dg.sOut).any (fun p => p.1 && !p.2)
  let newT := out && !s.dg.tOut
  let s := { s with dg := { s.dg with tOut := out, sOut := outs } }
  let s := s.setReg 0x2A1F (w16 (sumNat (outs.zipIdx.map (fun (o, i) => b2n o * 2 ^ i))))
  (s.setFlagIf newT 0x2A 3).setFlagIf newS 0x2A 4

/-- Lk.STAT and LSP.STAT (Table DG-4). -/
def State.laneStat (s : State) (k : Nat) : Nat :=
  let cause := (getKey k s.dg.causes).getD 0
  if k = 16 then
    b2n s.lspFailed + 2 * b2n s.dg.serves.isSome + 8 * cause + 64 * s.dg.serves.getD 0
  else b2n (s.dg.failed.contains k) + 2 * b2n (decide (s.dg.serves = some k)) + 4 * b2n (s.dg.interp.contains k) + 8 * cause

/-- DIAG.STAT.HOFF (R298). -/
def State.healthOff (s : State) : Bool := !wbit (s.force.get 0x2A01) 0 || decide (fld s.dg.dctrl 1 0 ≠ 0)

/-- The open-wire result of the selected electrode: OWRES and OWLEAK (R311, Table DG-3). `ow` lists class, C and IL
by electrode number; an electrode without a result reads 0. -/
def State.owSelected (s : State) : Nat × Nat × Int :=
  (getKey (s.reg 0x2A0E).toNat (s.dg.ow.zipIdx.map (fun (r, i) => (i, r)))).getD (0, 0, 0)

end Machine
end Sys2Proof
end

