-- ==== Sys2Proof/Machine/CalOps.lean ====
section
/-! DEFINITION. Calibration (R283 to R297): self-calibration, the system-calibration session and its solution, trace
measurement, the open-wire test (R310, R311) and the ticker trim. -/

namespace Sys2Proof
namespace Machine

/-- Values with the undefined ones drawn as free values (log entry 3). -/
def State.fillInts (s : State) : List (Option Int) → List Int × State
  | [] => ([], s)
  | some v :: t => let r := State.fillInts s t; (v :: r.1, r.2)
  | none :: t => let r := State.fillInts s.draw t; (((Config.freeWord s.free).toNat : Int) :: r.1, r.2)

def zeroLane : CalLane :=
  { ofs := [0, 0, 0, 0], plus := [0, 0, 0, 0], minus := [0, 0, 0, 0], skew := [Cx.zero, Cx.zero, Cx.zero, Cx.zero],
    mags := [0, 0, 0, 0, 0, 0], newOfs := [], newGain := [], newSkew := [], newRatio := [], vofs := [0, 0, 0, 0],
    vplus := [0, 0, 0, 0], vminus := [0, 0, 0, 0], powers := [0, 0, 0, 0] }

/-- The window samples of a slot: samples 512 to 2,559 (R9, R157). -/
def windowOf (codes : List Int) : List Int := codes.drop 512

/-- The sum of the window samples of each slice. -/
def sliceSums (xs : List Int) : List Int :=
  tab 4 (fun sl => sumInt ((xs.zipIdx.filter (fun p => p.2 % 4 == sl)).map (·.1)))

def addInts (a b : List Int) : List Int := List.zipWith (· + ·) a b
def addCxs (a b : List Cx) : List Cx := List.zipWith Cx.add a b

/-- e^(-i2π k/2048), in units of 2^-trigBits, for the raw converter grid (R286). -/
def rawTable : Array Cx := ((List.range 2048).map (fun k : Nat => cisTurn (-(Int.ofNat k)) 2048)).toArray

/-- The sum over the samples of one slice, or of all (`sl` = none), at a bin of the raw grid. -/
def rawBin (t : Array Cx) (b : Nat) (sl : Option Nat) (xs : List Int) : Cx :=
  xs.zipIdx.foldl (fun acc (p : Int × Nat) =>
    if (match sl with | some k => p.2 % 4 == k | none => true) then acc.add ((t.getD (b * p.2 % 2048) Cx.zero).scale p.1) else acc) Cx.zero

/-- The skew products of a slot: each slice's phasor against the sum of the four (Table CA-2). -/
def skewProducts (t : Array Cx) (xs : List Int) : List Cx :=
  let y := tab 4 (fun sl => rawBin t 480 (some sl) xs)
  let r := y.foldl Cx.add Cx.zero
  y.map (fun z => z.mul { re := r.re, im := -r.im })

/-- A sample after R159 with new slice words. -/
def newSamples (l : CalLane) (codes : List Int) : List Int :=
  codes.zipIdx.map (fun (x, n) => correctCode x (l.newOfs.getD (n % 4) 0) (l.newGain.getD (n % 4) 32768))

/-- The signed phase in units of 2^-24 turn. -/
def phase24 (z : Cx) : Int :=
  let k := turnOf z 24
  if 2 ^ 23 ≤ k then (k : Int) - 2 ^ 24 else k

/-- The new words at the end of their phases (Table CA-2); none where the manual's formula has no value. -/
def CalLane.offsets (l : CalLane) : List Int := l.ofs.map (fun v => clampInt (-2048) 2047 (roundDiv (16 * v) (16 * 512)))

def CalLane.gains (l : CalLane) : List (Option Int) :=
  let w := List.zipWith (· - ·) l.plus l.minus
  w.map (fun x => if x = 0 then none else
    some (clampInt 0 65535 (roundRat (32768 * ((sumInt w : Int) : Rat) / (4 * ((x : Int) : Rat))))))

def CalLane.skews (l : CalLane) (old : Nat → Int) : List (Option Int) :=
  let th := l.skew.map phase24
  let mean : Rat := ((sumInt th : Int) : Rat) / 4
  l.skew.zipIdx.map (fun (_, sl) => if l.skew.contains Cx.zero then none else
    some (clampInt (-32) 31 (old sl - roundRat (64 * 8192 * (((th.getD sl 0 : Int) : Rat) - mean) / (480 * 2 ^ 24)))))

def CalLane.ratios (l : CalLane) : List (Option Int) :=
  let q (a b : Nat) : Option Rat := if l.mags.getD a 0 = 0 then none else some (((l.mags.getD b 0 : Nat) : Rat) / ((l.mags.getD a 0 : Nat) : Rat))
  let lim (x : Int) : Int := clampInt 1 65535 x
  let r2 := (q 0 1).map (fun x => lim (roundRat (4096 * x)))
  let r4 := r2.bind (fun r => (q 2 3).map (fun x => lim (roundRat (((r : Int) : Rat) * x))))
  let r8 := r4.bind (fun r => (q 4 5).map (fun x => lim (roundRat (((r : Int) : Rat) * x))))
  [r2, r4, r8]

/-- |X| in units of 2^-16 nu (log entry 8). -/
def mag16 (z : Cx) : Nat := isqrt (z.norm2.toNat * 2 ^ 32)

/-- One lane's part of a self-calibration slot (Table CA-2). -/
def State.calLaneSlot (s : State) (t t5 : Array Cx) (d : SlotData) (lane : Nat) (l : CalLane) : CalLane :=
  let k := s.ca.k
  let codes := d.codes.getD lane []
  let xs := windowOf codes
  if k < 4 then l
  else if k < 20 then { l with ofs := addInts l.ofs (sliceSums xs) }
  else if k < 32 then { l with plus := addInts l.plus (sliceSums xs) }
  else if k < 44 then { l with minus := addInts l.minus (sliceSums xs) }
  else if k < 68 then { l with skew := addCxs l.skew (skewProducts t xs) }
  else if k < 104 then
    let z := finishRec (binSum t5 (s.laneDecim d lane).1 120) (trigBits + 8)
    { l with mags := l.mags.modify ((k - 68) / 6) (· + mag16 z) }
  else
    let ys := windowOf (newSamples l codes)
    if k < 108 then { l with vofs := addInts l.vofs (sliceSums ys) }
    else if k < 110 then { l with vplus := addInts l.vplus (sliceSums ys) }
    else if k < 112 then { l with vminus := addInts l.vminus (sliceSums ys) }
    else { l with powers := List.zipWith (fun p b => p + (rawBin t b none ys).norm2.toNat) l.powers [480, 32, 544, 992] }

/-- Does the lane pass verification (R287)? The spans agree within 0.05% of their mean (log entry 28). -/
def CalLane.passes (l : CalLane) : Bool :=
  let spans := List.zipWith (· - ·) l.vplus l.vminus
  let hi := spans.foldl max (spans.headD 0)
  let lo := spans.foldl min (spans.headD 0)
  l.vofs.all (fun v => decide (2 * v.natAbs ≤ 4 * 512))
    && decide (4 * (hi - lo) * 2000 ≤ sumInt spans)
    && (l.powers.drop 1).all (fun p => decide (p * 1584893192 ≤ l.powers.headD 0 * 100))
    && (List.zipWith (fun (r : Int) (n : Nat) => decide ((r - n).natAbs * 100 ≤ 6 * n)) l.newRatio [8192, 16384, 32768]).all id

/-- The lanes' new words at the end of a phase, undefined ones drawn. -/
def State.calPhaseEnd (s : State) : State :=
  let upd (s : State) (f : Nat → CalLane → List (Option Int)) (set : CalLane → List Int → CalLane) : State :=
    (s.ca.lanes.zipIdx).foldl (fun s (p : CalLane × Nat) =>
      let (v, s) := s.fillInts (f p.2 p.1)
      { s with ca := { s.ca with lanes := s.ca.lanes.set p.2 (set p.1 v) } }) s
  match s.ca.k with
  | 19 => upd s (fun _ l => l.offsets.map some) (fun l v => { l with newOfs := v })
  | 43 => upd s (fun _ l => l.gains) (fun l v => { l with newGain := v })
  | 67 => upd s (fun k l => l.skews (fun sl => signed 6 (s.force.get (laneAddr k (0x20 + sl))).toNat)) (fun l v => { l with newSkew := v })
  | 103 => upd s (fun _ l => l.ratios) (fun l v => { l with newRatio := v })
  | _ => s

/-- The new words of one lane (R287). -/
def State.writeLane (s : State) (k : Nat) (l : CalLane) : State :=
  let put (s : State) (off : Nat) (m : Word) (v : List Int) : State :=
    (v.zipIdx).foldl (fun s (p : Int × Nat) => s.setReg (laneAddr k (off + p.2)) (wordOfInt p.1 &&& m)) s
  put (put (put (put s 0x18 0xFFF l.newOfs) 0x1C 0xFFFF l.newGain) 0x20 0x3F l.newSkew) 0x24 0xFFFF l.newRatio

/-- Self-calibration ends with slot 119 (R287, R288). -/
def State.selfcalEnd (s : State) : State :=
  let lanes := s.ca.lanes.zipIdx
  let s := (lanes.filter (fun p => p.1.passes)).foldl (fun s p => s.writeLane p.2 p.1) s
  let bad := (lanes.filter (fun p => !p.1.passes)).map (·.2)
  let s := { s with ca := { s.ca with lspFail := bad.contains 16 } }
  (s.setReg 0x2C0C (w16 (sumNat ((bad.filter (· < 16)).map (fun k => 2 ^ k))))).setFlagIf (!bad.isEmpty) 0x2C 4

/-- The electrode of position `i` in a round: 0 to 95 sense, 96 to 159 drive (R293, R310). -/
def roundElec (round i : Nat) : Nat := 16 * round + i

/-- τ in ns from the two fits in ps (R146), within the valid range. -/
def traceTau (t1 t2 : Option Rat) : Option Nat :=
  match t1, t2 with
  | some a, some b =>
    let d := b - a
    let x := 3 * a - b
    if 20000 ≤ d ∧ d ≤ 800000 ∧ 0 ≤ x ∧ 2 * a ≤ 11 * d then some (min 1023 (roundRat (x / 2000)).toNat) else none
  | _, _ => none

/-- The τ word of an electrode. -/
def tauAddr (e : Nat) : Nat := if e < 96 then laneAddr (e % 16) (0x10 + e / 16) else 0x0640 + (e - 96)

/-- One result of CALTRACE (R293). -/
def State.traceResult (s : State) (e : Nat) (tau : Option Nat) : State :=
  match tau with
  | some v => s.setReg (tauAddr e) (w16 v)
  | none =>
    let w := s.reg 0x2C0D
    let first : Nat := if fld w 15 8 = 0 then (if e < 96 then e else e - 96 + 128) else w.toNat % 256
    (s.setReg 0x2C0D (w16 (first + 256 * min 255 (fld w 15 8 + 1)))).setFlag 0x2C 3

/-- The test current in nA (Table DG-3). -/
def State.owCurrent (s : State) : Nat := 500 * 2 ^ fld (s.reg 0x2A0A) 1 0

/-- The samples taken before the voltage reaches 1.0 V from bias (R310). -/
def owSamples (v : List Int) : List Int := v.takeWhile (fun x => decide (x.natAbs < 1000000))

/-- The slope in V/s of one electrode's voltage (R310): that of the least-squares line through those samples, one each 4 hc
(R157); none, taken as infinite, where there are fewer than 4. The rule fits a slope and states no method (DESIGN CHOICE, log
entry 60). -/
def owSlope (decl : Nat) (volts : List Int) : Option Rat :=
  let v := owSamples volts
  let n : Int := v.length
  if n < 4 then none
  else
    let sx := sumInt ((List.range v.length).map (fun i => (i : Int)))
    let sxx := sumInt ((List.range v.length).map (fun i => (i * i : Nat)))
    let sxy := sumInt (v.zipIdx.map (fun (p : Int × Nat) => p.1 * p.2))
    some (((n * sxy - sx * sumInt v : Int) : Rat) / ((n * sxx - sx * sx : Int) : Rat) * (decl : Rat) / 4000)

/-- C in 0.25 pF and IL in nA from the two slopes in V/s; none where the formula has no value (R310). -/
def owValues (i : Nat) (up dn : Option Rat) : Rat × Option Rat :=
  match up, dn with
  | some u, some d =>
    if u = d then (1000000, none)
    else (8000 * (i : Rat) / (u - d), some ((i : Rat) * (u + d) / (u - d)))
  | _, _ => (0, none)

/-- The class, C and IL of one electrode (R311); an IL with no value is a free value. -/
def State.owResult (s : State) (served : Bool) (up dn : Option Rat) : (Nat × Nat × Int) × State :=
  if !served then ((4, 0, 0), s)
  else
    let (c, il) := owValues s.owCurrent up dn
    let cq := (clampInt 0 8191 (roundRat c)).toNat
    let low : Rat := (((s.reg 0x2A0B).toNat : Nat) : Rat)
    let high : Rat := (((s.reg 0x2A0C).toNat : Nat) : Rat)
    let lim : Rat := (((s.reg 0x2A0D).toNat : Nat) : Rat)
    match il with
    | some q =>
      let cls := if c < low then 1 else if high < c then 2 else if lim < |q| then 3 else 0
      ((cls, cq, clampInt (-32768) 32767 (roundRat q)), s)
    | none => ((if up.isNone || dn.isNone || decide (c < low) then 1 else 2, cq, signed 16 (Config.freeWord s.free).toNat), s.draw)

/-- What a slot of CALTRACE or OPENTEST measures for each electrode of its round (R146, R310). -/
def State.roundFits (s : State) (d : SlotData) : List (Option Rat) :=
  if s.ca.act = some .openw then d.volts.map (owSlope s.clk.decl)
  else d.fits.map (fun f => f.map (fun (x : Int) => (x : Rat)))

/-- A slot of CALTRACE or OPENTEST: the first slot of a round keeps its fits, the second gives the results. -/
def State.roundSlot (s : State) (d : SlotData) : State :=
  let k := s.ca.k
  if k < 4 then s
  else if k % 2 = 0 then { s with ca := { s.ca with firstFit := s.roundFits d } }
  else
    let round := (k - 4) / 2
    (List.range 16).foldl (fun s i =>
      let e := roundElec round i
      let a := s.ca.firstFit.getD i none
      let b := (s.roundFits d).getD i none
      match s.ca.act with
      | some .trace => s.traceResult e (traceTau a b)
      | some .openw =>
        let (r, s) := s.owResult (s.laneFor i).isSome a b
        { s with dg := { s.dg with ow := s.dg.ow.set e r } }
      | _ => s) s

/-- The number of slots of an activity (R286, R293, R310). -/
def CalKind.slots : CalKind → Nat
  | .boot | .selfcal => 120
  | .trace | .openw => 24

/-- An activity begins at its frame boundary. -/
def State.calBegin (s : State) (a : CalKind) : State :=
  let s := { s with ca := { s.ca with act := some a, k := 0, lanes := List.replicate 17 zeroLane, firstFit := [] } }
  match a with
  | .trace => s.setReg 0x2C0D 0
  | .openw => { s with dg := { s.dg with ow := List.replicate 160 (4, 0, 0) } }
  | _ => s

/-- A limited output of any lane's decimator sets SAT (R179). -/
def State.calSat (s : State) (d : SlotData) : State :=
  s.setFlagIf ((List.range 17).any (fun k => (s.laneDecim d k).2.2)) 0x22 0

/-- A completed calibration slot (R286, R293, R310): its part of the activity, and the activity's result after its last
slot. -/
def State.calSlot (s : State) (d : SlotData) : State :=
  match s.ca.act with
  | none => s
  | some a =>
    let s := s.calSat d
    let s := match a with
      | .boot | .selfcal =>
        let t := rawTable
        let t5 := dftTable
        State.calPhaseEnd { s with ca := { s.ca with lanes := s.ca.lanes.zipIdx.map (fun (l, i) => s.calLaneSlot t t5 d i l) } }
      | _ => s.roundSlot d
    let k := s.ca.k + 1
    let s := { s with ca := { s.ca with k := k } }
    if k < a.slots then s
    else match a with
      | .boot => s.selfcalEnd
      | .selfcal => s.selfcalEnd.cmdDone
      | .trace => s.cmdDone
      | .openw =>
        let n := (s.dg.ow.filter (fun r => r.1 != 0 && r.1 != 4)).length
        ((s.setReg 0x2A11 (w16 n)).setFlagIf (decide (0 < n)) 0x2A 2).cmdDone

/-- Lk.GAIN.RANGE after a completed calibration slot (Tables FE-4 and CA-2): `k` slots of the activity have completed. -/
def State.showCalRange (s : State) : State :=
  match s.ca.act.bind (fun a => a.range (s.ca.k - 1)) with
  | some r => (List.range 17).foldl (fun s k => s.showRange k r) s
  | none => s

/-- A calibration command or OPENTEST runs: the test DAC does not inject (R312). -/
def State.calRuns (s : State) : Bool :=
  s.ca.due.isSome || s.ca.act.isSome || s.ca.meas.isSome || s.ca.solve.isSome || s.ca.ticks.isSome

/-- A session's content is discarded (R292). A CALPOINT in progress completes as rejected; a CALZERO in progress starts
its count again (log entry 29). -/
def State.calDiscard (s : State) : State :=
  if s.ca.zero.isNone && s.ca.points.isEmpty && s.ca.meas.isNone then s
  else
    let m := s.ca.meas
    let s := State.setFlag { s with ca := { s.ca with zero := none, points := [] } } 0x2C 6
    match m with
    | some ⟨some _, _, _, _, _, _⟩ => (State.setFlag { s with ca := { s.ca with meas := none } } 0x2C 0).cmdDone
    | some ⟨none, _, _, _, _, _⟩ =>
      { s with ca := { s.ca with meas := some { point := none, counted := 0, seen := 0, bad := false, sum := [], pos := [] } } }
    | none => s

/-- The fixture positions (R289): PS(c) and PD(r). -/
def fixture (n c : Nat) : Rat := ((n : Nat) : Rat) * ((2 * c + 1 : Nat) : Rat) / 6 - 1 / 2

/-- A frame's peaks on the session's delta image: electrode pair and the positions before POFS (R221, R222, R289). -/
def State.calPeaks (s : State) (img : List (List Rat)) : List (Nat × Nat × Rat × Rat) :=
  let p := s.panel
  let lvl : Rat := (((s.force.get 0x2508).toNat : Nat) : Rat)
  (List.range 96).flatMap (fun m => (List.range 64).filterMap (fun n =>
    if p.has m n && isPeak p img lvl m n then
      let ar := around img p m n
      some (m, n, s.axisIndex 0 (m - p.s0) p.ns (ar.map (fun (i, _, d) => (i, d))),
        s.axisIndex 1 (n - p.d0) p.nd (ar.map (fun (_, j, d) => (j, d))))
    else none))

/-- Does a frame count toward a measurement (R289)? -/
def State.calCounts (s : State) (cells : List (List Cell)) : Bool :=
  let p := s.panel
  (List.range 96).all (fun m => (List.range 64).all (fun n =>
    !p.has m n || (match (cellAt cells m n).tag with | .valid | .ranged | .spare => true | _ => false)))

/-- A point's measurement ends (R289). -/
def State.pointEnd (s : State) (pt : Nat) (m : CalMeas) (ok : Bool) : State :=
  let s := { s with ca := { s.ca with meas := none, points := s.ca.points.filter (fun q => q.p != pt) } }
  let s :=
    if ok then
      let z := s.ca.zero.getD []
      let mean (i j : Nat) : Rat := imgAt z i j - imgAt m.sum i j / ((m.counted : Nat) : Rat)
      let best := (List.range 96).foldl (fun b i => (List.range 64).foldl (fun (b : Nat × Nat) j =>
        if s.panel.has i j && (!s.panel.has b.1 b.2 || decide (mean b.1 b.2 < mean i j)) then (i, j) else b) b) (s.panel.s0, s.panel.d0)
      let q : CalPt := { p := pt, sense := best.1, drive := best.2, delta := mean best.1 best.2,
                         pS := sumRat (m.pos.map (·.1)) / ((m.counted : Nat) : Rat), pD := sumRat (m.pos.map (·.2)) / ((m.counted : Nat) : Rat) }
      { s with ca := { s.ca with points := s.ca.points ++ [q] } }
    else s.setFlag 0x2C 0
  s.cmdDone

/-- A frame value reaches the measurement under way (R289). A point that fails the test of a counted frame is rejected after 64 frames
(the edge on two peaks; DEDUCED for a peak out of place, log entry 75). -/
def State.calFrame (s : State) (c : FrameCtx) : State :=
  match s.ca.meas with
  | none => s
  | some m =>
    let cells := c.cells false
    let m := { m with seen := m.seen + 1 }
    let m :=
      if s.calCounts cells then
        let mag := tab 96 (fun i => tab 64 (fun j => if s.panel.has i j then (cellAt cells i j).u.mag else 0))
        let m := { m with counted := m.counted + 1, sum := tab 96 (fun i => tab 64 (fun j => imgAt m.sum i j + imgAt mag i j)) }
        match m.point with
        | none => m
        | some pt =>
          let z := s.ca.zero.getD []
          let p := s.panel
          match s.calPeaks (tab 96 (fun i => tab 64 (fun j => if p.has i j then imgAt z i j - imgAt mag i j else 0))) with
          | [(i, j, ps, pd)] =>
            let near (x f : Rat) : Bool := decide (|x - f| ≤ 2)
            let ok := near ((i - p.s0 : Nat) : Rat) (fixture p.ns (pt % 3)) && near ((j - p.d0 : Nat) : Rat) (fixture p.nd (pt / 3))
            { m with bad := m.bad || !ok, pos := m.pos ++ [(ps, pd)] }
          | _ => { m with bad := true }
      else m
    let s := { s with ca := { s.ca with meas := some m } }
    match m.point with
    | none =>
      if m.counted < 16 then s
      else
        let z := tab 96 (fun i => tab 64 (fun j => imgAt m.sum i j / 16))
        State.cmdDone { s with ca := { s.ca with meas := none, zero := some z } }
    | some pt =>
      if m.counted = 16 ∧ m.bad = false then s.pointEnd pt m true
      else if 64 ≤ m.seen then s.pointEnd pt m false else s

/-- log2 of a positive rational in units of 2^-40 (log entry 8). -/
def logSteps : Nat → Nat → Int → Int
  | 0, _, a => a
  | k + 1, y, a =>
    let z := y * y / 2 ^ 62
    if 2 ^ 63 ≤ z then logSteps k (z / 2) (2 * a + 1) else logSteps k z (2 * a)

def log2Fix (q : Rat) : Int :=
  let n := q.num.toNat
  let e : Int := (Nat.log2 n : Int) - Nat.log2 q.den
  let scale (e : Int) : Nat := if 0 ≤ e then n * 2 ^ 62 / (q.den * 2 ^ e.toNat) else n * 2 ^ 62 * 2 ^ (-e).toNat / q.den
  if scale e < 2 ^ 62 then (e - 1) * 2 ^ 40 + logSteps 40 (scale (e - 1)) 0 else e * 2 ^ 40 + logSteps 40 (scale e) 0

/-- 2^(f/2^40) for a fraction f, in units of 2^-62, with the root 2^(2^-i) at each step. -/
def expSteps (f : Nat) : Nat → Nat → Nat → Nat
  | 0, _, a => a
  | k + 1, r, a =>
    let r := isqrt (r * 2 ^ 62)
    expSteps f k r (if f / 2 ^ k % 2 = 1 then a * r / 2 ^ 62 else a)

/-- round(2^(x/2^40)), limited to 65,536. -/
def exp2Round (x : Int) : Nat :=
  let k := x / 2 ^ 40
  let v := expSteps (x % 2 ^ 40).toNat 40 (2 ^ 63) (2 ^ 62)
  if k < 0 then 1 else if 16 ≤ k then 65536 else (v * 2 ^ k.toNat + 2 ^ 61) / 2 ^ 62

def meanInt (l : List Int) : Int := roundDiv (sumInt l) (max 1 l.length)

/-- Three values at three positions, interpolated linearly and flat beyond them (R290, step 2). -/
def interp3 (x v : Nat → Rat) (t : Rat) : Rat :=
  if t ≤ x 0 then v 0
  else if t ≤ x 1 then v 0 + (v 1 - v 0) * (t - x 0) / (x 1 - x 0)
  else if t ≤ x 2 then v 1 + (v 2 - v 1) * (t - x 1) / (x 2 - x 1)
  else v 2

/-- Limits of R290: the word and whether it was limited. -/
def limitGain (v : Nat) : Nat × Bool := (max 4096 (min 65535 v), decide (v < 4096) || decide (65535 < v))
def limitOfs (v : Int) : Int × Bool := (clampInt (-127) 127 v, decide (v < -127) || decide (127 < v))

/-- Packed offset words of an axis (Table CA-5). -/
def packOfs (base : Nat) (l : List Int) : List (Nat × Word) :=
  tab (l.length / 2) (fun k => (base + k, w16 ((l.getD (2 * k) 0 % 256).toNat + 256 * (l.getD (2 * k + 1) 0 % 256).toNat)))

/-- The values of CALSOLVE (R290): the words, whether a gain and whether an offset was limited. -/
def State.solveWords (s : State) : (List (Nat × Word) × Bool × Bool) × State :=
  let p := s.panel
  let z := s.ca.zero.getD []
  let pt (k : Nat) : CalPt := (s.ca.points.find? (fun q => q.p == k)).getD ⟨k, 0, 0, 0, 0, 0⟩
  let rho (k : Nat) : Rat := (pt k).delta / imgAt z (pt k).sense (pt k).drive
  let mean3 (f : Nat → Rat) : Rat := (f 0 + f 1 + f 2) / 3
  let bar : Rat := sumRat (tab 9 rho) / 9
  let xs (c : Nat) : Rat := fixture p.ns c
  let xd (r : Nat) : Rat := fixture p.nd r
  let ms := (List.range 96).filter (fun m => decide (p.s0 ≤ m) && decide (m ≤ p.s1))
  let ns := (List.range 64).filter (fun n => decide (p.d0 ≤ n) && decide (n ≤ p.d1))
  let rs := tab 96 (fun m => interp3 xs (fun c => mean3 (fun r => rho (3 * r + c))) ((m - p.s0 : Nat) : Rat))
  let rd := tab 64 (fun n => interp3 xd (fun r => mean3 (fun c => rho (3 * r + c))) ((n - p.d0 : Nat) : Rat))
  let e (n m : Nat) : Rat := imgAt z m n * rs.getD m 0 * rd.getD n 0 / bar
  let good := ns.all (fun n => ms.all (fun m => decide (0 < e n m)))
  let target := (s.reg 0x2C08).toNat
  let lg : List (List Int) := if good then tab 64 (fun n => tab 96 (fun m => if p.has m n then log2Fix (e n m) else 0)) else []
  let at_ (n m : Nat) : Int := (lg.getD n []).getD m 0
  let all := meanInt (ns.flatMap (fun n => ms.map (at_ n)))
  let dg : List (Option Int) := ns.map (fun n => if good then some ((exp2Round (14 * 2 ^ 40 + all - meanInt (ms.map (at_ n))) : Nat) : Int) else none)
  let (dv, s1) := s.fillInts dg
  let dl := dv.map (fun v => limitGain v.toNat)
  let dlog := dl.map (fun v => log2Fix ((v.1 : Nat) : Rat))
  let sg : List (Option Int) := ms.map (fun m =>
    if !good then none
    else if target = 0 then some 0
    else some ((exp2Round (14 * 2 ^ 40 + log2Fix ((target : Nat) : Rat)
      - meanInt (ns.zipIdx.map (fun (n, i) => dlog.getD i 0 - 14 * 2 ^ 40 + at_ n m))) : Nat) : Int))
  let (sv, s2) := s1.fillInts sg
  let sl := sv.map (fun v => limitGain v.toNat)
  let pick (keys : List Nat) (vals : List (Nat × Bool)) (k : Nat) : Nat :=
    match (keys.zip vals).find? (fun q => q.1 == k) with | some (_, v, _) => v | none => 16384
  let es (c : Nat) : Rat := mean3 (fun r => xs c - (pt (3 * r + c)).pS)
  let ed (r : Nat) : Rat := mean3 (fun c => xd r - (pt (3 * r + c)).pD)
  let os := tab 96 (fun m => if ms.contains m then limitOfs (roundRat (256 * interp3 xs es ((m - p.s0 : Nat) : Rat))) else (0, false))
  let od := tab 64 (fun n => if ns.contains n then limitOfs (roundRat (256 * interp3 xd ed ((n - p.d0 : Nat) : Rat))) else (0, false))
  let words := tab 64 (fun n => (0x2C10 + n, w16 (pick ns dl n))) ++ tab 96 (fun m => (0x2C50 + m, w16 (pick ms sl m)))
    ++ packOfs 0x2CB0 (os.map (·.1)) ++ packOfs 0x2CE0 (od.map (·.1))
  ((words, (dl ++ sl).any (·.2), (os ++ od).any (·.2)), s2)

/-- CALSOLVE completes at a frame boundary (R290). -/
def State.solveBoundary (s : State) : State :=
  match s.ca.solve with
  | none => s
  | some ws =>
    State.cmdDone (ws.foldl (fun s w => s.setReg w.1 w.2) { s with ca := { s.ca with solve := none } })

/-- CALSOLVE computes (R290): the values wait for the next frame boundary. -/
def State.solveStart (s : State) : State :=
  let ((ws, g, o), s) := s.solveWords
  ((s.setFlagIf g 0x2C 1).setFlagIf o 0x2C 2 |> fun s => { s with ca := { s.ca with solve := some ws } })

/-- A measurement of R52 reaches CALTICK (R294). -/
def State.tickMeasure (s : State) (n : Nat) : State :=
  match s.ca.ticks with
  | none => s
  | some l =>
    let l := l ++ [n]
    if l.length < 16 then { s with ca := { s.ca with ticks := some l } }
    else
      let mean : Rat := ((sumNat l : Nat) : Rat) / 16
      let e : Rat := ((s.clk.decl * 1024000 : Nat) : Rat) / 1048576 / mean - 1
      let s := { s with ca := { s.ca with ticks := none } }
      let s :=
        if 8 / 100 < |e| then s.setFlag 0x2C 5
        else s.setReg 0x2C0A (wordOfInt (clampInt (-128) 127 (signed 8 (s.reg 0x2C0A).toNat - roundRat (500 * e))) &&& 0xFF)
      s.cmdDone

/-- CALU.PTMASK and CALU.STAT (Tables CA-3, CA-4). -/
def State.ptMask (s : State) : Nat := sumNat (s.ca.points.map (fun q => 2 ^ q.p))
def State.caluStat (s : State) : Nat := b2n s.ca.zero.isSome + 2 * b2n s.ca.lspFail

end Machine
end Sys2Proof
end

