-- ==== Sys2Proof/Machine/ScanOps.lean ====
section
/-! DEFINITION. The slot sequencer: slots and their starts (R9, R107, R164), the blanking gate (R148 to R153, R376,
R377), frozen slots (R46, R47), the injected sequence (R165 to R172), and the drive state that follows from the
position in the frame (R126 to R130). -/

namespace Sys2Proof
namespace Machine

/-- A slot's length in hc (R9). -/
def slotHc : Nat := 10240

/-- BLANK is ignored (R152, R153). -/
def State.blankIgnored (s : State) : Bool := s.scan.stuckIgn || s.scan.chatIgn

/-- The BLANK limit of R153 in hc. -/
def State.blankLimit (s : State) : Nat := s.hcOf (8 * max 1 (s.reg 0x0609).toNat)

/-- BLANK and VSYNC are sampled (R376). -/
def State.sampled (s : State) : Bool := s.hcDriven && decide (s.clk.decl ≠ 0)

/-- The raw BLANK level (R148). -/
def State.blankRaw (s : State) : Bool := s.scan.blkBall != wbit (s.reg 0x0608) 1

/-- The first hc of a slot or of a period that belongs to none: absence and stops count from here (R46, R48). -/
def State.periodStart (s : State) : State := { s with clk := { s.clk with stops := 0, cum := 0, tripped := false } }

/-- A slot's h = 0: its pause count, edges and absence start again, and an asserted BLANK pauses it (R46, R149, R150,
R152). A mutual slot of a frame records its first hc, hcpos `pos` (R188). -/
def State.slotBegin (s : State) (pos : Nat) : State :=
  let s := { s with
    scan := { s.scan with edges := 0, marked := false, pauseCount := 0, chatIgn := false, tailAt := none,
                          paused := s.scan.blkEff && !s.scan.stuckIgn }
    clk := { s.clk with stops := 0, cum := 0, tripped := false } }
  match s.scan.slot with
  | some (.regular e) =>
    if e < 6 then
      { s with scan := { s.scan with frames := s.scan.frames.map (fun c =>
          if c.no = s.scan.frameNo then { c with starts := setKey e pos c.starts } else c) } }
    else s
  | _ => s

/-- A slot starts `lead` hc from now (0: on this hc). -/
def State.startSlot (s : State) (k : SlotKind) (lead : Nat) : State :=
  let s := { s with scan := { s.scan with slot := some k, h := 0, lead := lead, paused := false, rest := false } }
  if lead = 0 then s.slotBegin s.tb.hcpos else s

/-- A slot runs on this hc: h counts, and the slot is not waiting for its h = 0. -/
def State.slotRuns (s : State) : Bool := s.scan.slot.isSome && decide (s.scan.lead = 0)

/-- RAMP in force (R128, Table RK-1). -/
def State.ramp (s : State) : Nat := (s.force.get 0x0409).toNat

/-- The slot of this hc and its hc count: on the hc on which a slot ended, that slot and its last hc. -/
def State.slotNow (s : State) : Option (SlotKind × Nat) :=
  match s.scan.ended with
  | some e => some (e.slot, slotHc - 1)
  | none => s.scan.slot.map (fun k => (k, s.scan.h))

/-- The first hc that has not run yet: this one, or the next where this one has been counted. -/
def State.hcFrom (s : State) : Nat := s.now + b2n s.tb.counted

/-- The hc that a ramp stands at: in a relock of its period it holds at the last hc before (R45, R48). -/
def State.rampClock (s : State) : Int := if s.clk.relock = some .period then (s.clk.lockAt : Int) - 1 else s.now

/-- The hc of the ramp that have passed; negative before its first hc. -/
def State.rampAge (s : State) : Int := s.rampClock - s.inj.rampFrom

/-- This hc is the last of a re-entry ramp that INJECTED_SEQUENCE_END has closed. -/
def State.rampLast (s : State) : Bool :=
  s.inj.startedSince && decide (s.inj.phase = InjPhase.idle) && decide (s.rampAge + 1 = (s.ramp : Nat))

/-- Where the drive stands: in a regular slot at hc h, in an exit or a re-entry ramp of the age given, or nowhere. -/
inductive DrivePos where
  | slot (e h : Nat)
  | exit (age : Int)
  | reentry (age : Int)
  | off
  deriving DecidableEq, Repr

def State.drivePos (s : State) : DrivePos :=
  let ofSlot (k : Option (SlotKind × Nat)) : DrivePos := match k with | some (.regular e, h) => .slot e h | _ => .off
  if s.scan.ended.isSome then ofSlot s.slotNow
  else match s.inj.phase with
  | .exitRamp => .exit s.rampAge
  | .slots => .off
  | .reentryRamp => .reentry s.rampAge
  | _ => if s.rampLast then .reentry s.rampAge else ofSlot s.slotNow

/-- Where the accumulators stood `d` hc ago, in hc from the first hc of M0: in a regular slot by R127; in an exit ramp they
keep advancing, and in a re-entry ramp they run into the state of the slot that follows (R166). -/
def State.rakePosAt (s : State) (d : Nat) : Option Int :=
  match s.drivePos with
  | .slot e h => some ((slotHc * e + h : Nat) - d)
  | .exit a => s.inj.pos.map (fun p => p + a - d)
  | .reentry a => some ((slotHc * s.inj.resume.getD 0 : Nat) - s.ramp + a - d)
  | .off => none

def State.rakePos (s : State) : Option Int := s.rakePosAt 0

/-- An accumulator that starts at `phase` and advances by `bin` (R126). -/
def accAt (phase bin : Nat) (pos : Int) : Nat := ((phase + bin * pos) % 8192).toNat

/-- The accumulator of Dn as it stood `d` hc ago (R126, R127, R166). -/
def State.rakeAccAt (s : State) (d n : Nat) : Nat :=
  let t := s.tone.active.getD n ⟨0, 0⟩
  match s.rakePosAt d with
  | some p => accAt t.phase t.bin p
  | none => 0

def State.rakeAcc (s : State) (n : Nat) : Nat := s.rakeAccAt 0 n

/-- The guard accumulator as it stood `d` hc ago, 0 at the first hc of SC (R130, R166). -/
def State.guardAccAt (s : State) (d : Nat) : Nat :=
  match s.rakePosAt d with
  | some p => if (6 * slotHc : Nat) ≤ p + s.ramp then accAt 0 s.tone.gbin (p - (6 * slotHc : Nat)) else 0
  | none => 0

def State.guardAcc (s : State) : Nat := s.guardAccAt 0

/-- The envelope counts of tone and guard, 0 to RAMP, at hc h of regular entry e (R128, Table RK-1). With GUARDEN = 0 the
drive is silent through SC (R130). -/
def State.toneCount (s : State) (e h : Nat) : Nat :=
  if e = 0 then min h s.ramp else if e < 6 then s.ramp else if e = 6 ∧ wbit (s.force.get 0x0401) 1 then s.ramp - h else 0

def State.guardCount (s : State) (e h : Nat) : Nat := if e = 6 then min h s.ramp else if e = 7 then s.ramp - h else 0

/-- An envelope count `f` as it stood `d` hc ago (R128, R166): an exit ramp counts down from `from_`, a re-entry ramp up from 0
where the slot that follows has it `full`; before an exit ramp's first hc it stood as the frame had it. -/
def State.envAt (s : State) (d : Nat) (f : Nat → Nat → Nat) (from_ : Nat) (full : Bool) : Nat :=
  match s.drivePos with
  | .slot e h => f e (h - d)
  | .exit a =>
    if (d : Int) ≤ a then from_ - (a - d).toNat
    else match s.rakePosAt d with
      | some p => if 0 ≤ p then f (p.toNat / slotHc) (p.toNat % slotHc) else 0
      | none => 0
  | .reentry a => if full then min s.ramp (a - d).toNat else 0
  | .off => 0

def State.toneEnvAt (s : State) (d : Nat) : Nat :=
  s.envAt d s.toneCount s.inj.toneEnv (s.inj.resume.any (fun e => decide (1 ≤ e ∧ e ≤ 6)))

def State.guardEnvAt (s : State) (d : Nat) : Nat :=
  if wbit (s.force.get 0x0401) 1 then s.envAt d s.guardCount s.inj.guardEnv (decide (s.inj.resume = some 7)) else 0

def State.toneEnv (s : State) : Nat := s.toneEnvAt 0

def State.guardEnv (s : State) : Nat := s.guardEnvAt 0

/-- The lanes in service: working lanes that sense, and LSP while it replaces a lane (R167). -/
def State.lanesInService (s : State) : List Nat := (List.range 16).filterMap s.laneFor

/-- RESUME applies only if every lane in service has POL = RESUME (R167). -/
def State.resumePolicy (s : State) : Bool := s.lanesInService.all (fun k => wbit (s.reg (laneAddr k 0x16)) 0)

/-- Set fields of ADC.LASTINJ (Table LC-13). -/
def State.noteInj (s : State) (entry : Nat) (aband inRest : Bool) : State :=
  s.setReg 0x210C ((s.reg 0x210C &&& 3) ||| w16 (4 * entry + 32 * b2n aband + 64 * b2n inRest))

/-- The exit ramp starts at hc `t`, now or at the next hc (R166); `resume` is the entry that follows. -/
def State.injStart (s : State) (t : Nat) (resume : Option Nat) : State :=
  let te := s.toneEnv
  let ge := s.guardEnv
  let p := s.rakePos.map (fun (p : Int) => p + (t - s.now : Nat))
  let s := { s with
    inj := { s.inj with phase := .exitRamp, startedSince := true, n := max 1 (fld (s.reg 0x2108) 1 0), resume := resume,
                        rampFrom := t, pos := p, toneEnv := te, guardEnv := ge }
    scan := { s.scan with slot := none, h := 0, lead := 0, paused := false, tailAt := none, rest := false }
    clk := { s.clk with stops := 0, cum := 0, tripped := false } }
  State.after (s.setFlagIf (decide (t ≤ s.now)) 0x21 0) (t + s.ramp - s.now) .exitRampEnd

/-- A slot starts again from mux settle on this hc, after the injected sequence if one is pending (R172). -/
def State.slotAgain (s : State) : State :=
  match s.scan.slot with
  | some (.regular e) => if s.inj.phase = .pending then s.injStart s.now (some e) else s.startSlot (.regular e) 0
  | some k => s.startSlot k 0
  | none => s

/-- BLKPAUSE at the emission of a slot's bins (Table FE-13). -/
def State.emitPause (s : State) (n : Nat) : State := s.setReg 0x060C (w16 (sat16 n))

/-- The records of one sensing of a slot that was cut short: 80 bins with the tag and the range tag (R5, R6). The manual
states no value for a window that is not complete: each part is a free value (log entry 3). -/
def State.cutElec (s : State) (tag : Tag) (x : Sensed) (i : Nat) : ElecRecs :=
  { elec := x.elec, lane := x.lane, gang := x.gang, ratio := ratioOf s.force x.lane x.rng
    recs := tab 80 (fun q => { v := { re := (Config.cutPart s.free (160 * i + 2 * q)).toInt, im := (Config.cutPart s.free (160 * i + 2 * q + 1)).toInt },
                               tag := tag, rng := x.rng }) }

/-- The channelizer emits the bins of a slot that runs again, tagged FROZEN or BLANKED (R47, R150, R187). BLKPAUSE
takes the pause of every such slot, one that senses no electrode too (R156; a DESIGN CHOICE for a calibration slot, log entry 79). -/
def State.emitCut (s : State) (k : SlotKind) (tag : Tag) (pause : Nat) : State :=
  let r : SlotRecs := { due := s.now + 1024, frame := s.scan.frameNo, kind := k
                        elecs := (s.sensed k s.scan.scph).zipIdx.map (fun p => s.cutElec tag p.1 p.2), health := [], cut := true }
  State.after (State.draw { s.emitPause pause with scan := { s.scan with flight := s.scan.flight ++ [r] } }) 1024 .recordsReady

/-- Samples that clipped in the DFT window of a slot that is cut short set CLIP of the lanes that sense (R143). No command
brings that window's codes: whether one clipped is a free value (log entry 3). -/
def State.cutClips (s : State) : State :=
  match s.scan.slot with
  | some (.regular e) =>
    if e < 6 ∧ 2048 < s.scan.h then
      (s.sensed (.regular e) s.scan.scph).foldl (fun (s : State) x => s.setFlagIf (Config.cutClip s.free x.lane) (0x10 + x.lane) 1) s
    else s
  | _ => s

/-- The pause count has reached 2,561: BLANKED is due (R150). -/
def State.blankedDue (s : State) : Bool := s.scan.paused && !s.scan.marked && decide (2561 ≤ s.scan.pauseCount)

/-- A pause ends on this hc; a BLANKED slot's bins are emitted and it is re-run (R149, R150). A slot whose pause count has
reached 2,561 on this hc is marked first. -/
def State.endPause (s : State) : State :=
  if !s.scan.paused || s.blankedDue then s
  else
    let s := { s with scan := { s.scan with paused := false, tailAt := none } }
    match s.scan.marked, s.scan.slot with
    | true, some k => (s.emitCut k .blanked s.scan.pauseCount).slotAgain
    | _, _ => s

/-- An edge of effective BLANK in a slot; the 65th makes BLANK_CHATTER due (R152). -/
def State.blankEdge (s : State) : State :=
  if s.slotRuns then
    let s := { s with scan := { s.scan with edges := s.scan.edges + 1 } }
    if s.scan.edges = 65 then s.after 0 .blankChatter else s
  else s

/-- The change of the effective level that is due on this hc, and whether it has been called off (R148). -/
def State.blankDue (s : State) : Option (Bool × Bool) :=
  match s.scan.blkAt with
  | some (t, level, off) => if t ≤ s.now then some (level, off) else none
  | none => none

/-- A change of the effective level is under way: the raw level stands since fewer than D hc, or the change is due on this
hc. -/
def State.blankGoing (s : State) : Bool := s.scan.blkAt.any (fun c => !c.2.2)

/-- A change under way is called off; one that is due on this hc keeps its place, without effect (R377). -/
def State.blankCancel (s : State) : State :=
  { s with scan := { s.scan with blkAt := s.blankDue.map (fun c => (s.now, c.1, true)) } }

/-- The deglitch follows the raw level (R148, R377): a new level holds for D hc before the effective level takes it, and a
change that has become due on this hc takes place. -/
def State.blankFollow (s : State) : State :=
  if !s.sampled || !wbit (s.reg 0x0608) 0 then s
  else if s.blankRaw = s.scan.blkEff then
    if s.blankDue.isSome then s else { s with scan := { s.scan with blkAt := none } }
  else if s.blankGoing then s
  else { s with scan := { s.scan with blkAt := some (s.now + s.deglitch, s.blankRaw, false) } }

/-- The effective level of BLANK changes on this hc: the command of that change is due (R148). -/
def State.tickPin (s : State) : State :=
  match s.blankDue with
  | some (level, _) => s.after 0 (if level then .blankAssert else .blankDeassert)
  | none => s

/-- The level at the BLANK ball, sampled on this hc: a raw level that stands already keeps its deglitch count (R148). While
nothing samples the ball its level is kept. -/
def State.blankPin (s : State) (high : Bool) : State :=
  if s.scan.blkBall = high then s else State.blankFollow { s with scan := { s.scan with blkBall := high } }

/-- The deglitch of VSYNC follows the level at the ball, with the polarity in force at the change (R190). -/
def State.vsFollow (s : State) : State :=
  if !s.sampled then s
  else if s.scan.vsBall = s.scan.vsEff then { s with scan := { s.scan with vsAt := none } }
  else if s.scan.vsAt.isSome then s
  else { s with scan := { s.scan with vsAt := some (s.now + s.deglitch, s.scan.vsBall != wbit (s.reg 0x220D) 0) } }

/-- The level at the VSYNC ball (R190). -/
def State.vsyncPin (s : State) (high : Bool) : State := State.vsFollow { s with scan := { s.scan with vsBall := high } }

/-- The change of VSYNC's deglitched level that is due on this hc, and whether it is an effective edge (R190). -/
def State.vsDue (s : State) : Option Bool :=
  match s.scan.vsAt with
  | some (t, edge) => if t ≤ s.now then some edge else none
  | none => none

/-- The deglitched level of VSYNC changes on this hc: VSYNC_EDGE is due (R190). -/
def State.tickVsync (s : State) : State := if s.vsDue.isSome then s.after 0 .vsyncEdge else s

/-- BLANK and VSYNC are sampled from this hc on, or again after a stop (R376): a change at a ball is seen now. -/
def State.pinsFollow (s : State) : State := s.blankFollow.vsFollow

/-- Sampling starts: both deglitched levels are deasserted and BLKMAX timing starts from 0 (R376). -/
def State.pinsStart (s : State) : State :=
  State.pinsFollow { s with scan := { s.scan with blkEff := false, blkAt := none, blkTime := 0, stuckIgn := false, chatIgn := false,
                                                  vsEff := wbit (s.reg 0x220D) 0, vsAt := none } }

/-- Effective BLANK asserts (R148, R149). -/
def State.blankOn (s : State) : State :=
  if s.scan.blkEff || !s.sampled || !wbit (s.reg 0x0608) 0 then s
  else
    let s := { s with scan := { s.scan with blkEff := true, blkTime := 0 } }
    let s := s.blankEdge
    if s.slotRuns && !s.blankIgnored then { s with scan := { s.scan with paused := true, tailAt := none } } else s

/-- An edge of effective BLANK is an event of the timers, and an assertion a count source (Tables TG-1 and TG-3). -/
def State.blankSeen (s : State) (was : Bool) : State :=
  if s.scan.blkEff && !was then s.timerSource 4 2 else if was && !s.scan.blkEff then s.timerEvent 3 else s

/-- Effective BLANK deasserts: the pause ends TAIL hc later (R149). An ignore under R153 ends on the next hc. Where this is
the 65th edge, BLANK_CHATTER ends the pause on this hc (R152). On a slot's h = 0 the slot takes the new level and does not
pause. -/
def State.blankOff (s : State) : State :=
  if !s.scan.blkEff then s
  else
    let s := { s with scan := { s.scan with blkEff := false, blkTime := 0 } }
    let s := s.blankEdge
    let tail := fld (s.reg 0x0608) 9 2
    if !s.scan.paused || (decide (65 ≤ s.scan.edges) && !s.scan.chatIgn) then s
    else if s.slotRuns && decide (s.scan.h = 0) && decide (s.scan.pauseCount = 0) then
      { s with scan := { s.scan with paused := false, tailAt := none } }
    else if tail = 0 then State.endPause { s with scan := { s.scan with tailAt := some s.now } }
    else State.after { s with scan := { s.scan with tailAt := some (s.now + tail) } } tail .pauseEnd

/-- The effective level takes `level` on this hc, as the raw level has had it for D hc; the deglitch then follows the raw level
again (R148, R149). -/
def State.blankTake (s : State) (level : Bool) : State :=
  let s := { s with scan := { s.scan with blkAt := none } }
  let t := if level then s.blankOn else if s.sampled then s.blankOff else s
  (t.blankSeen s.scan.blkEff).blankFollow

/-- The tail of a pause has passed (R149). -/
def State.tailEnd (s : State) : State :=
  match s.scan.tailAt with
  | some t => if t ≤ s.now ∧ s.scan.blkEff = false then s.endPause else s
  | none => s

/-- The pause count reaches 2,561: the slot is marked, and where its pause ends on this hc its bins are emitted and it
runs again (R150). -/
def State.blankedOp (s : State) : State :=
  if s.blankedDue then
    let s := s.cutClips
    let s := State.addSat (State.setFlag { s with scan := { s.scan with marked := true } } 0x06 2) 0x060B 1
    if s.blankIgnored then s.endPause else s.tailEnd
  else s

/-- The 65th edge (R152). -/
def State.chatterOp (s : State) : State :=
  if s.slotRuns && decide (65 ≤ s.scan.edges) && !s.scan.chatIgn then
    State.endPause (State.setFlag { s with scan := { s.scan with chatIgn := true } } 0x06 1)
  else s

/-- BLANK asserted for BLKMAX (R153). -/
def State.stuckOp (s : State) : State :=
  if s.scan.blkEff && !s.scan.stuckIgn && decide (s.blankLimit ≤ s.scan.blkTime) then
    State.endPause (State.setFlag { s with scan := { s.scan with stuckIgn := true } } 0x06 0)
  else s

/-- A write to LANE.BLANK (R377): clearing EN acts on this hc; setting EN, or a change of POL, changes the raw level,
which the deglitch follows. -/
def State.blankWrite (s : State) (v : Word) : State :=
  let old := s.reg 0x0608
  let s := s.setReg 0x0608 (v &&& 0x3FF)
  if !wbit v 0 then s.blankCancel.blankOff
  else if !wbit old 0 || (wbit old 1 != wbit v 1) then s.blankFollow
  else s

/-- A write to LANE.BLKMAX: a limit already passed acts on this hc (R153). -/
def State.blkmaxWrite (s : State) : State :=
  if s.scan.blkEff && !s.scan.stuckIgn && decide (s.blankLimit ≤ s.scan.blkTime) then s.after 0 .blankStuck else s

/-- The frame boundary after LS, whose last hc is `l`: on schedule while a REST of at least 1 hc remains (R151). -/
def State.frameTail (s : State) (l : Nat) : State :=
  let b := max (s.scan.sched + s.scan.period) (l + 1)
  { s with scan := { s.scan with slot := none, h := 0, lead := 0, nextAt := some b, rest := decide (l + 1 < b) } }

/-- What follows regular entry `e` at its last hc (R164): the next entry, or the frame boundary. -/
def State.afterEntry (s : State) (e : Nat) : State :=
  if e < 7 then s.startSlot (.regular (e + 1)) 1 else s.frameTail s.now

/-- A trigger is held under R171: start-up, a calibration or system-calibration activity with its baseline frames, a
DORMANT exit, or a sequence already run since the last boundary. One that arises while a reference settles in the scan is held too, until the
M0 that resumes (R114; DESIGN CHOICE, log entry 80). -/
def State.injHeld (s : State) : Bool :=
  decide (s.ms.mode = Mode.startup) || decide (s.ms.mode = Mode.dormant) || s.ms.entering || s.ca.act.isSome || s.ca.meas.isSome
    || s.ca.solve.isSome || decide (s.scan.after ≠ After.none) || s.inj.startedSince || decide (s.ms.refWait ≠ RefWait.none)

/-- A trigger is handled at its trigger hc (R167 to R169). A slot under a relock waits for it (R172). -/
def State.injHandle (s : State) : State :=
  match s.scan.slot with
  | some (.regular e) =>
    if s.clk.relock.isSome || !s.slotRuns then
      { s with inj := { s.inj with phase := .pending } } |>.noteInj e false false
    else if s.resumePolicy && !s.scan.marked then
      State.injStart (((s.cutClips.draw.noteInj e true false).setFlag 0x21 4).addSat 0x210A 1) s.now (some e)
    else { s with inj := { s.inj with phase := .pending } } |>.noteInj e false false
  | _ => (s.noteInj 0 false true).injStart s.now none

/-- A frame boundary may fall on this hc (R107, R166, R241). -/
def State.boundaryDue (s : State) : Bool :=
  s.hcDriven && s.scan.nextAt.any (fun b => decide (b ≤ s.now)) && s.rq.waiting.isEmpty && s.scan.slot.isNone
    && s.clk.relock.isNone && (decide (s.inj.phase = InjPhase.idle) || decide (s.inj.phase = InjPhase.pending) || decide (s.inj.phase = InjPhase.held))

/-- A trigger arises (R165, R171). Triggers of one hc are one (LASTINJ.SRC 3, no IMERGE). One that arises on the hc of a
frame boundary is handled at that boundary, where M0 is the slot that runs (R107, R167). -/
def State.injTrigger (s : State) (host cloche : Bool) : State :=
  let src := b2n host + 2 * b2n cloche
  if src = 0 ∨ s.hcDriven = false then s
  else if s.inj.phase ≠ .idle then
    (s.setReg 0x210C (s.reg 0x210C ||| w16 src)).setFlagIf (decide (s.inj.trigAt ≠ s.now)) 0x21 2
  else
    let s := { s with inj := { s.inj with trigAt := s.now } }
    let s := s.setReg 0x210C (w16 src)
    if s.injHeld || s.boundaryDue then { s with inj := { s.inj with phase := .held } } else s.injHandle

/-- The exit ramp ends: injected slot 0 starts on this hc (R166). -/
def State.injRampEnd (s : State) : State :=
  if decide (s.inj.phase = InjPhase.exitRamp) && decide (s.inj.rampFrom + s.ramp ≤ s.now) then
    State.startSlot { s with inj := { s.inj with phase := .slots } } (.injected 0) 0
  else s

/-- The last hc of an injected slot: the next one, or the re-entry ramp (R166). -/
def State.injSlotDone (s : State) (i : Nat) : State :=
  if i + 1 < s.inj.n then s.startSlot (.injected (i + 1)) 1
  else
    let s := { s with inj := { s.inj with phase := .reentryRamp, rampFrom := s.now + 1 }
                      scan := { s.scan with slot := none, h := 0, lead := 0 } }
    s.after s.ramp .injectedSequenceEnd

/-- The last hc of the re-entry ramp (R166, R204). -/
def State.injDone (s : State) : State :=
  if decide (s.inj.phase = InjPhase.reentryRamp) && decide (s.inj.rampFrom + s.ramp ≤ s.now + 1) then
    let s := State.replanSoon { s with inj := { s.inj with phase := .idle } }
    let s := (s.setFlag 0x21 1).addSat 0x2109 1
    match s.inj.resume with
    | some e => s.startSlot (.regular e) 1
    | none => match s.scan.nextAt with
      | some b => { s with scan := { s.scan with nextAt := some (max b (s.now + 1)), rest := decide (s.now + 1 < b) } }
      | none => s
  else s

/-- IPEND (Table LC-9). -/
def State.injPending (s : State) : Bool := decide (s.inj.phase ≠ InjPhase.idle)

/-- REST runs: after LS until the boundary, and while a scan hold extends it (R107, R241). -/
def State.resting (s : State) : Bool :=
  s.scan.rest || (s.scan.slot.isNone && s.scan.nextAt.any (fun b => decide (b ≤ s.now)) && !s.rq.waiting.isEmpty
    && (decide (s.inj.phase = InjPhase.idle) || decide (s.inj.phase = InjPhase.pending) || decide (s.inj.phase = InjPhase.held)))

/-- ADC.STAT (Table LC-9). -/
def State.adcStat (s : State) : Nat :=
  let entry := match s.scan.slot with
    | some (.regular e) => e
    | _ => match s.inj.phase with
      | .exitRamp | .slots | .reentryRamp => s.inj.resume.getD 0
      | _ => 0
  let (inj, i) := match s.scan.slot with | some (.injected i) => (true, i) | _ => (false, 0)
  entry + 8 * b2n inj + 16 * i + 64 * b2n s.injPending
    + 128 * b2n (decide (s.inj.phase = InjPhase.exitRamp) || decide (s.inj.phase = InjPhase.reentryRamp)) + 256 * b2n s.resting

/-- A relock of the delay line begins on this hc (R43, R47, R48, R51, R120). -/
def State.startRelock (s : State) (k : Relock) : State :=
  { s.periodStart with clk := { s.periodStart.clk with relock := some k, lock := false, lockAt := s.hcFrom + 256 } }

/-- The slot in progress is frozen at a resume (R47): FROZE, FRZCNT, and its re-run after the relock. Its bins are emitted
when the relock has run. -/
def State.freezeSlot (s : State) : State :=
  let s := (s.cutClips.setReg 0x0111 (s.reg 0x0111 ||| 0x0100)).addSat 0x0113 1
  State.startRelock { s with scan := { s.scan with h := 0, lead := 256 + b2n s.tb.counted, paused := false, marked := false, tailAt := none, ended := none,
                                                   cutPause := s.scan.pauseCount } } .frozenSlot

/-- The words that the end of a slot may have changed: ranges, peaks, calibration words and traces of every lane page, and the
results of an activity: SCLANE, TRFIRST, OWFCNT (R287, R293, R311). -/
def slotWords : List Nat :=
  ((List.range 17).flatMap (fun k => (List.range 31).map (fun o => laneAddr k (8 + o)))) ++ (List.range 64).map (0x0640 + ·)
    ++ [0x2C0C, 0x2C0D, 0x2A11]

/-- The flags that the end of a slot may have set: RSTEP of every lane, CMDDONE, TRFAIL and SCFAIL, OWFAIL. -/
def slotFlags : List (Nat × Word) :=
  (List.range 17).map (fun k => (laneAddr k 3, (1 : Word))) ++ [(0x0003, 2), (0x2C03, 0x18), (0x2A03, 4)]

/-- What the end of a slot decided, the completion of its activity included, is taken back: the stop that freezes it began on its last hc (R46, R47, R143). -/
def State.unend (s : State) (e : Ended) : State :=
  let isEnd (i : Instr) : Bool := decide (i = Instr.exitRampEnd) || decide (i = Instr.injectedSequenceEnd)
  let s := slotWords.foldl (fun s a => s.setReg a (e.regs.get a)) (s.unschedule isEnd)
  let s := slotFlags.foldl (fun s f => s.setReg f.1 (s.reg f.1 &&& (e.regs.get f.1 ||| ~~~ f.2))) s
  { s with
    inj := e.inj, ca := e.ca
    dg := { s.dg with forming := e.forming, formN := e.formN, formLeft := e.formLeft, formSum := e.formSum, ow := e.ow }
    ms := { s.ms with step := e.step, calBusy := e.calBusy, busy := e.busy, done := e.done }
    scan := { s.scan with slot := some e.slot, h := 0, lead := 1, low := e.low, after := e.after, baseLeft := e.baseLeft
                          nextAt := match e.slot with | .injected _ => s.scan.nextAt | _ => none
                          rest := false
                          flight := s.scan.flight.filter (fun r => !(decide (r.due = s.now + 1024) && decide (r.kind = e.slot))) } }

/-- The events a period outside slots times, which a relock in it delays (R48). -/
def periodEvent (i : Instr) : Bool :=
  decide (i = Instr.refRdy) || decide (i = Instr.reffail) || decide (i = Instr.exitRampEnd) || decide (i = Instr.injectedSequenceEnd)

/-- A relock that an event interrupts starts again from its first hc (R48): what waits for it is delayed by the hc it had
run. -/
def State.restartRelock (s : State) : State :=
  let d := s.hcFrom + 256 - s.clk.lockAt
  let per := decide (s.clk.relock = some Relock.period)
  let s := if per then { s with
      agenda := s.agenda.map (fun (e : Nat × Instr) => if periodEvent e.2 then (e.1 + d, e.2) else e)
      inj := { s.inj with rampFrom := s.inj.rampFrom + d }
      scan := { s.scan with nextAt := s.scan.nextAt.map (· + d), lead := if s.scan.slot.isSome then s.scan.lead + d else s.scan.lead } } else s
  let s := if decide (s.clk.relock = some Relock.frozenSlot) then { s with scan := { s.scan with lead := 256 + b2n s.tb.counted } } else s
  { s.periodStart with clk := { s.periodStart.clk with lock := false, lockAt := s.hcFrom + 256 } }

/-- A relock outside a slot delays what follows by 256 hc (R48): REST, ramps, settling waits,
and a slot that was to start on the next hc. -/
def State.shiftPeriod (s : State) : State :=
  let s := { s with
    agenda := s.agenda.map (fun (e : Nat × Instr) => if periodEvent e.2 then (e.1 + 256, e.2) else e)
    inj := { s.inj with rampFrom := s.inj.rampFrom + 256 }
    scan := { s.scan with nextAt := s.scan.nextAt.map (· + 256), lead := if s.scan.slot.isSome then s.scan.lead + 256 else s.scan.lead } }
  s.startRelock .period

end Machine
end Sys2Proof
end

