-- ==== Sys2Proof/Machine/ModeOps.lean ====
section
/-! DEFINITION. Modes, start-up and power (R105 to R123): resets, the commands of SYS.CMD (R115, R352), references
(R113, R114, R163), the steps of start-up, and the stages of DORMANT entry and exit. -/

namespace Sys2Proof
namespace Machine

/-- The slice words and ratio words of every lane load from the factory area (R284, R285). -/
def State.loadSeeds (s : State) : State :=
  let ws := s.fac.words
  (List.range 17).foldl (fun s k =>
    let s := (List.range 12).foldl (fun s j =>
      let nominal : Nat := if 4 ≤ j ∧ j < 8 then 32768 else 0
      let mask : Word := if j < 4 then 0x0FFF else if j < 8 then 0xFFFF else 0x003F
      s.setReg (laneAddr k (0x18 + j)) (w16 (calfOf ws (0x10 + 12 * k + j) nominal) &&& mask)) s
    (List.range 3).foldl (fun s j => s.setReg (laneAddr k (0x24 + j)) (w16 (max 1 (calfOf ws (0x0D + j) (8192 * 2 ^ j))))) s) s

/-- A reset with a cause of Table MS-7 (R121). Pins and analog comparators keep their levels; the Shed keeps its bytes,
an interrupted page is damaged (R328). Of several causes on one instant the highest stands. -/
def State.hardReset (s : State) (bit : Nat) (phase : PowerPhase) (limit : Bool) : State :=
  if s.pw.lastReset.any (fun r => decide (r.1 = s.now) && decide (r.2.1 = s.ft) && decide (r.2.2 ≤ bit)) then s
  else
    let cut := s.shedInterrupt
    let z := { State.reset with
      pending := s.pending, now := s.now, ft := s.ft, free := cut.free, fac := s.fac
      pw := { State.reset.pw with phase := phase, limit := limit, vphLow := s.pw.vphLow, warm := s.pw.warm,
                                  lastReset := some (s.now, s.ft, bit) }
      ms := { State.reset.ms with refIn := s.ms.refIn }
      scan := { State.reset.scan with blkBall := s.scan.blkBall, vsBall := s.scan.vsBall }
      sh := { State.reset.sh with mem := cut.sh.mem, torn := cut.sh.torn } }
    State.loadSeeds (z.setReg 0x020E (w16 (2 ^ bit)))

/-- THERMAL, deferred while a page program runs (R121, R328). -/
def State.thermalOp (s : State) : State :=
  if s.pw.phase = .thermalHeld then s
  else if decide (s.pw.phase = .on) && !s.sh.jobs.isEmpty then
    let s := { s with pw := { s.pw with deferred := true } }
    if s.shedByHc then s.after (s.hcOf 3000) .thermalDeferralExpiry else s
  else s.hardReset 1 .thermalHeld false

/-- A deferred shutdown takes place (R328): at the end of the page in progress, or at 3 ms. -/
def State.deferredShutdown (s : State) : State := if s.pw.deferred then s.hardReset 1 .thermalHeld false else s

/-- Step 2 begins once power-on reset is over (R108): the Shed's bank selection is next. -/
def State.beginStep2 (s : State) : State :=
  { s with pw := { s.pw with phase := .on }, ms := { s.ms with step := 2 } }

/-- The settle time of a reference source in µs (Table MS-4). -/
def settleTime (src : Nat) (atExit : Bool) : Nat :=
  match src with
  | 0 => if atExit then 500 else 2000
  | 1 => 250
  | _ => 100

/-- A wait for a reference to settle begins (R113, R114, R163): the external source counts only in its window, and
1 ms without it falls back to the internal one, in step 4 and, since the manual is silent there, in a DORMANT exit and at a
change in SERVICE too (DESIGN CHOICE, log entry 67). -/
def State.refStart (s : State) (w : RefWait) (src : Nat) : State :=
  let s := s.unschedule (fun i => decide (i = Instr.refRdy) || decide (i = Instr.reffail))
  let s := { s with ms := { s.ms with refUse := src, refRdy := false, refWait := w } }
  if decide (src = 1) && !s.ms.refIn then s.after (s.hcOf 1000) .reffail
  else s.after (s.hcOf (settleTime src (decide (w = RefWait.exit)))) .refRdy

/-- REFX enters its window (R113). -/
def State.refEnters (s : State) : State :=
  let was := s.ms.refIn
  let s := { s with ms := { s.ms with refIn := true } }
  if decide (s.ms.refWait ≠ RefWait.none) && decide (s.ms.refUse = 1) && !was then s.refStart s.ms.refWait 1 else s

/-- REFX did not enter its window in time (R113). -/
def State.refFallback (s : State) : State :=
  if decide (s.ms.refWait ≠ RefWait.none) && decide (s.ms.refUse = 1) && !s.ms.refIn then
    (s.setFlag 0x02 0).refStart s.ms.refWait 0
  else s

/-- REFX left its window for 64 hc while in use (R163). -/
def State.refLeaves (s : State) : State :=
  let s := { s with ms := { s.ms with refIn := false } }
  if decide (s.ms.refUse = 1) && s.hostClocked && decide (s.ms.refWait = RefWait.none) then
    State.setFlag { s with ms := { s.ms with refBad := true } } 0x21 3
  else s

/-- A GO_ command proceeds (R115, Table MS-5): at once from the mode it names, else at the next frame boundary. -/
def State.goMode (s : State) (code : Nat) : State :=
  if s.ms.mode.code = code ∧ code ≠ 3 then s.cmdDone
  else if code = 4 ∧ s.ms.mode = .service then s.cmdDone
  else { s with ms := { s.ms with busy := true, due := some code } }

/-- The held command of R115 proceeds. -/
def State.proceedHeld (s : State) : State :=
  match s.ms.held with
  | none => s
  | some c => State.goMode { s with ms := { s.ms with held := none } } c

/-- MODE takes a new mode (R111, R116): MODECHG, and the SERVICE-only controls end with SERVICE (R312). -/
def State.setMode (s : State) (m : Mode) : State :=
  let leaving := decide (s.ms.mode = Mode.service) && decide (m ≠ Mode.service)
  let s := if leaving then
      State.calDiscard ((s.setReg 0x2A14 (s.reg 0x2A14 &&& 0x03FC)).setReg 0x2A01 (s.reg 0x2A01 &&& 1))
    else s
  State.setFlag { s with ms := { s.ms with mode := m } } 0x00 0

/-- The idle time of R117 starts again at an entry to ACTIVE. -/
def State.idleRestart (s : State) : State :=
  let s := s.unschedule (fun i => decide (i = Instr.automode))
  State.idleCheck { s with ms := { s.ms with idleAt := none } }

/-- Start-up ends (R111): the mode, the epoch report 64 hc later, the synchronizing reset, the held command. -/
def State.bootEnd (s : State) (m : Mode) : State :=
  let s := { s with ms := { s.ms with step := 0, syncDue := true, calBusy := false }, scan := { s.scan with after := .none }, rq := { s.rq with epochDue := true } }
  let s := (s.setMode m).after 64 .epochReport
  (if m = .active then s.idleRestart else s).proceedHeld

/-- Baseline frames begin at the next frame boundary, on hc `b` (R110). -/
def State.startBaseline (s : State) (a : After) (b : Nat) : State :=
  let s := s.formStart 8
  { s with scan := { s.scan with slot := none, baseLeft := 8, after := a, nextAt := some b, rest := false }
           tr := { s.tr with sumN := 0, sum := [], sumSelf := [] } }

/-- Step 6 follows, or the end of start-up in SERVICE at the boundary where step 5 has ended (R111); `b` is the hc of
that boundary. -/
def State.bootStep6 (s : State) (b : Nat) : State :=
  if s.ms.held = some 4 then
    { s with scan := { s.scan with slot := none, nextAt := some b, after := .startupEnd } }
  else State.startBaseline { s with ms := { s.ms with step := 6, calBusy := false } } .startupEnd b

/-- The filter the registers hold comes into use, with its GDLY: at the first slot filtered after a reset (R182). -/
def State.takeFilter (s : State) : State :=
  let c := s.reg 0x2201
  let s := { s with sv := { s.sv with modeUse := b2n (wbit c 0), bankUse := b2n (wbit c 1), lenUse := (s.reg 0x2208).toNat } }
  s.setReg 0x2209 (w16 (2 * (s.filterLen - 1)))

/-- The settings in force become the registers' values after bank selection (R12, R216, R223, R233, R321, R374). A map or a
curve that cannot be used sets CFGBAD. -/
def State.takeSettings (s : State) : State :=
  let ok := (mapWords (s.reg 0x2510) (s.reg 0x2511)).ok
  let moved := (List.range 6).any (fun i => decide (s.force.get (0x2510 + i) ≠ s.reg (0x2510 + i))) || decide (s.tr.ucurve ≠ s.tr.curve)
  let s := if ok then { s with tr := { s.tr with mapS := s.reg 0x2510, mapD := s.reg 0x2511 } } else s
  let s := { s with tr := { s.tr with curve := s.tr.ucurve, hid := hidWords s.regs }, force := s.regs }
  s.setFlagIf (moved && (!ok || s.curveBad)) 0x25 3

/-- What an image brings into force at bank selection: RPER as taken, GBIN, the Gauge's enable, the settings, and EST by the
threshold it loads (R135, R251, R277, R321, R374). -/
def State.imageTaken (s : State) : State :=
  let s := if s.wide 0x220A 2 < 40960 then s.setWide 0x220A 2 40960 else s
  let s := { s with tone := { s.tone with gbin := fld (s.reg 0x040A) 7 0, gdirty := false },
                    gg := { s.gg with startAt := if wbit (s.reg 0x2901) 0 then some (s.now + 1) else none } }
  let s := s.takeSettings
  s.setUnc s.unc

/-- Step 4 ends: SERVICE, self-calibration or the baseline frames (R108, R111). A calibration slot is no frame: what the host
has written since bank selection waits for the first M0 (R107), but for the filter (R182). -/
def State.step4End (s : State) : State :=
  if wbit (s.reg 0x0208) 1 || decide (s.ms.held = some 4) then
    State.bootEnd { s with scan := { s.scan with nextAt := some s.now } } .service
  else if wbit (s.reg 0x0208) 0 then
    State.startSlot (State.calBegin { s.takeFilter with ms := { s.ms with step := 5, calBusy := true } } .boot) (.cal 0) 0
  else s.bootStep6 s.now

/-- Step 3 ends on the hc at which both DECL and LOCK are 1 (R108, R109). -/
def State.stepCheck (s : State) : State :=
  if decide (s.ms.step = 3) && decide (s.clk.decl ≠ 0) && s.clk.lock then
    State.refStart { s.periodStart with ms := { s.ms with step := 4, refDue := false } } .startup (fld (s.reg 0x0209) 1 0)
  else s

/-- A reference has settled (R113, R114, R120, R163). REFX that has left its window since starts its settle time again when it
is back: the manual is silent there and the model waits without limit (DESIGN CHOICE, log entry 67). -/
def State.refSettled (s : State) : State :=
  if s.ms.refWait = .none ∨ (s.ms.refUse = 1 ∧ s.ms.refIn = false) then s
  else
    let w := s.ms.refWait
    let s := { s with ms := { s.ms with refRdy := true, refWait := .none } }
    match w with
    | .startup => s.step4End
    | .exit =>
      let s := State.formStart { s with ms := { s.ms with exit := .reentry } } 2
      { s with scan := { s.scan with reLeft := 2, after := .exitEnd, nextAt := some s.now, rest := false }
               tr := { s.tr with sumN := 0, sum := [], sumSelf := [] } }
    | .scan => State.formStart { s with ms := { s.ms with syncDue := true }, scan := { s.scan with nextAt := some s.now } } 1
    | .none => s

/-- The DORMANT exit is under way: SYS.CMD takes RESET and GO_ commands (R120). -/
def State.exiting (s : State) : Bool := decide (s.ms.mode = Mode.dormant) && decide (s.ms.exit ≠ ExitStage.none)

/-- A command's code is defined (Table RI-26). -/
def cmdDefined (c : Nat) : Bool := [0x01, 0x02, 0x03, 0x04, 0x05, 0x0F, 0x10, 0x11, 0x12, 0x13, 0x14, 0x18, 0x19].contains c

/-- A command is allowed now (Table MS-5, R286, R289, R293, R294, R310, R315). -/
def State.cmdAllowed (s : State) (c : Nat) : Bool :=
  let m := s.ms.mode
  let boot := decide (m = Mode.startup)
  let aw := decide (m = Mode.active) || decide (m = Mode.watch)
  let svc := decide (m = Mode.service)
  if s.ms.entering then false
  else match c with
  | 0x01 => boot || s.exiting || aw || (svc && s.coreRuns)
  | 0x02 => s.exiting || aw || (svc && s.coreRuns)
  | 0x03 => aw
  | 0x04 => boot || s.exiting || aw || svc
  | 0x0F => s.exiting || aw || svc || (boot && decide (3 ≤ s.ms.step))
  | 0x10 | 0x11 | 0x18 => svc && s.coreRuns
  | 0x12 => svc && s.coreRuns && s.ca.zero.isSome && decide (s.ptMask = 0x1FF)
  | 0x14 => aw || svc
  | _ => svc

def cmdBadArg (c arg : Nat) : Bool :=
  (c == 0x0F && arg != 0xA5) || (c == 0x11 && decide (8 < arg)) || (c == 0x19 && decide (16 < arg))

/-- A rejected command (R115): its code shows, one reason bit, CMDERR. -/
def State.cmdReject (s : State) (cmd state arg : Bool) : State :=
  State.setFlag { s with ms := { s.ms with done := false, badcmd := cmd, badstate := state, badarg := arg } } 0x00 2

/-- What an accepted command starts (R115, R286 to R294, R310, R315). The test DAC does not inject while a calibration command
or OPENTEST runs; DCTRL's connections change at a frame boundary (R312). -/
def State.cmdStart (s : State) (c arg : Nat) : State :=
  let busy (s : State) : State := { s with ms := { s.ms with busy := true } }
  let dac (s : State) : State := { busy s with dg := { s.dg with dacOff := true } }
  let cal (s : State) : State := { dac s with ms := { s.ms with busy := true, calBusy := true } }
  let measure (s : State) (p : Option Nat) : State :=
    { s with ca := { s.ca with meas := some { point := p, counted := 0, seen := 0, bad := false, sum := [], pos := [] } } }
  match c with
  | 0x05 | 0x13 => let s := cal s; { s with ca := { s.ca with due := some c } }
  | 0x18 => let s := dac s; { s with ca := { s.ca with due := some c } }
  | 0x0F => let s := busy s; { s with ms := { s.ms with resetAt := some (s.now + 16) } }
  | 0x10 => let s := cal s; measure { s with ca := { s.ca with zero := none, points := [] } } none
  | 0x11 => measure (cal s) (some arg)
  | 0x12 => (cal s).solveStart
  | 0x14 => let s := dac s; { s with ca := { s.ca with ticks := some [] } }
  | 0x19 =>
    if s.dg.failed.contains arg then s.cmdDone
    else let s := busy s; { s with dg := { s.dg with forced := s.dg.forced ++ [arg] } }
  | _ =>
    if decide (s.ms.mode = Mode.startup) || s.exiting then { s with ms := { s.ms with held := some c } }
    else s.goMode c

/-- A write to SYS.CMD (R115, R352). -/
def State.command (s : State) (v : Word) : State :=
  let c := fld v 7 0
  let arg := fld v 15 8
  let s := { s with ms := { s.ms with code := c } }
  if s.ms.busy then s.cmdReject false true false
  else if !cmdDefined c then s.cmdReject true false false
  else if !s.cmdAllowed c then s.cmdReject false true false
  else if cmdBadArg c arg then s.cmdReject false false true
  else State.cmdStart { s with ms := { s.ms with done := false, badcmd := false, badstate := false, badarg := false } } c arg

/-- The link decodes requests: from P5 in start-up, in host-clocked modes, and from the end of the relock of a DORMANT
exit (R33, R119, R120). -/
def State.linkUp (s : State) : Bool :=
  s.hcDriven && s.link.answering &&
    (decide (s.ms.mode ≠ Mode.dormant) || decide (s.ms.exit = ExitStage.settle) || decide (s.ms.exit = ExitStage.reentry))

end Machine
end Sys2Proof
end

