-- ==== Sys2Proof/Machine/ScareOps.lean ====
section
/-! DEFINITION. The Scarecrow (R256 to R268): gangs, looks and cycles, bands and baselines, confirmation, gestures, and
wake causes with the start of a DORMANT exit (R120, R250). -/

namespace Sys2Proof
namespace Machine

def gangReset : Gang := { base := 0, last := 0, qbase := [0, 0, 0, 0], out := false, stay := 0, sum := 0, qsum := [0, 0, 0, 0] }

def State.gang (s : State) (g : Nat) : Gang := s.sk.gangs.getD g gangReset
def State.setGang (s : State) (g : Nat) (x : Gang) : State := { s with sk := { s.sk with gangs := s.sk.gangs.set g x } }

/-- A gang's range holds at least 4 electrodes of its axis (R256). -/
def grngOk (w : Word) : Bool :=
  let first := fld w 6 0
  let last := fld w 14 8
  decide (first + 3 ≤ last) && decide (last ≤ if wbit w 7 then 63 else 95)

/-- The gangs disabled at DORMANT entry (R256). -/
def State.gangsOff (s : State) : Nat :=
  sumNat (tab 4 (fun g => b2n (!grngOk (s.reg (0x2708 + g)) || (s.dg.failed.contains g && !decide (s.dg.serves = some g))) * 2 ^ g))

def State.gangOn (s : State) (g : Nat) : Bool := wbit (s.reg 0x2701) g && decide (s.sk.gdis / 2 ^ g % 2 = 0)

/-- The lane whose SL0 converts gang g (R173), with its offset and gain (R159). -/
def State.gangLane (s : State) (g : Nat) : Nat := if s.dg.serves = some g then 16 else g

/-- R of a burst: the mean of the corrected codes of its LEN + 1 conversions (R173, R257). -/
def State.burst (s : State) (g : Nat) (codes : List Int) : Int :=
  let k := s.gangLane g
  let n := fld (s.reg 0x210B) 3 0 + 1
  roundDiv (sumInt ((codes.take n).map (fun x => correctCode x (sliceOfs s.regs k 0) (sliceGain s.regs k 0)))) n

def State.wlo (s : State) (g : Nat) : Int := 8 * (fld (s.reg (0x270C + g)) 7 0 : Nat)
def State.whi (s : State) (g : Nat) : Int := 8 * (fld (s.reg (0x270C + g)) 15 8 : Nat)

/-- The comparator's decision (R257, step 4). -/
def State.trips (s : State) (g : Nat) (integ : Int) : Bool :=
  decide (((s.gang g).base + s.whi g / 2) / 16 * 16 < integ)

/-- Lengths in fast periods: a look, a burst, a quarter look (R257). -/
def State.lookLen (s : State) : Nat := fld (s.reg 0x2711) 7 0 + 3
def State.burstLen (s : State) : Nat := 8 + (fld (s.reg 0x210B) 3 0 + 1) * (fld (s.reg 0x210B) 7 4 + 1)

/-- A look that bursts, and each quarter look. -/
def State.skBlock (s : State) : Nat := s.lookLen + s.burstLen

/-- A baseline after a burst inside the band (R261). -/
def State.skBase (s : State) (b r : Int) : Int := b + roundDiv (r - b) (2 ^ fld (s.reg 0x2711) 11 8)

/-- U in ticker periods (256). -/
def unitU : Nat := 256

/-- DORMANT entry: settings are read, the entry pass is due (R256, R260). BASE, LAST and OUT keep their content until a look
changes them (R103). -/
def State.skEnter (s : State) : State :=
  let g := s.gangsOff
  let bad := (List.range 4).any (fun i => !grngOk (s.reg (0x2708 + i)))
  State.setFlagIf { s with sk := { s.sk with running := false, passLeft := 8, gdis := g, fast := true, quiet := 0,
                                             gangs := tab 4 (fun i => { s.gang i with stay := 0, sum := 0, qsum := [0, 0, 0, 0] })
                                             tapStage := 0, swipeAt := none, lid := none, cyc := none, burstEnd := 0, exitDue := false } } bad 0x27 3

/-- The first ticker edge at or after a fast period (R258). -/
def tickerEdge (ft : Nat) : Nat := (ft + 31) / 32 * 32

/-- The schedule's period in fast periods (R259). -/
def State.skPeriod (s : State) : Nat :=
  let sper := max 1 (fld (s.reg 0x2710) 7 0)
  let fper := max 1 (fld (s.reg 0x2710) 15 8)
  32 * 16 * (if s.sk.fast then min sper fper else sper)

/-- What a look gives the gestures: the gestures completed, DTAP 2, SWIPE 4, LID 8, APPR 16 (WCAUSE bits). -/
def State.tapTouch (s : State) (g t q : Nat) : State :=
  if wbit (s.reg 0x2715) 0 && decide (fld (s.reg 0x2715) 5 4 = g) then
    let s := { s with sk := { s.sk with tapQ := q } }
    let gap := fld (s.reg 0x2716) 15 8 * unitU
    if decide (s.sk.tapStage = 2) && decide (t ≤ s.sk.tapAt + gap) then { s with sk := { s.sk with tapStage := 3, tapAt := t } }
    else { s with sk := { s.sk with tapStage := 1, tapAt := t } }
  else s

/-- A touch (R263 CONFIRMED): progress and the completed gestures (R264). -/
def State.touch (s : State) (g q t : Nat) : State × Nat :=
  let s := { s with sk := { s.sk with qm := q } }
  let s := s.tapTouch g t q
  let en := s.reg 0x2715
  let swt := fld (s.reg 0x2717) 7 0 * unitU
  let swipe := wbit en 1 && decide (g = 1) && s.sk.swipeAt.any (fun t0 => decide (t ≤ t0 + swt))
  let s := if g = 0 ∧ wbit en 1 = true then { s with sk := { s.sk with swipeAt := some t } } else s
  (s, 4 * b2n swipe + 16 * b2n (wbit en 3))

/-- A release of the gang (R261, R264). -/
def State.release (s : State) (g t : Nat) : State × Nat :=
  let dt := fld (s.reg 0x2716) 7 0 * unitU
  if wbit (s.reg 0x2715) 0 && decide (fld (s.reg 0x2715) 5 4 = g) then
    let inTime := decide (t ≤ s.sk.tapAt + dt)
    match s.sk.tapStage with
    | 1 => ({ s with sk := { s.sk with tapStage := if inTime then 2 else 0, tapAt := if inTime then t else s.sk.tapAt } }, 0)
    | 3 => ({ s with sk := { s.sk with tapStage := 0 } }, 2 * b2n inTime)
    | _ => (s, 0)
  else (s, 0)

/-- A look at an open LID candidate (R264): n looks seen so far. -/
def State.lidLook (s : State) (r : Int) : State × Nat :=
  match s.sk.lid with
  | none => (s, 0)
  | some n =>
    if r - (s.gang 3).base < ((s.reg 0x2718).toNat : Int) then ({ s with sk := { s.sk with lid := none } }, 0)
    else if max 1 (fld (s.reg 0x2717) 11 8) ≤ n + 1 then ({ s with sk := { s.sk with lid := none } }, 8)
    else ({ s with sk := { s.sk with lid := some (n + 1) } }, 0)

def noLook : GangLook := { integ := 0, burst := [], quarters := [], again := [] }

/-- A relearn (R262) after the gang's last result R: BASE is R, with which the gang is inside its band from now on (R261, log
entry 51), and the gesture progress on it is cleared; the progress of SWIPE is gang 0's touch. The quarter looks that set
QBASE follow. -/
def State.relearn (s : State) (g : Nat) (bit : Nat) : State :=
  let s := s.setGang g { s.gang g with base := (s.gang g).last, out := false, stay := 0 }
  let s := if fld (s.reg 0x2715) 5 4 = g then { s with sk := { s.sk with tapStage := 0 } } else s
  let s := if g = 0 then { s with sk := { s.sk with swipeAt := none } } else s
  let s := if g = 3 then { s with sk := { s.sk with lid := none } } else s
  s.setFlag 0x27 bit

/-- A confirmation (R263): the outcome of the four quarter looks, with the gestures completed. A BROAD exit of gang 3 opens
a LID candidate; one that is open goes on, as only a look below LIDTH closes it (R264, log entry 51). -/
def State.confirm (s : State) (g t : Nat) (qs : List Int) : State × Nat :=
  let qd := List.zipWith (· - ·) qs (s.gang g).qbase
  let qmax := qd.foldl max (qd.headD 0)
  let qm := qd.findIdx (fun x => decide (x = qmax))
  let sum := sumInt (qd.map (fun x => if 0 < x then x else 0))
  let th : Int := 8 * (fld (s.reg 0x2714) 7 0 : Nat)
  if qmax < th then (s.setFlag 0x27 0, 0)
  else if (fld (s.reg 0x2714) 10 8 : Nat) * sum ≤ 8 * qmax then s.touch g qm t
  else if g = 3 ∧ wbit (s.reg 0x2715) 2 = true then
    if s.sk.lid.isSome then (s, 0) else State.lidLook { s with sk := { s.sk with lid := some 0 } } (s.gang 3).last
  else (s.setFlag 0x27 0, 0)

/-- The four quarter looks of a gang. -/
def quarterLooks (g : Nat) (u : QuarterUse) : List SkLook := tab 4 (fun q => .quarter g q u)

/-- A look at gang `g` has a burst: its comparator tripped or the look is forced (R257, step 5). -/
def State.lookBursts (s : State) (g : Nat) (force : Bool) (l : GangLook) : Bool :=
  decide (0 < s.sk.passLeft) || force || (s.gang g).out || s.trips g l.integ

/-- The end of a look at a gang in the entry pass (R260), or of one with a burst after it (R261 to R264): the state, the
gestures completed, and the looks that run directly after it. `t` is the cycle's start in ticker periods. An open LID
candidate is judged at every look of gang 3 that gives a result. -/
def State.gangResult (s : State) (g t : Nat) (r : Int) : State × Nat × List SkLook :=
  let x := s.gang g
  let s := s.setGang g { x with last := r }
  if 0 < s.sk.passLeft then (s.setGang g { s.gang g with out := false, sum := x.sum + r }, 0, quarterLooks g .pass)
  else
    let (s, c0) := if g = 3 then s.lidLook r else (s, 0)
    let lo := x.base - s.wlo g
    let hi := x.base + s.whi g
    let drift := fld (s.reg 0x2712) 15 8
    if x.out then
      if lo ≤ r ∧ r ≤ hi then
        let (s, c) := (s.setGang g { s.gang g with out := false, stay := 0, base := s.skBase x.base r }).release g t
        (s, c0 ||| c, [])
      else
        let stay := x.stay + 1
        if c0 = 0 ∧ drift ≠ 0 ∧ drift ≤ stay then (s.relearn g 1, 0, quarterLooks g .relearn)
        else (s.setGang g { s.gang g with stay := stay }, c0, [])
    else if r < lo then (s.relearn g 2, c0, quarterLooks g .relearn)
    else if hi < r then (s.setGang g { s.gang g with out := true, stay := 1 }, c0, quarterLooks g .confirm)
    else (s.setGang g { s.gang g with base := s.skBase x.base r }, c0, [])

/-- The end of a look of a cycle (R257): one without a burst changes nothing. -/
def State.gangLook (s : State) (c : Cycle) (g : Nat) : State × Nat × List SkLook :=
  let l := c.looks.getD g noLook
  if s.lookBursts g c.force l then s.gangResult g (c.start / 32) (s.burst g l.burst) else (s, 0, [])

/-- The codes of a quarter look's burst: a refresh's are those of the second four entries. -/
def quarterCodes (c : Cycle) (g q : Nat) (u : QuarterUse) : List Int :=
  match u with
  | .again => ((c.looks.getD g noLook).again).getD q []
  | .refresh => ((c.looks.getD (4 + g) noLook).quarters).getD q []
  | _ => ((c.looks.getD g noLook).quarters).getD q []

/-- The fourth quarter look of a confirmation: a stay that reaches DRIFTN without a wake relearns the gang at once (R262,
R263). -/
def State.confirmEnd (s : State) (g t : Nat) (qs : List Int) : State × Nat × List SkLook :=
  let (s, w) := s.confirm g t qs
  if w = 0 ∧ fld (s.reg 0x2712) 15 8 = 1 then (s.relearn g 1, 0, quarterLooks g .again) else (s, w, [])

/-- The end of a quarter look with result `r` (R260 to R263). -/
def State.quarterLook (s : State) (c : Cycle) (g q : Nat) (u : QuarterUse) : State × Nat × List SkLook :=
  let r := s.burst g (quarterCodes c g q u)
  let x := s.gang g
  match u with
  | .pass => (s.setGang g { x with qsum := x.qsum.set q (x.qsum.getD q 0 + r) }, 0, [])
  | .confirm => if q = 3 ∧ s.sk.passLeft = 0 then s.confirmEnd g (c.start / 32) (c.res ++ [r]) else (s, 0, [])
  | .relearn | .again => (s.setGang g { x with qbase := x.qbase.set q r }, 0, [])
  | .refresh => (s.setGang g { x with qbase := x.qbase.set q (s.skBase (x.qbase.getD q 0) r) }, 0, [])

/-- BASE and LAST as registers (Table SK-2). -/
def State.skShow (s : State) : State :=
  (List.range 4).foldl (fun s g =>
    (s.setReg (0x2720 + g) (wordOfInt (s.gang g).base)).setReg (0x2724 + g) (wordOfInt (s.gang g).last)) s

/-- STAT.OUT: the gangs outside their bands at their last look (Table SK-2). -/
def State.outMask (s : State) : Nat := sumNat (tab 4 (fun g => b2n (s.gang g).out * 2 ^ g))

/-- The enabled gangs outside their bands now; in the entry pass no band is known (R260, R267). -/
def State.outNow (s : State) : Nat :=
  if 0 < s.sk.passLeft then 0 else sumNat (tab 4 (fun g => b2n (s.gangOn g && (s.gang g).out) * 2 ^ g))

/-- Gestures that ran out of time by the cycle that started at `t` (R264). -/
def State.expire (s : State) (t : Nat) : State :=
  let dt := fld (s.reg 0x2716) 7 0 * unitU
  let gap := fld (s.reg 0x2716) 15 8 * unitU
  let lim := if s.sk.tapStage = 2 then gap else dt
  let s := if s.sk.tapAt + lim < t then { s with sk := { s.sk with tapStage := 0 } } else s
  if s.sk.swipeAt.any (fun t0 => decide (t0 + fld (s.reg 0x2717) 7 0 * unitU < t)) then { s with sk := { s.sk with swipeAt := none } } else s

/-- The end of a cycle at `t` fast periods: the schedule (R258, R259). -/
def State.cycleEnd (s : State) (start t : Nat) : State :=
  let s := s.expire (start / 32)
  let busy := decide (s.outNow ≠ 0) || decide (s.sk.tapStage ≠ 0) || s.sk.swipeAt.isSome || s.sk.lid.isSome
  let quiet := if busy then 0 else s.sk.quiet + 1
  let fast := if busy then true else s.sk.fast && decide (quiet < max 1 (fld (s.reg 0x2712) 7 0))
  let s := { s with sk := { s.sk with fast := fast, quiet := quiet } }
  { s with sk := { s.sk with cycleAt := max (start + s.skPeriod) (tickerEdge t) } }

/-- The next multiple of REFT × U after the end of the entry pass (R259). -/
def State.refreshStep (s : State) : Nat := max 1 (s.reg 0x2713).toNat * unitU * 32

/-- The end of a cycle of the entry pass: after the eighth the baselines are set, and the slow schedule follows (R260). -/
def State.passEnd (s : State) (start t : Nat) : State :=
  let left := s.sk.passLeft - 1
  let s := { s with sk := { s.sk with passLeft := left, fast := decide (left ≠ 0), quiet := 0 } }
  let s := if left ≠ 0 then s else
    (List.range 4).foldl (fun s g =>
      if s.gangOn g then
        let x := s.gang g
        s.setGang g { x with base := roundDiv x.sum 8, qbase := x.qsum.map (fun v => roundDiv v 8) }
      else s) { s with sk := { s.sk with refreshAt := t + s.refreshStep } }
  State.skShow { s with sk := { s.sk with cycleAt := max (start + s.skPeriod) (tickerEdge t) } }

/-- How long a look lasts (R257). -/
def State.itemLen (s : State) (c : Cycle) : SkLook → Nat
  | .gang g => if s.lookBursts g c.force (c.looks.getD g noLook) then s.skBlock else s.lookLen
  | .quarter _ _ _ => s.skBlock

/-- The quarters of a gang outside its band are not refreshed (R258). -/
def State.lookSkipped (s : State) : SkLook → Bool
  | .quarter g _ .refresh => (s.gang g).out
  | _ => false

/-- The next look of a cycle starts at `t`, or the cycle ends there (R258). -/
def State.skNext (s : State) (c : Cycle) (t : Nat) : List SkLook → State
  | [] =>
    let s := { s with sk := { s.sk with cyc := none } }
    if 0 < s.sk.passLeft then s.passEnd c.start t else s.cycleEnd c.start t
  | i :: rest =>
    if s.lookSkipped i then State.skNext s c t rest
    else { s with sk := { s.sk with cyc := some { c with todo := i :: rest, began := t, ends := t + s.itemLen c i } } }

/-- A Scarecrow cycle starts (R258 to R260): STAT.FAST shows its schedule. -/
def State.skCycle (s : State) (ls : List GangLook) : State :=
  let start := s.sk.cycleAt
  let pass := decide (0 < s.sk.passLeft)
  let force := !pass && decide (s.sk.refreshAt ≤ start)
  let s := s.setReg 0x2702 (w16 (256 * b2n s.sk.fast))
  let gs := (List.range 4).filter s.gangOn
  let step := s.refreshStep
  let s := if force then
      { s with sk := { s.sk with refreshAt := s.sk.refreshAt + ((start - s.sk.refreshAt) / step + 1) * step } } else s
  s.skNext { start := start, force := force, looks := ls, todo := [], res := [], began := start, ends := start } start
    (gs.map .gang ++ (if force then gs.flatMap (fun g => quarterLooks g .refresh) else []))

/-- The end of the burst that runs now (R175): a look ends with its burst. -/
def State.burstUntil (s : State) : Option Nat :=
  match s.sk.cyc with
  | some c => if s.ft < c.ends ∧ c.began + s.lookLen ≤ s.ft then some c.ends else none
  | none => if s.ft < s.sk.burstEnd then some s.sk.burstEnd else none

/-- The highest-ranked cause of a WCAUSE mask as the WAKE report codes it (R267). -/
def wakeCode (m : Nat) : Nat :=
  if m / 2 % 2 = 1 then 1 else if m / 4 % 2 = 1 then 2 else if m / 8 % 2 = 1 then 3 else if m / 16 % 2 = 1 then 4 else 5

/-- The quarter the WAKE report shows for a cause (R267): that of the second touch of a double tap, or of the last touch. -/
def State.wakeQuarter (s : State) (c : Nat) : Nat := if c = 1 then s.sk.tapQ else if c = 3 ∨ c = 5 then 0 else s.sk.qm

/-- A wake cause (R120, R265): ATTN is pulled low, AGE starts, the Scarecrow stops. A cause of the same ticker period as
the recorded one joins it, so that a look that ends in that period still counts; a later one is discarded. -/
def State.wakeUp (s : State) (mask : Nat) : State :=
  if s.ms.wake then
    if s.ft / 32 = s.ms.ageFrom / 32 then
      let m := (s.reg 0x2728).toNat ||| mask
      let s := s.setReg 0x2728 (w16 m)
      let c := wakeCode m
      { s with ms := { s.ms with cause := c, quarter := s.wakeQuarter c } }
    else s
  else
    let c := wakeCode mask
    let s := s.setReg 0x2728 (w16 mask)
    let keep := s.sk.cyc.bind (fun x => if x.ends / 32 = s.ft / 32 then some { x with todo := x.todo.take 1 } else none)
    let burst := s.burstUntil.getD 0
    let s := if keep.isSome then s else { s with sk := { s.sk with tapStage := 0, swipeAt := none, lid := none } }
    State.setFlag { s with
      ms := { s.ms with wake := true, cause := c, outMask := s.outNow, quarter := s.wakeQuarter c,
                        ageFrom := s.ft, exit := .waitClock }
      sk := { s.sk with running := false, cyc := keep, burstEnd := burst }
      link := { s.link with wakeAssert := true } } 0x02 2

/-- The look in progress takes effect at its end (R257 to R264): the state, the gestures completed, and the looks that run
directly after it. -/
def State.itemLook (s : State) (c : Cycle) : SkLook → State × Nat × List SkLook
  | .gang g => s.gangLook c g
  | .quarter g q u => s.quarterLook c g q u

/-- The results of a confirmation after a look: those of its quarter looks so far. -/
def State.itemRes (s : State) (c : Cycle) : SkLook → List Int
  | .quarter g q .confirm => if q = 3 then [] else c.res ++ [s.burst g (quarterCodes c g q .confirm)]
  | _ => []

/-- A wake cause ends the cycle: no gesture goes on (R265). -/
def State.itemWake (s : State) (w : Nat) : State :=
  let s := { s with sk := { s.sk with cyc := none, tapStage := 0, swipeAt := none, lid := none } }
  if w ≠ 0 then s.wakeUp w else s

/-- The look in progress ends on this fast period (R258): its results, a completed gesture (R264, R265), and the next look
unless a wake cause has come. -/
def State.itemDone (s : State) : State :=
  match s.sk.cyc with
  | none => s
  | some c =>
    match c.todo with
    | [] => { s with sk := { s.sk with cyc := none } }
    | i :: rest =>
      let r := s.itemLook c i
      let t := r.1.skShow
      if r.2.1 ≠ 0 ∨ t.ms.wake = true then t.itemWake r.2.1 else t.skNext { c with res := s.itemRes c i } c.ends (r.2.2 ++ rest)

/-- A host wake request (R79, R265); one that comes before MODE reads 3 is kept. -/
def State.hostWake (s : State) : State :=
  if decide (s.ms.mode = Mode.dormant) && decide (s.ms.exit = ExitStage.none) then
    State.wakeUp { s with pw := { s.pw with attnHost := true } } 1
  else if s.ms.wake && decide (s.ms.exit = ExitStage.waitClock) && decide (s.ft / 32 = s.ms.ageFrom / 32) then
    State.wakeUp { s with pw := { s.pw with attnHost := true } } 1
  else if s.ms.entering && decide (s.ms.mode ≠ Mode.dormant) then
    { s with ms := { s.ms with wakeKept := true }, pw := { s.pw with attnHost := true } }
  else s

/-- MODE reads 3 (R118): the mode, the end of GO_DORMANT, the Scarecrow, what the ticker times from now on. A trigger held
since the boundary is discarded (R171). -/
def State.dormantSet (s : State) : State :=
  if !s.ms.entering || decide (s.ms.mode = Mode.dormant) then s
  else
    let kept := s.ms.wakeKept
    let s := s.setMode .dormant
    let s := { s with ms := { s.ms with entering := false, refRdy := false, wakeKept := false, wake := false, exit := .none }
                      clk := { s.clk with absence := 0 }
                      inj := { s.inj with phase := .idle }
                      sh := { s.sh with jobAt := none } }
    let s := s.unschedule (fun i => decide (i = Instr.shedPageProgramDone) || decide (i = Instr.shedSaveReadbackDone))
    let s := s.cmdDone.skEnter
    if kept then s.wakeUp 1 else s

/-- The steps of a DORMANT exit begin (R120, R250, R266, R376). -/
def State.exitBegin (s : State) : State :=
    let age := min 65535 ((s.ft - s.ms.ageFrom) / 32)
    let s := s.advance s.clk.absence (s.reg 0x0312).toNat 32 32
    let s := { s with ms := { s.ms with age := age, exit := .relock }
                      sk := { s.sk with running := false, cyc := none, burstEnd := 0, exitDue := false } }
    let s := match s.clk.staged with | some f => s.changeDeclaration f | none => s.writeAnchor
    let s := { s with clk := { s.clk with absence := 0, stops := 0, cum := 0, tripped := false, measFrom := s.now }
                      pw := { s.pw with attnHost := false }
                      tb := { s.tb with counted := false }
                      link := { s.link with noCause := decide (s.ms.cause = 5) }
                      scan := { s.scan with slot := none, nextAt := none, rest := false, ended := none } }
    s.clocheExit.pinsStart.startRelock .dormantExit

/-- The first HCLK edge after a wake cause (R120, R266): the exit begins, or waits for the end of a burst that runs
(R175). -/
def State.exitStart (s : State) : State :=
  if !(decide (s.ms.mode = Mode.dormant) && decide (s.ms.exit = ExitStage.waitClock)) then s
  else if s.burstUntil.isSome then { s with sk := { s.sk with exitDue := true } }
  else s.exitBegin

/-- The WAKE report's body (R267). -/
def State.wakeBody (s : State) : List Word :=
  [w16 (s.ms.cause + 16 * s.ms.outMask + 256 * s.ms.quarter), w16 s.ms.age]

/-- The end of a relock (R43): the code, LOCK, and what waited for it. -/
def State.relockEnd (s : State) (code : Word) : State :=
  match s.clk.relock with
  | none => s
  | some k =>
    let s := State.setReg { s with clk := { s.clk with relock := none, lock := true, lineAt := s.now } } 0x0114
      (w16 (max 100 (min 500 code.toNat)))
    match k with
    | .first | .period => s.stepCheck
    | .frozenSlot =>
      let s := match s.scan.slot with | some x => s.emitCut x .frozen s.scan.cutPause | none => s
      match s.scan.slot, s.inj.phase with
      | some (.regular e), .pending => s.injStart s.now (some e)
      | _, _ => s
    | .dormantExit =>
      let s := s.queueLife (s.eventReport 0x12 s.wakeBody)
      State.refStart { s.periodStart with ms := { s.ms with exit := .settle } } .exit s.ms.refUse

/-- DELAY_LINE_LOCK: the first lock takes at most 256 hc, every other relock takes 256 (R43, R109); none while HCLK is
stopped. -/
def State.delayLock (s : State) (code : Word) : State :=
  if s.hcDriven && (decide (s.clk.relock = some Relock.first) || decide (s.clk.lockAt ≤ s.now)) then s.relockEnd code else s

/-- The electrodes of a look: those of its gang's range (R256), or of quarter q of it (R260). -/
def State.lookHas (s : State) (i : SkLook) (drive : Bool) (n : Nat) : Bool :=
  let span (g : Nat) (a b : Nat → Nat → Nat) : Bool :=
    let w := s.reg (0x2708 + g)
    let first := fld w 6 0
    let len := fld w 14 8 + 1 - first
    (wbit w 7 == drive) && decide (first + a len 4 ≤ n) && decide (n < first + b len 4)
  match i with
  | .gang g => span g (fun _ _ => 0) (fun len _ => len)
  | .quarter g q _ => span g (fun len k => q * len / k) (fun len k => (q + 1) * len / k)

/-- The gang a look looks at. -/
def SkLook.gangNo : SkLook → Nat
  | .gang g => g
  | .quarter g _ _ => g

/-- What the Scarecrow does to an electrode (R257): between looks it has no connection; in a look at gang g it is joined to
integrator g, or it carries the transfer waveform as a shield, or it is held at the bias level (SHLD). -/
inductive ScareHold where
  | idle
  | integrator (g : Nat)
  | shield
  | bias
  deriving DecidableEq, Repr

/-- What the Scarecrow does to Sn, or to Dn (R257, step 1). -/
def State.scareHold (s : State) (drive : Bool) (n : Nat) : ScareHold :=
  match s.sk.cyc.bind (fun c => c.todo.head?) with
  | none => .idle
  | some i =>
    if s.lookHas i drive n then .integrator i.gangNo else if wbit (s.reg 0x2701) 4 then .shield else .bias

/-- Dn is in an enabled gang: from DORMANT entry to the release of R266 its Rake output is disconnected and the electrode is
joined to the gang bus through its test-bus switch (R256). -/
def State.onGangBus (s : State) (n : Nat) : Bool :=
  decide (s.ms.exit = ExitStage.none ∨ s.ms.exit = ExitStage.waitClock) &&
    (List.range 4).any (fun g => s.gangOn g && s.lookHas (.gang g) true n)

/-- SCARE.STAT (Table SK-2). -/
def State.scareStat (s : State) : Nat := s.sk.gdis + 16 * s.outMask + (s.reg 0x2702).toNat % 0x8000 / 256 * 256

end Machine
end Sys2Proof
end

