-- ==== Sys2Proof/Machine/BoundaryOps.lean ====
section
/-! DEFINITION. Frames as they enter (R187, R194, R244) and frame boundaries (R107, R118, R151, R241): what takes
effect there, in order, and the frame that starts. -/

namespace Sys2Proof
namespace Machine

def FrameCtx.regular (c : FrameCtx) : Bool := !decide (c.kind = FrameKind.baseline) && !decide (c.kind = FrameKind.reentry)

/-- A baseline or re-entry frame enters (R110, R120, R217): it is consumed, and the last of them forms the
baselines. It has no delta image (R209). -/
def State.baseEntry (s : State) (c : FrameCtx) : State :=
  let s := (s.countFrame .consumed).baseAccumulate (c.cells true) c.selfVals
  let s := if decide (c.kind = FrameKind.baseline) && decide (8 ≤ s.tr.sumN) then s.baseForm false c.no
    else if decide (c.kind = FrameKind.reentry) && decide (2 ≤ s.tr.sumN) then s.baseForm true c.no else s
  State.waterEnter { s.clocheFrame c with tr := { (s.clocheFrame c).tr with images := [] } } c

/-- A regular or repeated frame is taken (R187, R194, R215 to R220, R289). -/
def State.normalEntry (s : State) (c : FrameCtx) : State :=
  let s := s.countFrame .consumed
  let cells := c.cells true
  let s := if c.keep then s.resamplerEnter ((List.range 6).map (fun e => (getKey e c.starts).getD 0)) c.gdly cells else s
  let s := (s.trellisFrame c.no cells c.selfVals).clocheFrame c
  (s.waterEnter c).calFrame c

/-- The records of LS arrive: the frame enters, or would have entered (R187, R211, R244, R304, R305). A replaced frame counts in FDISC
where its repetition has not begun and DORMANT is to be entered. While the core is
halted each frame counts as discarded, and a discarded frame does not enter (R76, R187; log entry 58). -/
def State.frameEntry (s : State) (c : FrameCtx) : State :=
  let s := { s with scan := { s.scan with frames := s.scan.frames.filter (fun (x : FrameCtx) => decide (x.no ≠ c.no)) } }
  if c.replaced then
    s.countFrame (if (s.ms.entering || decide (s.ms.due = some 3)) && decide (s.dg.repeatDue = some c.no) then .discarded else .replaced)
  else if s.impulseFrame c then s.impulseDiscard
  else
    let s := s.impulsePassed c
    if s.ms.halted then s.countFrame .discarded
    else
      let s := s.peekLoad c
      if c.regular then s.normalEntry c else s.baseEntry c

/-- One slot's records reach the Cloche and the Trellis (R187, R202, R299). -/
def State.recordsIn (s : State) (r : SlotRecs) : State :=
  match r.kind with
  | .injected i => if r.cut then s else s.clocheInjected i r.elecs
  | .cal _ => s
  | .regular e =>
    if r.cut then s
    else
    let s := { s with scan := { s.scan with frames := s.scan.frames.map (fun (c : FrameCtx) =>
      if c.no = r.frame then { c with got := c.got ++ [r] } else c) } }
    match s.scan.frames.find? (fun (c : FrameCtx) => decide (c.no = r.frame)) with
    | none => s
    | some c =>
      let s := if e < 6 then s.healthSlot c e r.health else s
      if e = 7 then
        match s.scan.frames.find? (fun (c : FrameCtx) => decide (c.no = r.frame)) with
        | some c => s.frameEntry c
        | none => s
      else s

/-- The records whose hc has come. -/
def State.recordsDue (s : State) : State :=
  let due := s.scan.flight.filter (fun r => decide (r.due ≤ s.now))
  due.foldl State.recordsIn { s with scan := { s.scan with flight := s.scan.flight.filter (fun r => !decide (r.due ≤ s.now)) } }

/-- The scan stops: no slot and no boundary is due. -/
def State.scanStop (s : State) : State :=
  { s.periodStart with scan := { s.scan with slot := none, h := 0, lead := 0, paused := false, tailAt := none, nextAt := none, rest := false } }

/-- DORMANT is entered on this hc (R118): forced UPs, the ratio, locks, the converters. The records still on their way
enter now, the outputs due at them count (R195), outputs not processed are dropped, and a held trigger is discarded (R171; log entry 31). -/
def State.enterDormant (s : State) : State :=
  let s := s.forceAll 1
  let s := s.setReg 0x0312 (s.reg 0x0311)
  let s := { s with link := { s.link with unlocked := [] }, ms := { s.ms with entering := true, due := none, auto := none, idleAt := none } }
  let s := s.scan.flight.foldl State.recordsIn { s with scan := { s.scan with flight := [] } }
  let s := (s.sv.outs.filter (fun (o : Output) => !o.seen)).foldl State.outputCount s
  let drops (i : Instr) : Bool := decide (i = Instr.trellisOutput) || decide (i = Instr.outputReady) || decide (i = Instr.recordsReady)
    || decide (i = Instr.automode) || decide (i = Instr.waterMapUpdate) || decide (i = Instr.ntrip)
  let s := s.unschedule drops
  let s := { s with sv := { s.sv with outs := [] }, inj := { s.inj with phase := .idle }
                    scan := { s.scan with frames := [], frameNo := s.scan.frameNo }
                    dg := { s.dg with repeatDue := none, ovlCnt := [], ovlNow := [] } }
  (s.clocheDormant.scanStop).after 64 .dormantModeSet

/-- GO_DORMANT takes effect at this boundary, or at the first hc after the page program under way (R118). The manual is
silent on the scan in between: the model starts no frame (DESIGN CHOICE, log entry 66). -/
def State.goDormantOp (s : State) : State :=
  if s.sh.jobs.isEmpty then s.enterDormant
  else State.scanStop { s with ms := { s.ms with entering := true, due := none } }

/-- What ends with the boundary (R111, R120, R288): start-up, the activity with its baseline frames, the exit. -/
def State.activityEnd (s : State) : State :=
  match s.scan.after with
  | .none => s
  | .startupEnd => if s.scan.baseLeft = 0 then s.bootEnd (if s.ms.step = 5 ∨ s.ms.held = some 4 then .service else .active) else s
  | .calEnd =>
    if s.scan.baseLeft = 0 then { s with ms := { s.ms with syncDue := true }, scan := { s.scan with after := .none } } else s
  | .exitEnd =>
    if s.scan.reLeft ≠ 0 then s
    else
      let target : Mode := match s.ms.held with
        | some 1 => .active
        | some 2 => .watch
        | some 4 => .service
        | _ => if wbit (s.reg 0x020C) 2 then .watch else .active
      let s := { s with ms := { s.ms with exit := .none, wake := false, syncDue := true }, scan := { s.scan with after := .none } }
      let s := s.setMode target
      let s := if target = .service then s.forceAll 1 else s
      (if target = .active then s.idleRestart else s).proceedHeld

/-- A frame that was replaced and counted in FREP before DORMANT entry has no repetition: it counts in FDISC (R305). -/
def State.dropRepeat (s : State) : State :=
  match s.dg.repeatDue with
  | some no =>
    if s.scan.frames.any (fun c => decide (c.no = no)) || s.rq.frep = 0 then s
    else { s with rq := { s.rq with frep := s.rq.frep - 1, fdisc := inc32 s.rq.fdisc } }
  | none => s

/-- REFX was out of its window: REFFAIL, and the internal reference from this boundary on (R163). -/
def State.refGone (s : State) : State :=
  if s.ms.refBad then
    State.setFlag { s with ms := { s.ms with refBad := false, refRdy := false, refUse := 0 } } 0x02 0
  else s

/-- The idle time of R117 has passed with AUTOW = 1, also where AUTOW was written after it passed. -/
def State.idleOver (s : State) : Bool :=
  wbit (s.reg 0x020C) 0 && decide (s.ms.mode = Mode.active) && s.ms.idleAt.any (fun t => decide (t ≤ s.now))

/-- An automatic change that has been noted takes place: one to WATCH only while AUTOW is 1 (DESIGN CHOICE, log entry 64). -/
def State.autoStands (s : State) (m : Mode) : Bool := decide (m ≠ Mode.watch) || wbit (s.reg 0x020C) 0

/-- The mode change due at this boundary (R115 to R117, Table MS-6). True where DORMANT entry ends the boundary. An
automatic change that is dropped for a command that is BUSY falls due after another idle time (DESIGN CHOICE, log entry
64). -/
def State.modeBoundary (s : State) : State × Bool :=
  match s.ms.due with
  | some 3 => ((s.dropRepeat.refGone.writeAnchor).goDormantOp, true)
  | some c =>
    let m : Mode := if c = 1 then .active else if c = 2 then .watch else .service
    let s := { s with ms := { s.ms with due := none, auto := none } }
    let s := s.setMode m
    let s := if m = .service then s.forceAll 1 else s
    let s := s.cmdDone
    (if m = .active then s.idleRestart else s, false)
  | none =>
    match (if s.idleOver then some Mode.watch else s.ms.auto.filter s.autoStands) with
    | some m =>
      let s := { s with ms := { s.ms with auto := none } }
      if s.ms.busy || decide (s.ms.mode = m) then (if m = .watch then s.idleRestart else s, false)
      else
        let s := (s.setMode m).setFlag 0x02 1
        (if m = .active then s.idleRestart else s, false)
    | none => (s, false)

/-- VPHMON, IPHMON and the monitors of R313 in a host-clocked mode (R37). -/
def State.monitorsIn (s : State) (m : Monitors) : State :=
  if s.hostClocked then
    ((s.setReg 0x0122 (w16 (min 1023 m.vph))).setReg 0x0123 (w16 (min 255 m.iph))).monitorDiag m
  else s

/-- The source a reference change due at this boundary switches to (R114, R163); `service` says that the mode before or after the
boundary is SERVICE: the host's write was made in it, or has waited for it. Where the fall-back of R163 is due too, it comes first
and the write is kept for the next boundary (DESIGN CHOICE, log entry 74). -/
def State.refChange (s : State) (service : Bool) : Option Nat :=
  if s.ms.refBad then some 0
  else if s.ms.refDue && service then some (fld (s.reg 0x0209) 1 0)
  else none

/-- A reference change takes effect at this boundary (R114, R163): no slot runs until it has settled. -/
def State.refBoundary (s : State) (src : Nat) : State :=
  let bad := s.ms.refBad
  let s := s.refGone
  State.scanStop (State.refStart { s with ms := { s.ms with refDue := s.ms.refDue && bad } } .scan src)

/-- The calibration slots of a due command start in place of a frame (R288, R293, R310). -/
def State.calBoundary (s : State) (c : Nat) : State :=
  let k : CalKind := if c = 0x05 then .selfcal else if c = 0x13 then .trace else .openw
  let s := (State.forceAll { s with ca := { s.ca with due := none } } 6).calBegin k
  State.startSlot { s with scan := { s.scan with nextAt := none, after := .calEnd } } (.cal 0) 0

def State.addReacq (s : State) (k : ReacqKind) (frame : Nat) : State :=
  { s with tr := { s.tr with reacq := s.tr.reacq ++ [{ kind := k, elec := none, drive := none, frame := frame }] } }

/-- Re-acquisitions of a plan or guard change at this boundary, and the session's end (Table TR-1, R292): every plan
change ends it, one that commits an equal table too. `seq` was PLANSEQ before the boundary. -/
def State.planReacq (s : State) (old : Plan) (seq : Word) (frame : Nat) : State :=
  let moved := movedDrives old.active s.tone.active
  let s := { s with tr := { s.tr with reacq := s.tr.reacq ++ moved.map (fun n =>
    { kind := .drive, elec := none, drive := some n, frame := frame }) } }
  let s := if old.gbin ≠ s.tone.gbin then s.addReacq .guardTone frame else s
  if s.reg 0x0508 ≠ seq then s.calDiscard else s

/-- The words of a range that differ between the settings in force and the registers. -/
def State.changed (s : State) (l : List Nat) : Bool := l.any (fun a => decide (s.force.get a ≠ s.reg a))

def rangeOf (lo n : Nat) : List Nat := (List.range n).map (lo + ·)

/-- The τ words (R147). -/
def tauAddrs : List Nat := (List.range 96).map (fun m => laneAddr (m % 16) (0x10 + m / 16)) ++ rangeOf 0x0640 64

/-- The CALU gains and offsets (R291). -/
def caluAddrs : List Nat := rangeOf 0x2C10 240

/-- A filter change (R182): the filter in use, GDLY, COEF_NEW, the forming period, re-acquisition. -/
def State.filterBoundary (s : State) (frame : Nat) : State × Bool :=
  let c := s.reg 0x2201
  let mode := b2n (wbit c 0)
  let bank := b2n (wbit c 1)
  let len := (s.reg 0x2208).toNat
  let tag := decide (mode ≠ s.sv.modeUse) || (decide (mode = 0) && decide (bank ≠ s.sv.bankUse))
    || (decide (mode = 1) && decide (len ≠ s.sv.lenUse))
  let s := { s with sv := { s.sv with modeUse := mode, bankUse := bank, lenUse := len } }
  let s := s.setReg 0x2209 (w16 (2 * (s.filterLen - 1)))
  let tag := tag && decide (s.scan.frameNo ≠ 0)
  if tag then (((s.addReacq .filter frame).formStart 1).calDiscard, true) else (s, false)

/-- The map, curves and descriptor words take effect (R216, R223, R233, R234). -/
def State.panelBoundary (s : State) (frame : Nat) : State :=
  let ok := (mapWords (s.reg 0x2510) (s.reg 0x2511)).ok
  let mapNew := s.changed (rangeOf 0x2510 2)
  let applied := ok && (decide (s.reg 0x2510 ≠ s.tr.mapS) || decide (s.reg 0x2511 ≠ s.tr.mapD))
  let dagger := applied || s.changed (rangeOf 0x2512 4) || decide (s.tr.ucurve ≠ s.tr.curve)
  let s := if dagger then (s.forceAll 6).addReacq .filter frame else s
  let s := if ok then { s with tr := { s.tr with mapS := s.reg 0x2510, mapD := s.reg 0x2511 } } else s
  let s := { s with tr := { s.tr with curve := s.tr.ucurve, hid := hidWords s.regs } }
  let curveBad := State.curveBad { s with force := s.force.set 0x2515 (s.reg 0x2515) }
  (s.setFlagIf (mapNew && !ok) 0x25 3).setFlagIf (dagger && curveBad) 0x25 3

/-- Every other setting takes effect (R12, R135, R141, R145, R147, R161, R291, R301): what a change of it causes. -/
def State.settingsBoundary (s : State) (frame : Nat) : State × Bool :=
  let s := if s.changed tauAddrs || decide (wbit (s.force.get 0x0601) 0 ≠ wbit (s.reg 0x0601) 0) then
      (s.addReacq .sense frame).calDiscard else s
  let apply := decide (wbit (s.force.get 0x2C01) 0 ≠ wbit (s.reg 0x2C01) 0)
  let s := if apply || s.changed caluAddrs then (s.forceAll 6).addReacq .filter frame else s
  let s := if decide (fld (s.force.get 0x2A08) 8 0 ≠ fld (s.reg 0x2A08) 8 0) then s.formStart 1 else s
  let rmode := decide (wbit (s.force.get 0x2201) 2 ≠ wbit (s.reg 0x2201) 2)
  let s := s.panelBoundary frame
  let (s, tag) := s.filterBoundary frame
  let svc := decide (s.ms.mode = Mode.service)
  let s := { s with
    force := s.regs
    dg := { s.dg with dctrl := if svc && !s.calRuns then s.reg 0x2A14 else 0, dacOff := s.dg.dacOff && s.calRuns, drvoff := svc && wbit (s.reg 0x2A01) 1 }
    ms := { s.ms with syncDue := s.ms.syncDue || rmode || s.sv.rsync } }
  (s, tag)

/-- The period of the frame that starts (R107, R110, R120, R122, Table LC-3). -/
def State.framePeriod (s : State) (k : FrameKind) : Nat :=
  match k with
  | .regular =>
    let slow := decide (s.ms.mode = Mode.watch) || (s.pw.warm && wbit (s.reg 0x0201) 0)
    1024 * (s.reg (if slow then 0x020B else 0x020A)).toNat
  | _ => 81920

/-- The kind of the frame that starts. -/
def State.nextKind (s : State) : FrameKind :=
  if s.dg.repeatDue.isSome then .repetition
  else if s.scan.baseLeft ≠ 0 then .baseline
  else if s.scan.reLeft ≠ 0 then .reentry
  else .regular

/-- M0 of a new frame starts on this hc (R107, R141, R144, R188). -/
def State.frameStart (s : State) : State :=
  let k := s.nextKind
  let no := s.scan.frameNo + 1
  let base := decide (k = FrameKind.baseline) || decide (k = FrameKind.reentry)
  let tag := s.scan.coefNew
  let ctx : FrameCtx := {
    no := no, kind := k, starts := [], got := [], gdly := 2 * (s.filterLen - 1), scph := s.scan.scph, coefNew := tag,
    replaced := false, keep := !base && !s.sv.waitReset, tones := s.tone.active, gbin := s.tone.gbin, dflt := s.dg.dflt,
    regs := s.force }
  let s := { s with
    dg := { s.dg with repeatDue := none }
    ms := { s.ms with boundaries := s.ms.boundaries + 1 }
    scan := { s.scan with
      frameNo := no, frames := s.scan.frames ++ [ctx], sched := s.now, period := s.framePeriod k, nextAt := none, rest := false
      baseLeft := if decide (k = FrameKind.baseline) then s.scan.baseLeft - 1 else s.scan.baseLeft
      reLeft := if decide (k = FrameKind.reentry) then s.scan.reLeft - 1 else s.scan.reLeft
      visitNow := (List.range 96).map (erng s.regs), framed := true, based := base } }
  s.startSlot (.regular 0) 0

/-- What the frame that ends here leaves behind: the last visits (R144), SCPH (R141), and COEF_NEW for the repetition
of a frame that carried it (log entry 13). At DORMANT entry a replaced frame has no repetition (R305). -/
def State.frameEnd (s : State) : State :=
  if !s.scan.framed then s
  else
    let replaced : Bool := decide (s.dg.repeatDue = some s.scan.frameNo)
    let rep : Bool := replaced && !decide (s.ms.due = some 3)
    { s with scan := { s.scan with framed := false
                                   coefNew := rep && s.scan.coefNew
                                   visit := if replaced then s.scan.visit else s.scan.visitNow
                                   scph := if rep then s.scan.scph else (s.scan.scph + 1) % 6 } }

/-- A held trigger takes this boundary as its trigger hc (R171). The sequence runs before M0 of a repetition (R172,
R305). -/
def State.injHeldNow (s : State) (rep : Bool) : State :=
  if decide (s.inj.phase = InjPhase.held) && !s.injHeld then
    let s := { s with inj := { s.inj with trigAt := s.now } }
    if rep then (s.noteInj 0 false false).injStart s.now (some 0) else s.injHandle
  else s

/-- The epoch record of a REBASE is programmed from this boundary on (R123, R324). -/
def State.epochBoundary (s : State) : State :=
  if s.ms.epochOwed then State.shedEpoch { s with ms := { s.ms with epochOwed := false } } else s

/-- What takes effect at every boundary of the scan, whatever starts there (R12, R135, R161, R194, R205, R248, R290). A
COEF_NEW that a change causes waits for the next frame. `frames` says that a frame starts: the roaming entries count those. -/
def State.settingsTaken (s : State) (frames : Bool) : State :=
  let frame := s.scan.frameNo + 1
  let old := s.tone
  let seq := s.reg 0x0508
  let s := if frames then s.roam else s
  let s := ((s.listenWrites.planBoundary).planReacq old seq frame).solveBoundary
  let (s, tag) := s.settingsBoundary frame
  let s := if s.ms.syncDue then State.syncReset { s with ms := { s.ms with syncDue := false } } else s
  { s.writeAnchor with inj := { s.inj with startedSince := false }, scan := { s.scan with coefNew := s.scan.coefNew || tag } }

/-- The frame that starts at a boundary, or the injected sequence before it (R107, R171, R172). -/
def State.boundaryFrame (s : State) : State :=
  let rep := s.dg.repeatDue.isSome
  s.frameStart.injHeldNow rep

/-- What starts at a boundary that does not enter DORMANT: a reference change first, whose settling every other start waits
for, a lane repetition too (R114, R163, R303; the order is a DESIGN CHOICE, log entry 65); then a repetition; then calibration
slots; else the next frame (R305). A held trigger starts at a boundary with an M0 alone: where a reference change or a calibration
activity starts it stays held (R171; DESIGN CHOICE, log entry 80). -/
def State.boundaryStart (s : State) (service : Bool) : State :=
  let due := if s.dg.repeatDue.isSome then none else s.ca.due
  let ref := s.refChange service
  let s := s.settingsTaken (ref.isNone && due.isNone)
  match ref, due with
  | some src, _ => s.refBoundary src
  | none, some c => s.calBoundary c
  | none, none => s.boundaryFrame

/-- The report format of every report that this boundary queues is the one that takes effect here (R107, R234). -/
def State.formatTaken (s : State) : State :=
  { s with force := (s.force.set 0x2501 (s.reg 0x2501)).set 0x2516 (s.reg 0x2516) }

/-- A frame boundary (R107): what ends, the remaps, the overloads, the monitors, the mode change, then what starts. -/
def State.boundary (s : State) (m : Monitors) : State :=
  if !s.boundaryDue then s
  else
    let s := s.formatTaken.epochBoundary.activityEnd
    let was := (s.dg.serves, s.dg.interp)
    let forced := decide (s.dg.forced ≠ [])
    let s := s.remapBoundary (s.scan.frameNo + 1)
    let s := if decide (was ≠ (s.dg.serves, s.dg.interp)) then s.calDiscard else s
    let s := if forced then s.cmdDone else s
    let s := if s.scan.framed then s.driveBoundary else s
    let s := s.frameEnd.monitorsIn m
    let service := decide (s.ms.mode = Mode.service)
    let (s, dormant) := s.modeBoundary
    if dormant then s else s.boundaryStart (service || decide (s.ms.mode = Mode.service))

end Machine
end Sys2Proof
end

