-- ==== Sys2Proof/Machine/RegRead.lean ====
section
/-! DEFINITION. What a register read returns and does (R85 to R97): live words, status words, windows, the read shadow,
and the read-to-clear words. -/

namespace Sys2Proof
namespace Machine

/-- The status bits of a page, LSTALE aside (the STAT rows of each chapter). -/
def State.pageStat (s : State) (p : Nat) : Nat :=
  if 0x10 ≤ p && p ≤ 0x20 then s.laneStat (p - 0x10)
  else match p with
  | 0x00 => s.sysStat
  | 0x01 => s.outst + 256 * s.wfree
  | 0x02 => s.ms.refUse + 4 * s.ms.step
  | 0x03 => s.timeStat
  | 0x05 => b2n s.tone.cpend.isSome + 2 * b2n s.tone.source
  | 0x06 => s.scan.scph + 8 * b2n s.scan.blkEff + 16 * b2n s.blankIgnored
  | 0x21 => s.adcStat
  | 0x22 => s.sv.bankUse + 2 * s.sv.modeUse + 4 * b2n (decide (s.sv.modeUse = 1) && decide (388 < s.sv.lenUse))
      + 8 * b2n s.sv.locked + 16 * b2n s.sv.rprime
  | 0x24 => s.clocheStat
  | 0x25 => s.tr.contacts.length + 32 * b2n (ucValid s.tr.ucurve)
  | 0x26 => s.queueStat
  | 0x27 => s.scareStat
  | 0x28 => sumNat (tab 6 (fun t => b2n (decide (1 ≤ (s.timer t).mode) && decide ((s.timer t).mode ≤ 4) && !s.timerFrozen t) * 2 ^ t))
  | 0x29 => b2n s.gg.level
  | 0x2A => b2n s.healthOff
  | 0x2B => s.sh.stat
  | 0x2C => s.caluStat
  | 0x2D => b2n (!s.fac.good)
  | 0x2E => b2n (!s.fac.good)
  | _ => 0

/-- STAT with LSTALE (R85, R95); CALF.STAT.LSTALE reads 0 (Table RI-23). -/
def State.statWord (s : State) (p : Nat) : Word :=
  let lstale : Word := if p = 0x2D then 0 else s.reg (p * 256 + 2) &&& 0x8000
  (w16 (s.pageStat p) &&& 0x7FFF) ||| lstale

/-- LOCK as read (Table RP-3). -/
def State.lockWord (s : State) (p : Nat) : Word :=
  if keyedPage p then (s.reg (p * 256 + 6) &&& 6) ||| w16 (b2n (s.unlocked p)) else 0

/-- TSTAT (Table TG-6). -/
def State.timerStat (s : State) (t : Nat) : Word :=
  let x := s.timer t
  w16 (b2n x.down + 2 * b2n x.capn + 4 * b2n x.ovr + 8 * b2n x.order + 16 * b2n x.res + 32 * b2n x.armed
    + 64 * b2n (s.timerFrozen t))

/-- A word of a timer's block (Table TG-6). PERIOD never reads 0 (R270). -/
def State.timerWord (s : State) (t o : Nat) : Word :=
  let x := s.timer t
  match o with
  | 0 => x.ctrl
  | 1 => x.sel
  | 2 => s.timerStat t
  | 4 => wordAt x.count 0
  | 5 => wordAt x.count 1
  | 6 => wordAt (max 1 x.perBuf) 0
  | 7 => wordAt x.perBuf 1
  | 8 => wordAt x.cap 0
  | 9 => wordAt x.cap 1
  | _ => 0

/-- A word of page CALF (Table CA-1): the stored content, or the nominal value where the check failed (R283). -/
def State.calfWord (s : State) (o : Nat) : Word :=
  if 0x10 ≤ o ∧ o < 0xDC then w16 (s.calf o (if 4 ≤ (o - 0x10) % 12 ∧ (o - 0x10) % 12 < 8 then 32768 else 0))
  else match o with
  | 0x08 => w16 (s.calf o 1)
  | 0x09 => w16 (s.calf o 128)
  | 0x0A => w16 (s.calf o 128)
  | 0x0B => w16 (s.calf o 512)
  | 0x0C => w16 (s.calf o 0)
  | 0x0D => w16 (s.calf o 8192)
  | 0x0E => w16 (s.calf o 16384)
  | 0x0F => w16 (s.calf o 32768)
  | _ => 0

/-- A word of page LIKE that no register file entry holds (Table LK-1). -/
def State.likeWord (s : State) (o : Nat) : Word :=
  let fact (i : Nat) : Word := (getKey (0x2E00 + i) s.fac.words).getD 0
  match o with
  | 0x08 => 0x0101
  | 0x09 => 0x0101
  | 0x0A => 0x6496
  | 0x0B => 0x7E1A
  | 0x0C => 0x0001
  | 0x0D => fact o &&& 0x1FFF
  | 0x0E | 0x0F | 0x10 => fact o
  | _ => s.reg (0x2E00 + o)

/-- SLEWREM holds 32 bits; a longer slew reads a free value (R252, log entry 3). -/
def State.slewWord (s : State) (i : Nat) : Word :=
  if s.tb.slewRem < 2 ^ 32 then wordAt s.tb.slewRem i else Config.freeWord (s.free + i)

/-- The coefficient PTR addresses; an index above 191 reads 0 (R199). -/
def State.coefAt (s : State) : Int :=
  let p := s.reg 0x2308
  if fld p 7 0 < 192 then (s.sv.coef.getD (fld p 8 8) []).getD (fld p 7 0) 0 else 0

/-- The half of SVCOEF.DATA that an access moves: the high one if a low half of a pair has gone before (R199). -/
def State.coefHalf (s : State) : Word := if s.sv.half.isSome then coefHigh s.coefAt else coefLow s.coefAt

/-- The user table word at UCPTR; an index above 100 reads 0 (R223). -/
def State.curveWord (s : State) : Word := s.tr.ucurve.getD (fld (s.reg 0x2518) 6 0) 0

/-- The registers held beside the register file, and the register file's words (R82, R83). -/
def State.blockWord (s : State) (a : Nat) : Word :=
  match a with
  | 0x0009 => w16 s.cmdStat
  | 0x00F0 => s.summary 0 7
  | 0x00F1 => s.summary 0x10 16
  | 0x00F2 => s.summary 0x20 16
  | 0x0109 => w16 s.link.wacc
  | 0x0110 => w16 s.clk.decl
  | 0x0111 => (s.reg 0x0111 &&& 0x1F00) ||| w16 (b2n (decide (s.clk.decl ≠ 0)) + 2 * b2n s.clk.staged.isSome + 4 * b2n s.clk.lock)
  | 0x0120 => w16 s.wstat
  | 0x0308 => wordAt s.tb.tsc 0
  | 0x0309 => wordAt s.tb.tsc 1
  | 0x030A => wordAt s.tb.tsc 2
  | 0x030B => wordAt s.tb.hcpos 0
  | 0x030C => wordAt s.tb.hcpos 1
  | 0x030D => wordAt s.tb.hcpos 2
  | 0x0318 => s.slewWord 0
  | 0x0319 => s.slewWord 1
  | 0x2210 => wordAt s.sv.rcnt 0
  | 0x2211 => wordAt s.sv.rcnt 1
  | 0x2309 => s.coefHalf
  | 0x2410 => s.wmap
  | 0x2415 => s.noiseValue
  | 0x2519 => s.curveWord
  | 0x2608 => w16 s.rq.cout
  | 0x2609 => w16 s.rq.seqNext
  | 0x260D => w16 s.rq.downCnt
  | 0x260E => w16 s.rq.upCnt
  | 0x2A0F => w16 (s.owSelected.1 + 8 * s.owSelected.2.1)
  | 0x2A10 => wordOfInt s.owSelected.2.2
  | 0x2B0A => w16 s.sh.prog
  | 0x2C0B => w16 s.ptMask
  | 0x2F09 => w16 (hidDescriptor s.tr.hid).length
  | 0x2F0A => s.hidData (s.reg 0x2F08).toNat
  | _ =>
    if 0x0510 ≤ a ∧ a < 0x0590 then toneWord (if wbit (s.reg 0x0501) 2 then s.tone.pend else s.tone.active) a
    else if 0x2810 ≤ a ∧ a < 0x2870 then s.timerWord ((a - 0x2810) / 16) (a % 16)
    else if pageOf a = 0x2D then s.calfWord (offOf a)
    else if pageOf a = 0x2E then s.likeWord (offOf a)
    else if (regRow a).isSome then s.reg a else 0

/-- The live value of a word of a mapped page (R82 to R92). -/
def State.liveWord (s : State) (a : Nat) : Word :=
  let p := pageOf a
  match offOf a with
  | 0 => w16 (0x0100 + p)
  | 2 => s.statWord p
  | 3 => s.reg a &&& w16 (flagMask p)
  | 4 => s.reg a &&& w16 (flagMask p)
  | 5 => 0
  | 6 => s.lockWord p
  | 7 => 0
  | _ => s.blockWord a

/-- A latching read of a wide value's lowest word: the shadow takes the live higher words (R94); for CAP it clears
CAPN (R273). -/
def State.latch (s : State) (base n : Nat) : State :=
  let sh : Shadow := { page := pageOf base, base := base, words := (List.range (n - 1)).map (fun i => s.liveWord (base + 1 + i)) }
  let s := { s with link := { s.link with shadow := sh :: s.link.shadow.filter (fun (x : Shadow) => x.page != pageOf base) } }
  if pageOf base = 0x28 ∧ offOf base % 16 = 8 then
    let t := (offOf base - 0x10) / 16
    s.setTimer t { s.timer t with capn := false }
  else s

/-- A read of a higher word: the shadow where it belongs to the value, and its release at the highest word (R94). -/
def State.readHigher (s : State) (a base n : Nat) : Word × State :=
  match s.link.shadow.find? (fun (x : Shadow) => x.page == pageOf base && x.base == base) with
  | some sh =>
    (sh.words.getD (a - base - 1) 0,
      if a + 1 = base + n then
        { s with link := { s.link with shadow := s.link.shadow.filter (fun (x : Shadow) => x.page != pageOf base) } }
      else s)
  | none => (s.liveWord a, s)

/-- A read of SVCOEF.DATA (R199). A read that completes a pair begun by a write returns the high half and discards the
pair. -/
def State.coefRead (s : State) : Word × State :=
  let w := s.coefHalf
  match s.sv.half with
  | none => (w, { s with sv := { s.sv with half := some (false, 0) } })
  | some (false, _) => (w, State.setReg { s with sv := { s.sv with half := none } } 0x2308 (coefNext (s.reg 0x2308)))
  | some (true, _) => (w, State.setFlag { s with sv := { s.sv with half := none } } 0x23 1)

/-- What a read does besides returning the live word: read-to-clear words, LOCK's RC bits, and the window pointers
(R4, R92, R199, R223, R235). -/
def State.readEffect (s : State) (a : Nat) : State :=
  if offOf a = 6 ∧ keyedPage (pageOf a) = true then s.setReg a 0
  else match a with
  | 0x2519 => s.setReg 0x2518 (curveNext (s.reg 0x2518))
  | 0x2F0A => s.setReg 0x2F08 ((s.reg 0x2F08 + 2) &&& 0xFE)
  | _ => match regRow a with
    | some r => if r.rc && decide (8 ≤ offOf a) then s.setReg a 0 else s
    | none => s

/-- A read of one word at its hc (R67, R94). -/
def State.readWord (s : State) (a : Nat) : Word × State :=
  match wideAt a with
  | some (base, n, _) => if a = base then (s.liveWord a, s.latch base n) else s.readHigher a base n
  | none => if a = 0x2309 then s.coefRead else (s.liveWord a, s.readEffect a)

/-- The words of a READ, in ascending order (R61). -/
def State.readWords (s : State) : List Nat → List Word × State
  | [] => ([], s)
  | a :: rest =>
    let (w, s) := s.readWord a
    let (ws, s) := State.readWords s rest
    (w :: ws, s)

end Machine
end Sys2Proof
end

