-- ==== Sys2Proof/Machine/RegWrite.lean ====
section
/-! DEFINITION. What a register write does at the hc it is applied (R82 to R100, R374): access codes, locks, the
staged and committed wide values, and the words whose write is an action of its block. -/

namespace Sys2Proof
namespace Machine

/-- A protected word (Tables RI-5 to RI-24). -/
def protectedWord (a : Nat) : Bool :=
  a == 0x2B08 || a == 0x2519 || (match regRow a with | some r => r.prot | none => false)

/-- A write to LOCK (R91, R92). -/
def State.lockWrite (s : State) (p : Nat) (v : Word) : State :=
  if !keyedPage p then s
  else if v = pageKey p then { s with link := { s.link with unlocked := p :: s.link.unlocked.filter (fun q => q != p) } }
  else
    let s := { s with link := { s.link with unlocked := s.link.unlocked.filter (fun q => q != p) } }
    if v = 0 then s else s.setReg (p * 256 + 6) (s.reg (p * 256 + 6) ||| 4)

/-- A write to a protected word of a locked page: DENIED (R92). -/
def State.deny (s : State) (p : Nat) : State := s.setReg (p * 256 + 6) (s.reg (p * 256 + 6) ||| 2)

/-- The value a stored word holds after a write: RW bits as taken, W1C bits cleared (R4, R84, R374). -/
def writtenWord (r : RegRow) (a : Nat) (old v : Word) : Word :=
  takenWord a old ((v &&& w16 r.rw) ||| (old &&& ~~~ (w16 r.rw))) &&& ~~~ (v &&& w16 r.w1c)

/-- A write to a word the register file holds; any other word ignores it (R82). -/
def State.storeWord (s : State) (a : Nat) (v : Word) : State :=
  match regRow a with
  | some r => s.setReg a (writtenWord r a (s.reg a) v)
  | none => s

/-- A write to LNK.HCLKF (R50, R54). A Gauge that an image has enabled runs from the hc of the first declaration on (R277). -/
def State.declare_ (s : State) (v : Word) : State :=
  let f := v.toNat
  if f < 24000 ∨ 40000 < f then s.setReg 0x0111 (s.reg 0x0111 ||| 0x0800)
  else if s.ms.step = 3 then
    (if s.clk.decl = 0 then ((s.firstDeclaration f).shedToHc).gaugeTick.pinsStart else s.changeDeclaration f).stepCheck
  else if f = s.clk.decl then { s with clk := { s.clk with staged := none } }
  else { s with clk := { s.clk with staged := some f } }

/-- COMMIT (R132). -/
def State.toneCommit (s : State) : State :=
  { s with tone := { s.tone with cpend := some (s.tone.cpend.getD s.now) } }

/-- SNAP (R132). -/
def State.toneSnap (s : State) : State := { s with tone := { s.tone with pend := s.tone.active } }

/-- A write to TONE.CTRL (Table RK-9). -/
def State.toneCtrl (s : State) (v : Word) : State :=
  let s := if wbit v 1 then s.toneSnap else s
  let s := if wbit v 0 then s.toneCommit else s
  s.setReg 0x0501 (v &&& 4)

/-- IGO: a trigger 16 hc after the write (R165). The 16 hc are counted on over a DORMANT
stay, where hc stand: such a trigger arises in the exit (DESIGN CHOICE, log entry 81). -/
def State.igoOp (s : State) : State := s.after 16 (.injectedSequenceTrigger true false)

/-- A write to ADC.CTRL (Table LC-8). -/
def State.adcCtrl (s : State) (v : Word) : State :=
  let s := s.storeWord 0x2101 v
  if wbit v 0 then s.igoOp else s

/-- RSYNC (R194). -/
def State.rsyncOp (s : State) : State := { s with sv := { s.sv with rsync := true } }

/-- A write to SIEVE.CTRL (Table SV-3). -/
def State.sieveCtrl (s : State) (v : Word) : State :=
  let s := s.storeWord 0x2201 v
  if wbit v 3 then s.rsyncOp else s

/-- A write to NTAP0 or NTAP1 (R183, R199). -/
def State.ntapWrite (s : State) (b : Nat) (v : Word) : State :=
  if s.bankProtected b then s.setFlag 0x23 0 else s.storeWord (0x230A + b) v

/-- A write to a listen entry waits for its frame boundary (R205). -/
def State.listenWrite (s : State) (i : Nat) (v : Word) : State :=
  { s with cl := { s.cl with listenDue := s.cl.listenDue ++ [(s.now + 256, i, v &&& 0x80FF)] } }

/-- The epoch and SEQ words of a report frame's payload. -/
def DevFrame.seqWord (d : DevFrame) : Word := d.payload.getD 0 0
def DevFrame.epochWord (d : DevFrame) : Word := d.payload.getD 1 0

/-- A write to QUEUE.REPLAY (R242): the replay starts at a retained copy of this epoch, or is lost. -/
def State.replayWrite (s : State) (v : Word) : State :=
  if s.rq.copies.any (fun (d : DevFrame) => decide (d.seqWord = v) && decide (d.epochWord = s.reg 0x000A)) then
    { s with rq := { s.rq with replay := some (v.toNat, (s.reg 0x000A).toNat) } }
  else State.setFlag { s with rq := { s.rq with replay := none } } 0x26 3

/-- TMR.CTRL.SYNC: every selected timer that is not frozen takes its mode's start state (R271, R275). -/
def State.syncTimers (s : State) (mask : Word) : State :=
  (List.range 6).foldl (fun s t => if wbit mask t && s.timerRuns t then s.setTimer t (s.timer t).start else s) s

/-- The low bits of TCTRL as a write leaves them: MODE 5 to 7 keeps MODE (R271). -/
def ctrlTaken (old v : Word) : Word :=
  if 5 ≤ fld v 2 0 then (v &&& 0x07F8) ||| (old &&& 7) else v &&& 0x07FF

/-- A changed MODE takes its start state, and Off and Measure load a buffered period (R271). -/
def Timer.setCtrl (t : Timer) (v : Word) : Timer :=
  let u : Timer := { t with ctrl := ctrlTaken t.ctrl v }
  if u.mode = t.mode then u else (u.loadNow).start

/-- ARM in Measure mode; the prescaler restarts from 0 (R269, R274). -/
def Timer.arm (t : Timer) : Timer :=
  if t.mode = 4 then { t with count := 0, pre := 0, fresh := true, armed := true, counting := false } else t

/-- SWCAP is event 7 at its timer; a frozen timer misses it (R272, R275). -/
def State.swcap (s : State) (t : Nat) : State :=
  if s.timerRuns t then s.setTimer t ((s.timer t).event 7) else s

/-- A write to TCTRL (Table TG-6): the mode, then ARM, then SWCAP. -/
def State.timerCtrl (s : State) (t : Nat) (v : Word) : State :=
  let x := (s.timer t).setCtrl v
  let x := if wbit v 11 then x.arm else x
  let s := s.setTimer t x
  if wbit v 12 then s.swcap t else s

/-- A write to a timer's block outside its wide values (Table TG-6). -/
def State.timerWrite (s : State) (t o : Nat) (v : Word) : State :=
  let x := s.timer t
  match o with
  | 0 => s.timerCtrl t v
  | 1 => s.setTimer t { x with sel := v &&& 0xFF }
  | 2 => s.setTimer t { x with ovr := x.ovr && !wbit v 2 }
  | _ => s

/-- A write to GAUGE.CTRL (R277, Table TG-7). A change of FMODE while EN is 1 starts a new period like EN (log entry
32). -/
def State.gaugeCtrl (s : State) (v : Word) : State :=
  let old := s.reg 0x2901
  let new := takenWord 0x2901 old (v &&& 0x3F)
  let s := s.setReg 0x2901 ((new &&& 0x3E) ||| (old &&& 1))
  let s := if wbit old 0 && (wbit old 1 != wbit new 1) then { s with gg := { s.gg with startAt := some (s.now + 1) } } else s
  s.gaugeEnableOp (wbit new 0)

/-- A write to SHED.CMD (R325, R326). -/
def State.shedCommand (s : State) (v : Word) : State :=
  match fld v 3 0 with
  | 1 => s.shedSave
  | 2 => s.shedForget
  | _ => s

/-- A write to DIAG.DCTRL outside SERVICE is ignored (R312). -/
def State.dctrlWrite (s : State) (v : Word) : State :=
  if s.ms.mode = .service then s.storeWord 0x2A14 v else s.setFlag 0x2A 5

/-- ERNG is writable only while GAIN.AUTO is 0 (R143, Table FE-12). -/
def State.erngWrite (s : State) (a : Nat) (v : Word) : State :=
  if wbit (s.reg (a - 1)) 2 then s else s.storeWord a v

/-- A write of 1 to QUEUE.CTRL.SNAP (R245). -/
def State.snapWrite (s : State) : State :=
  if s.snapWaits then { s with rq := { s.rq with snapDue := true } } else s.snapshot

/-- A write to a block word (offset 8 and up, and CTRL). -/
def State.writeBlock (s : State) (a : Nat) (v : Word) : State :=
  match a with
  | 0x0008 => s.command v
  | 0x0110 => s.declare_ v
  | 0x0209 => State.storeWord { s with ms := { s.ms with refDue := s.ms.refDue || decide (fld v 1 0 ≠ 3) } } a v
  | 0x0310 => let s := s.storeWord a v; s.setUnc s.unc
  | 0x0501 => s.toneCtrl v
  | 0x040A => State.storeWord { s with tone := { s.tone with gdirty := true } } a v
  | 0x0608 => (s.blankWrite v).blankSeen s.scan.blkEff
  | 0x0609 => (s.storeWord a v).blkmaxWrite
  | 0x2101 => s.adcCtrl v
  | 0x2201 => s.sieveCtrl v
  | 0x2308 => State.storeWord { s with sv := { s.sv with half := none } } a v
  | 0x2309 => s.coefWrite v
  | 0x230A => s.ntapWrite 0 v
  | 0x230B => s.ntapWrite 1 v
  | 0x2519 => s.curveWrite v
  | 0x2601 => if wbit v 0 then s.snapWrite else s
  | 0x260A => s.replayWrite v
  | 0x2801 => s.syncTimers v
  | 0x2901 => s.gaugeCtrl v
  | 0x2A14 => s.dctrlWrite v
  | 0x2B08 => s.shedCommand v
  | _ =>
    if 0x0510 ≤ a ∧ a < 0x0590 then { s with tone := { s.tone with pend := setToneWord s.tone.pend a v } }
    else if 0x2420 ≤ a ∧ a < 0x2430 then s.listenWrite (a - 0x2420) v
    else if 0x2810 ≤ a ∧ a < 0x2870 then s.timerWrite ((a - 0x2810) / 16) (a % 16) v
    else if rowAddr a = 0x1009 then s.erngWrite a v
    else s.storeWord a v

/-- A write to IEN (R89): a flag that was set before it was enabled counts as a cause from the next hc on. -/
def State.ienWrite (s : State) (p : Nat) (v : Word) : State :=
  let en := v &&& w16 (flagMask p)
  let late := s.reg (p * 256 + 3) &&& en &&& ~~~ (s.reg (p * 256 + 4))
  State.setReg { s with link := { s.link with irqWait :=
    (p, late, s.now + 1) :: s.link.irqWait.filter (fun e => decide (s.now < e.2.2)) } } (p * 256 + 4) en

/-- A write to a word that no wide value holds (R84 to R92). -/
def State.writePlain (s : State) (a : Nat) (v : Word) : State :=
  let p := pageOf a
  match offOf a with
  | 0 => s
  | 2 => if wbit v 15 then s.setReg a (s.reg a &&& 0x7FFF) else s
  | 3 => s.setReg a (s.reg a &&& ~~~ (v &&& ~~~ (s.hcFlagBits p)))
  | 4 => s.ienWrite p v
  | 5 => s.setFlags p (v &&& w16 (flagMask p))
  | 6 => s.lockWrite p v
  | 7 => s
  | _ => if protectedWord a && !s.unlocked p then s.deny p else s.writeBlock a v

/-- The staged word of a value at an offset. -/
def State.staged (s : State) (base i : Nat) : Option Word :=
  match s.link.stage.find? (fun (x : Stage) => x.base == base) with
  | some x => getKey i x.words
  | none => none

/-- A word enters its page's stage; words of another value of the page leave it (R97). -/
def State.stageWord (s : State) (base i : Nat) (v : Word) : State :=
  let old := match s.link.stage.find? (fun (x : Stage) => x.base == base) with
    | some x => x.words
    | none => []
  { s with link := { s.link with stage :=
      { page := pageOf base, base := base, words := setKey i v old } :: s.link.stage.filter (fun (x : Stage) => x.page != pageOf base) } }

/-- The commit empties the page's stage (R97). -/
def State.unstage (s : State) (base : Nat) : State :=
  { s with link := { s.link with stage := s.link.stage.filter (fun (x : Stage) => x.page != pageOf base) } }

/-- A committed value takes effect (R97, R99, R271, Table SV-6). -/
def State.commitValue (s : State) (base v : Nat) : State :=
  if base = 0x220A then s.setWide base 2 (max 40960 (v % 2 ^ 24))
  else
    let t := (offOf base - 0x10) / 16
    let x := s.timer t
    if offOf base % 16 = 4 then s.setTimer t { x with count := v, stay := true }
    else
      let new := max 1 v
      State.staleIf (s.setTimer t (Timer.loadNow { x with perBuf := new })) base (decide (max 1 x.perBuf ≠ new))

/-- The value a commit of `lo` gives: staged higher words, live ones where none is staged (R97). Every writable wide
value has two words. -/
def State.commitWord (s : State) (base : Nat) (lo : Word) : State :=
  let hi := (s.staged base 1).getD (s.liveWord (base + 1))
  (s.unstage base).commitValue base (lo.toNat + 65536 * hi.toNat)

/-- A write to a word of a wide value (R97): higher words are staged, the lowest commits. Values a host may not write
ignore it. -/
def State.writeWide (s : State) (a base : Nat) (v : Word) : State :=
  if !wideWritable base then s
  else if a = base then s.commitWord base v
  else s.stageWord base (a - base) v

/-- A write of one word at the hc it is applied (R66, R84, R97). -/
def State.writeWord (s : State) (a : Nat) (v : Word) : State :=
  if !mappedPage (pageOf a) then s
  else match wideAt a with
  | some (base, _, _) => s.writeWide a base v
  | none => s.writePlain a v

/-- One word from the posted-write buffer: a lowest word that waits for its value is staged, and the value's highest
word commits it (R98). -/
def State.applyPosted (s : State) (p : Posted) : State :=
  let a := p.addr.toNat
  match wideAt a with
  | some (base, _, _) =>
    if !wideWritable base then s
    else if p.hold then s.stageWord base 0 p.value
    else match p.base with
      | some b =>
        let s := s.stageWord b.toNat (a - b.toNat) p.value
        match s.staged b.toNat 0 with
        | some lo => s.commitWord b.toNat lo
        | none => s
      | none => s.writeWord a p.value
  | none => s.writeWord a p.value

/-- Words enter the posted-write buffer; the first of an empty buffer is applied `n` hc from now (R66). -/
def State.postWords (s : State) (ps : List Posted) (n : Nat) : State :=
  if s.link.wbuf.isEmpty then
    State.after { s with link := { s.link with wbuf := ps, applyAt := s.now + n } } n .postedWordApply
  else { s with link := { s.link with wbuf := s.link.wbuf ++ ps } }

/-- The Shed is not ready for a word of its page (R66, R327). -/
def State.shedHolds (s : State) (a : Nat) : Bool := decide (pageOf a = 0x2B) && s.sh.busy

/-- A host write of one word: on a link that decodes requests it is applied; a word for page SHED waits in the
posted-write buffer while BUSY is 1, if an entry is free (R65, R66, R327). -/
def State.hostWrite (s : State) (a : Word) (v : Word) : State :=
  if !s.linkUp then s
  else if s.shedHolds a.toNat then
    if s.link.wbuf.length < 16 then s.postWords [{ addr := a, value := v, hold := false, base := none }] 1 else s
  else s.writeWord a.toNat v

/-- A host read of one word: the word returned stays in `rdata` (R67). -/
def State.hostRead (s : State) (a : Word) : State :=
  if !s.linkUp || !mappedPage (pageOf a.toNat) then s
  else
    let (w, s) := s.readWord a.toNat
    { s with link := { s.link with rdata := w } }

end Machine
end Sys2Proof
end

