-- ==== Sys2Proof/Machine/LinkOps.lean ====
section
/-! DEFINITION. The Hisiost link (R55 to R80, R242, R243): acceptance of requests, notices, the posted-write buffer,
device turns, and ATTN.

A request executes on the hc after its last CRC bit, so that bit's hc is `now - 1` (log entry 2). -/

namespace Sys2Proof
namespace Machine

/-- Did the host drive this frame outside a device turn (R56)? The frame's bits end on the hc before this one. -/
def State.heard (s : State) (f : Frame) : Bool :=
  s.linkUp && s.link.turn.isNone && decide (s.link.turnEnd + frameHc f.payload.length ≤ s.now)

/-- Add a response that is ready at a known hc (R67). -/
def State.addReady (s : State) (r : Resp) (ready : Nat) : State :=
  State.after { s with link := { s.link with resp := s.link.resp ++ [{ r with ready := some ready }] } } (ready - s.now) .responseReady

/-- The number of notices that wait (R68). -/
def State.notices (s : State) : Nat := (s.link.resp.filter (fun (r : Resp) => decide (r.kind = RespKind.notice))).length

/-- A notice becomes ready 16 hc after the request's last CRC bit; a ninth is dropped (R67, R68). -/
def State.notice (s : State) (rcode tag : Nat) (h1 : Word) (flag : Nat) : State :=
  if 8 ≤ s.notices then s.setFlag 0x01 4
  else State.addReady (s.setFlag 0x01 flag)
    { kind := .notice, tag := tag, rcode := rcode, resent := false, h1 := h1, payload := [], read := none, after := 0, ready := none,
      shown := false } (s.now + 15)

/-- NAK (R63, Table LT-13). -/
def State.nak (s : State) (f : Frame) (reason : Nat) : State :=
  State.notice (s.setReg 0x010B (w16 (reason + 256 * f.op + 4096 * f.tag))) 4 f.tag (w16 (256 * reason + fld f.h0 15 8)) 2

/-- BUSY (R64, R65). -/
def State.busy (s : State) (f : Frame) : State := s.notice 3 f.tag f.h0 3

/-- What the first valid request ends: the presence and wake assertions, and the wait of R79 (R78, R120). -/
def State.firstRequest (s : State) : State :=
  { s with link := { s.link with presence := false, wakeAssert := false, noCause := false } }

/-- An accepted tagged request discards its tag's retained copy (R70). -/
def State.dropCopy (s : State) (tag : Nat) : State :=
  { s with link := { s.link with retained := s.link.retained.filter (fun (r : Nat × DevFrame) => r.1 != tag) } }

/-- Is the request answered with BUSY: its tag is outstanding (R64), or its words do not fit the posted-write buffer (R65)?
A tagged request on an outstanding tag is not accepted whatever else is wrong with it: a NAK would free the tag of the request
it must not disturb (DEDUCED, log entry 56). -/
def State.tagBusy (s : State) (op : Op) (f : Frame) : Bool :=
  op.tagged && !decide (op = Op.resend) && s.outTags.contains f.tag

def State.noRoom (s : State) (op : Op) (f : Frame) : Bool :=
  (decide (op = Op.write) || decide (op = Op.writea)) && decide (s.wfree < f.count)

/-- The checks of a valid request of one opcode (R63, R64, R65, R70), and `act` where it is accepted. -/
def State.checked (s : State) (op : Op) (f : Frame) (act : State → State) : State :=
  if s.tagBusy op f then s.busy f
  else match nakReason op f (decide (s.ms.mode = Mode.service)) s.ms.halted with
    | some r => s.nak f r
    | none =>
      if s.noRoom op f then s.busy f
      else act (if op.tagged && !decide (op = Op.resend) then s.dropCopy f.tag else s)

/-- An answer that is ready `delay` hc after the request's last CRC bit. -/
def State.answer (s : State) (rcode tag : Nat) (h1 : Word) (payload : List Word) (delay : Nat) : State :=
  s.addReady { kind := .answer, tag := tag, rcode := rcode, resent := false, h1 := h1, payload := payload, read := none, after := 0,
               ready := none, shown := false } (s.now + delay - 1)

/-- ACK: its H1 is the request's opcode (Table LT-3). -/
def State.ack (s : State) (op : Op) (f : Frame) (payload : List Word) (delay : Nat) : State :=
  s.answer 2 f.tag (w16 op.code) payload delay

/-- An accepted READ (R67): with an empty buffer it executes now, else after the words in it. -/
def State.readOp (s : State) (f : Frame) : State :=
  let n := s.link.wbuf.length
  if n = 0 then
    let (ws, s) := s.readWords (spanAddrs f.h1 f.count f.inc)
    s.answer 1 f.tag f.h1 ws (16 + 2 * f.count)
  else { s with link := { s.link with resp := s.link.resp ++
    [{ kind := .answer, tag := f.tag, rcode := 1, resent := false, h1 := f.h1, payload := [],
       read := some { addr := f.h1, count := f.count, inc := f.inc }, after := n, ready := none, shown := false }] } }

/-- The buffer entries of a write (R61, R65, R98). -/
def postedOf (addr : Word) (inc : Bool) (ws : List Word) : List Posted :=
  ws.zipIdx.map (fun (p : Word × Nat) =>
    let a := if inc then addr.toNat + p.2 else addr.toNat
    let covers (base n : Nat) : Bool := inc && decide (addr.toNat ≤ base) && decide (base + n ≤ addr.toNat + ws.length)
    match wideAt a with
    | some (base, n, _) =>
      let c := wideWritable base && covers base n
      { addr := w16 a, value := p.1, hold := c && decide (a = base), base := if c && decide (a + 1 = base + n) then some (w16 base) else none }
    | none => { addr := w16 a, value := p.1, hold := false, base := none })

/-- An accepted WRITE (R65). -/
def State.writeOp (s : State) (f : Frame) : State :=
  State.postWords { s with link := { s.link with wacc := (s.link.wacc + 1) % 256 } } (postedOf f.h1 f.inc (f.payload.take f.count)) 3

/-- An accepted WRITEA (R65, R66). -/
def State.writeaOp (s : State) (f : Frame) : State :=
  let s := s.postWords (postedOf f.h1 f.inc (f.payload.take f.count)) 3
  { s with link := { s.link with resp := s.link.resp ++
    [{ kind := .answer, tag := f.tag, rcode := 2, resent := false, h1 := w16 Op.writea.code, payload := [], read := none,
       after := s.link.wbuf.length, ready := none, shown := false }] } }

/-- One waiting response after a posted word was applied (R66, R67). -/
def State.respStep (s : State) (r : Resp) : State :=
  if r.after = 0 then { s with link := { s.link with resp := s.link.resp ++ [r] } }
  else if 1 < r.after then { s with link := { s.link with resp := s.link.resp ++ [{ r with after := r.after - 1 }] } }
  else match r.read with
    | some q =>
      let (ws, s) := s.readWords (spanAddrs q.addr q.count q.inc)
      s.addReady { r with after := 0, payload := ws, read := none } (s.now + 16 + 2 * q.count)
    | none => s.addReady { r with after := 0 } (s.now + 16)

/-- Every response that waits for posted words moves on by one, in arrival order. -/
def State.respSteps (s : State) : State :=
  s.link.resp.foldl State.respStep { s with link := { s.link with resp := [] } }

/-- POSTED_WORD_APPLY (R66): the head word, unless it waits for the Shed. -/
def State.postedApply (s : State) : State :=
  match s.link.wbuf with
  | [] => s
  | p :: rest =>
    if s.now < s.link.applyAt then s
    else if s.shedHolds p.addr.toNat then
      State.after { s with link := { s.link with applyAt := s.now + 1 } } 1 .postedWordApply
    else
      let s := { s with link := { s.link with wbuf := rest, applyAt := s.now + 4 } }
      let s := (s.applyPosted p).respSteps
      if rest.isEmpty then s else s.after 4 .postedWordApply

/-- A GRANT starts a device turn, a turnaround (R56, R77, Table LW-8). -/
def State.grantOp (s : State) (f : Frame) : State :=
  let t := s.now - 1
  { s with link := { s.link with turn := some { start := t, limit := t + 8 + 64 * f.h1.toNat, next := t + 9, done := true }, attn := false, sent := [],
                                 dterm := wbit (s.reg 0x0121) 2 } }

/-- CREDIT (R243). -/
def State.creditOp (s : State) (n : Nat) : State :=
  let c := min 65535 (s.rq.cout + n)
  State.setFlagIf { s with rq := { s.rq with cout := c, cgrant := (s.rq.cgrant + (c - s.rq.cout)) % 2 ^ 32 } }
    (decide (65535 < s.rq.cout + n)) 0x26 2

/-- RESEND (R70). -/
def State.resendOp (s : State) (f : Frame) : State :=
  if s.outTags.contains f.tag then s.nak f 5
  else match getKey f.tag s.link.retained with
    | some d => s.addReady { kind := .copy, tag := f.tag, rcode := fld d.h0 15 12, resent := true, h1 := d.h1, payload := d.payload,
                             read := none, after := 0, ready := none, shown := false } (s.now + 15)
    | none => s.nak f 5

/-- The TSC as three words. -/
def State.tscWords (s : State) : List Word := [wordAt s.tb.tsc 0, wordAt s.tb.tsc 1, wordAt s.tb.tsc 2]

/-- TSYNC at its reference instant (R75, R252). -/
def State.tsyncOp (s : State) (f : Frame) : State :=
  (s.ack .tsync f s.tscWords 16).timeSync (ofWords f.payload)

/-- REBASE at its reference instant (R75, R123, R253). -/
def State.rebaseOp (s : State) (f : Frame) : State :=
  let old := s.tscWords
  let s := s.forceAll 4
  let s := s.setReg 0x000A (w16 (s.epochNow % 65535 + 1))
  let s := s.timeRebase (ofWords f.payload)
  let s := { s with
    rq := { s.rq with seqNext := 0, downCnt := 0, upCnt := 0, rsent := 0, fscan := 0, fcons := 0, frep := 0, fdisc := 0,
                      cgrant := s.rq.cout, epochDue := true, rebased := true
                      epochOld := if s.fires .epochReport then s.rq.epochOld else s.rq.epochOld ++ [s.rq.rebased] }
    sv := { s.sv with rcnt := 0 }
    ms := { s.ms with epochOwed := true } }
  let s := s.setReg 0x0508 0
  let s := s.after 64 .epochReport
  s.ack .rebase f (old ++ [w16 s.epochNow]) 16

/-- The cause bits of an EPOCH report: none for a REBASE's, else those of the last reset (Table RQ-2). -/
def State.epochCause (s : State) (rebase : Bool) : Nat := if rebase then 0 else (s.reg 0x020E).toNat

/-- EPOCH_REPORT (R111, R253). One that a REBASE has overtaken before it fell due waits, and follows the EPOCH report of the new
epoch (R240, R253; DEDUCED, log entry 83). -/
def State.epochReportOp (s : State) : State :=
  match s.rq.epochOld with
  | r :: rest => { s with rq := { s.rq with epochOld := rest, gated := s.rq.gated ++ [s.epochEvent (s.epochCause r) r] } }
  | [] =>
    if s.rq.epochDue then
      let r := s.rq.rebased
      State.queueEpoch { s with rq := { s.rq with rebased := false } } (s.epochCause r) r
    else s

/-- The DBGCTL ACK: HALTED (R76). -/
def State.dbgAck (s : State) (f : Frame) : State := s.ack .dbgctl f [w16 (b2n s.ms.halted)] 64

/-- DBGCTL HALT (R76). -/
def State.haltOp (s : State) (f : Frame) : State := State.dbgAck { s with ms := { s.ms with halted := true } } f

/-- DBGCTL RUN (R76, R227): after a halt every open contact closes at the first output. -/
def State.runOp (s : State) (f : Frame) : State :=
  State.dbgAck { s with ms := { s.ms with debugUps := s.ms.debugUps || s.ms.halted, halted := false } } f

/-- DBGCTL STEP (R76, R227, R275): one instruction, executed on this hc, and the core stops. -/
def State.stepOp (s : State) (f : Frame) : State :=
  State.dbgAck { s with ms := { s.ms with debugUps := s.ms.debugUps || s.ms.halted, halted := true, stepAt := some s.now } } f

/-- A byte of core memory; one nothing has written is a free value (log entry 3). -/
def coreGet (m : List Host.Cell) (a : Nat) : Byte :=
  match m with
  | [] => Config.coreByte a
  | (b, v) :: t => if b = a then v else coreGet t a

def corePut (m : List Host.Cell) (a : Nat) (v : Byte) : List Host.Cell :=
  match m with
  | [] => [(a, v)]
  | (b, w) :: t => if a < b then (a, v) :: (b, w) :: t else if a = b then (a, v) :: t else (b, w) :: corePut t a v

/-- Core memory lists rising addresses. -/
def coreWfFrom : Option Nat → List Host.Cell → Bool
  | _, [] => true
  | lo, (a, _) :: t => (match lo with | none => true | some l => decide (l < a)) && coreWfFrom (some a) t

/-- Half word `i` of the core from byte address `a`, low byte first (R76). -/
def State.coreHalf (s : State) (a i : Nat) : Word :=
  let b (k : Nat) : Nat := (coreGet s.core ((a + 2 * i + k) % 2 ^ 32)).toNat
  w16 (b 0 + 256 * b 1)

/-- Store half words from byte address `a`. -/
def corePuts (m : List Host.Cell) (a : Nat) : List Word → List Host.Cell
  | [] => m
  | w :: ws => corePuts (corePut (corePut m (a % 2 ^ 32) (w.setWidth 8)) ((a + 1) % 2 ^ 32) ((w >>> 8).setWidth 8)) (a + 2) ws

/-- DBGRD (R76, R67). -/
def State.dbgrdOp (s : State) (f : Frame) : State :=
  s.answer 1 f.tag 0 ((List.range (2 * f.h1.toNat)).map (s.coreHalf f.coreAddr)) (64 + 8 * f.h1.toNat)

/-- DBGWR (R76, R67). -/
def State.dbgwrOp (s : State) (f : Frame) : State :=
  State.ack { s with core := corePuts s.core f.coreAddr (f.payload.drop 2) } .dbgwr f [] (64 + 8 * ((f.count - 2) / 2))

/-- A word that is applied on the hc of an ABORT completes, with the value it commits (R72, R98). -/
def State.abortWord (s : State) : State :=
  match s.link.wbuf with
  | p :: rest =>
    if s.link.applyAt = s.now ∧ s.shedHolds p.addr.toNat = false then
      State.applyPosted { s with link := { s.link with wbuf := rest } } p
    else s
  | [] => s

/-- ABORT (R72, R91, R94): what is left in the buffer is discarded and counted. -/
def State.abortOp (s : State) : State :=
  let s := (s.abortWord).unschedule (fun i => decide (i = Instr.postedWordApply))
  let t := { s with link := { s.link with
    resp := [], retained := [], wbuf := [], shadow := [], stage := [], unlocked := [] } }
  (t.addSat 0x010A s.link.wbuf.length).setFlag 0x01 6

/-- RESPONSE_READY: a response whose ready hc has come becomes an ATTN cause (R67, R77). -/
def State.responseReadyOp (s : State) : State :=
  { s with link := { s.link with resp := s.link.resp.map (fun (r : Resp) =>
      if r.ready.any (fun h => decide (h ≤ s.now)) then { r with shown := true } else r) } }

/-- May ATTN be low for a cause on hc `h` (R77, R79)? Not in start-up, in DORMANT, or in a stop: R77 speaks of the
host-clocked modes. -/
def State.attnWanted (s : State) (h : Nat) : Bool :=
  wbit (s.reg 0x0101) 0 && s.linkUp && s.hostClocked && s.link.turn.isNone && decide (s.link.attnFrom ≤ h) && !s.link.noCause && s.attnCause

/-- ATTN for causes takes its level; a new pull is an event of the timers (Table TG-3). -/
def State.attnSet (s : State) (low : Bool) : State :=
  let was := s.attnOut
  let s := { s with link := { s.link with attn := low } }
  if s.attnOut && !was then s.timerEvent 8 else s

/-- ATTN on hc `h` follows the causes that stand (R77). R77 names its release at T+1 of a device turn alone: where every cause has
gone before a turn, the model releases it on the next hc (DESIGN CHOICE, log entry 72). -/
def State.attnUpdate (s : State) (h : Nat) : State := s.attnSet (s.attnWanted h)

/-- A response whose turn it is: the first that is ready at T+9 (R57). -/
def State.nextResp (s : State) (t : Turn) : Option Resp :=
  s.link.resp.find? (fun (r : Resp) => r.ready.any (fun h => decide (h ≤ t.start + 9)))

/-- The copy of the report with this SEQ and epoch. -/
def copyOf (q : Nat × Nat) (d : DevFrame) : Bool := decide (d.seqWord = w16 q.1) && decide (d.epochWord = w16 q.2)

/-- The copy of the next report of a pending replay (R242). It may be one of an epoch that a REBASE has ended since. -/
def State.nextReplay (s : State) : Option DevFrame := s.rq.replay.bind (fun q => s.rq.copies.find? (copyOf q))

/-- The copy sent after `d`, which is nearer the front of the ring of copies; none where `d` is the latest. -/
def copyAfter (copies : List DevFrame) (q : Nat × Nat) : Option DevFrame :=
  (copies.takeWhile (fun d => !copyOf q d)).getLast?

def DevFrame.rcode (d : DevFrame) : Nat := fld d.h0 15 12
def DevFrame.resent (d : DevFrame) : Bool := wbit d.h0 11
def DevFrame.len (d : DevFrame) : Nat := frameHc d.payload.length

/-- The CRC word of a frame the device sends (R58, R60). -/
def DevFrame.crc (d : DevFrame) : Word := crc16 (d.h0 :: d.h1 :: d.payload)

/-- The bits of a frame on the wire, first bit first: preamble, SYNC, header, payload, CRC (Table LT-1). -/
def DevFrame.wire (d : DevFrame) : List Bool :=
  List.replicate 8 true ++ ([0x2D4B, d.h0, d.h1] ++ d.payload ++ [d.crc]).flatMap wordBits

/-- A frame that starts on hc `s.now`. -/
def State.frameNow (s : State) (h0 h1 : Word) (payload : List Word) : DevFrame :=
  { h0 := h0, h1 := h1, payload := payload, first := s.now, last := s.now + frameHc payload.length - 1 }

/-- The END frame (Table LT-4). MORE counts every response that is ready when END starts, those too that became ready after
T+9 and were not tried in this turn (DESIGN CHOICE, log entry 57). -/
def State.endFrame (s : State) : DevFrame :=
  let more := s.link.resp.any (fun (r : Resp) => r.ready.any (fun h => decide (h ≤ s.now))) || s.rq.replay.isSome
    || (decide (1 ≤ s.rq.cout) && !s.rq.entries.isEmpty)
  let nocred := decide (s.rq.cout = 0) && !s.rq.entries.isEmpty
  s.frameNow (w16 0x6002) 0 [w16 (s.link.wacc + 256 * s.outst), w16 (s.wfree + 32 * b2n more + 64 * b2n nocred)]

/-- The frame and a following END (104 hc) fit the window (R56). -/
def fitsWindow (t : Turn) (d : DevFrame) : Bool := decide (d.last + 104 ≤ t.limit)

/-- Send a frame, with the driver current of DDRV (Table LW-8): the next one starts after its last CRC bit. -/
def State.sendFrame (s : State) (t : Turn) (d : DevFrame) : State :=
  { s with link := { s.link with sent := s.link.sent ++ [d], turn := some { t with next := d.last + 1, done := false },
                                 ddrv := fld (s.reg 0x0121) 1 0 } }

/-- The next frame of a turn starts on this hc (R57, R242, R243). Where the next response, copy or report does not fit, END
follows at once: no later, shorter frame is tried (DESIGN CHOICE, log entry 57). -/
def State.turnFrame (s : State) (t : Turn) : State :=
  match s.nextResp t with
  | some r =>
    let d := s.frameNow (respH0 r.rcode r.resent r.tag r.payload.length) r.h1 r.payload
    s.sendFrame t (if fitsWindow t d then d else s.endFrame)
  | none => match s.nextReplay with
    | some c =>
      let d := s.frameNow (c.h0 ||| 0x0800) c.h1 c.payload
      s.sendFrame t (if fitsWindow t d then d else s.endFrame)
    | none => match s.rq.entries with
      | r :: rest =>
        let d := s.frameNow (respH0 5 false 0 r.payload.length) r.h1 r.payload
        if decide (1 ≤ s.rq.cout) && fitsWindow t d then
          State.sendFrame { s with rq := { s.rq with entries := rest, sending := some r, cout := s.rq.cout - 1, rsent := inc32 s.rq.rsent } } t d
        else s.sendFrame t s.endFrame
      | [] => s.sendFrame t s.endFrame

/-- A replayed copy has gone out: the replay goes on with the next SEQ unless it was replaced, or this was the latest
copy (R242). -/
def State.replayDone (s : State) (d : DevFrame) : State :=
  let q := (d.seqWord.toNat, d.epochWord.toNat)
  if s.rq.replay = some q then
    { s with rq := { s.rq with replay := (copyAfter s.rq.copies q).map (fun c => (c.seqWord.toNat, c.epochWord.toNat)) } }
  else s

/-- A pending replay whose copy the ring holds no more is lost (R242; DEDUCED, log entry 82). -/
def State.replayCheck (s : State) : State :=
  if s.rq.replay.isSome && s.nextReplay.isNone then State.setFlag { s with rq := { s.rq with replay := none } } 0x26 3 else s

/-- A report's entry frees, its copy is retained, and reports that wait take free entries (R240 to R242). -/
def State.reportDone (s : State) (d : DevFrame) : State :=
  State.refill (State.replayCheck { s with rq := { s.rq with sending := none, copies := (d :: s.rq.copies).take 32 } }) 256

/-- A response has gone out: its tag is free, and DATA or ACK is retained (R64, R70). -/
def State.responseDone (s : State) (t : Turn) (d : DevFrame) : State :=
  match s.nextResp t with
  | some r =>
    let i := s.link.resp.findIdx (fun (x : Resp) => x.ready.any (fun h => decide (h ≤ t.start + 9)))
    let keep := (decide (r.rcode = 1) || decide (r.rcode = 2)) && !r.resent
    { s with link := { s.link with
        resp := s.link.resp.eraseIdx i
        retained := if keep then (r.tag, d) :: s.link.retained.filter (fun (x : Nat × DevFrame) => x.1 != r.tag) else s.link.retained } }
  | none => s

/-- END has gone out: the turn is over, and ATTN may be pulled again from E+73 (R56, R77). -/
def State.turnOver (s : State) : State :=
  State.after { s with link := { s.link with turn := none, turnEnd := s.now + 9, attnFrom := s.now + 73, dterm := wbit (s.reg 0x0121) 2 } } 73 .attnReassert

/-- The last CRC bit of a device frame falls on this hc. -/
def State.frameDone (s : State) (t : Turn) (d : DevFrame) : State :=
  let s := { s with link := { s.link with turn := some { t with done := true } } }
  if d.rcode = 6 then s.turnOver
  else if d.rcode = 5 then (if d.resent then s.replayDone d else s.reportDone d)
  else s.responseDone t d

/-- The device turn on one hc. -/
def State.turnTick (s : State) : State :=
  match s.link.turn with
  | none => s
  | some t =>
    if t.next = s.now then s.turnFrame t
    else match s.link.sent.getLast? with
      | some d => s.frameDone t d
      | none => s

end Machine
end Sys2Proof
end

