-- ==== Sys2Proof/Machine/Tick.lean ====
section
/-! DEFINITION. The clock of the block, which runs while no command waits (log entry 1): one hc of HCLK-driven
operation (R1, R39, R45), or one fast-ticker period where HCLK does not drive the part (R40, R105, R258).

The clock stands still where the next thing to happen carries a measured value and so has a command of its own: a frame
boundary, the end of a slot or of a slot's sampling, the lock of the delay line, a Scarecrow cycle. -/

namespace Sys2Proof
namespace Machine

/-- The last hc of a slot: SLOT_END brings its codes (R9, R143, R157). -/
def State.slotEnds (s : State) : Bool :=
  s.slotRuns && !s.scan.paused && decide (s.scan.h = 10239) && s.clk.relock.isNone

/-- A relock has run its 256 hc: DELAY_LINE_LOCK brings the code (R43). -/
def State.lockDue (s : State) : Bool := s.clk.relock.isSome && decide (s.clk.lockAt ≤ s.now)

/-- HCLK-driven operation waits for a command that carries measured values. -/
def State.awaits (s : State) : Bool := s.boundaryDue || s.slotEnds || s.lockDue

/-- The timers' clock sources of one hc: every hc, and the ticks of the accumulator (Table TG-1). -/
def State.tickTimers (s : State) (ticks : Nat) : State :=
  let s := s.countClk 0
  if ticks = 0 then s else s.countClk 1

/-- The time base on one hc (R247, R252). -/
def State.tickTime (s : State) : State :=
  let was := s.tb.slewRem
  let t := s.accumulate
  if decide (was ≠ 0) && decide (t.tb.slewRem = 0) then t.after 0 .slewEnd else t

/-- What an hc counts by itself, before its events (R247, R269, R279): the time base, the timers, the Gauge; then the
late LANE reports of that hc (R304). A request whose last
CRC bit fell on the hc before is read before it (log entry 2). -/
def State.countHc (s : State) : State :=
  if s.tb.counted || !s.hcDriven then s
  else
    let ticks := s.hcTicks
    let s := { s with tb := { s.tb with counted := true } }
    ((s.tickTime.tickTimers ticks).gaugeTick).lateReports

/-- The slot sequencer on one hc: a slot that waits for its first hc, a pause, or the hc count (R9, R149, R150). -/
def State.tickSlot (s : State) : State :=
  if s.scan.slot.isNone then s
  else if 1 < s.scan.lead then { s with scan := { s.scan with lead := s.scan.lead - 1 } }
  else if s.scan.lead = 1 then State.slotBegin { s with scan := { s.scan with lead := 0, h := 0 } } (s.tb.hcpos + 1)
  else if s.scan.paused then
    let s := { s with scan := { s.scan with pauseCount := s.scan.pauseCount + 1 } }
    if s.blankedDue then s.after 1 .blanked else s
  else { s with scan := { s.scan with h := s.scan.h + 1 } }

/-- The time effective BLANK has been asserted (R153). -/
def State.tickBlank (s : State) : State :=
  if s.scan.blkEff then
    let s := { s with scan := { s.scan with blkTime := s.scan.blkTime + 1 } }
    if !s.scan.stuckIgn && decide (s.blankLimit ≤ s.scan.blkTime) then s.after 1 .blankStuck else s
  else s

/-- Captures requested on this hc are installed on the next (R272). -/
def State.tickLatch (s : State) : State :=
  (List.range 6).foldl (fun s t =>
    let x := s.timer t
    let s := s.setTimer t x.latchReq
    if decide (x.req ≠ CapReq.none) then s.after 1 (.timerCapture t) else s) s

/-- A CMD reset falls 16 hc after its write (R115, R121). -/
def State.tickReset (s : State) : State :=
  match s.ms.resetAt with
  | some r => if r ≤ s.now then s.hardReset 5 .resetCircuit s.pw.limit else s
  | none => s

/-- ISTART on the first hc of an exit ramp that followed a completed slot (R166, Table LC-10). -/
def State.tickRamp (s : State) : State :=
  s.setFlagIf (decide (s.inj.phase = InjPhase.exitRamp) && decide (s.inj.rampFrom = s.now)) 0x21 0

/-- The delay line tracks: one code step at most per 64 hc, within 100 to 500 (R43). The manual states no step: which way
the code moves is a free value (log entry 3). -/
def State.trackLine (s : State) : State :=
  if s.clk.lock && decide (s.clk.lineAt + 64 ≤ s.now) then
    let c := (s.reg 0x0114).toNat
    let d := (Config.lineStep s.now).toNat
    let n := if d = 1 then min 500 (c + 1) else if d = 2 then max 100 (c - 1) else c
    { s.setReg 0x0114 (w16 n) with clk := { s.clk with lineAt := if n = c then s.clk.lineAt else s.now } }
  else s

/-- What ends with the hc on which a slot or a re-entry ramp ended: its absence and stops (R46, R48), and on the hc after a
deassertion the ignore of R153. -/
def State.slotOver (s : State) : State :=
  let s := if s.scan.ended.isSome || s.rampLast then State.periodStart { s with scan := { s.scan with ended := none } } else s
  { s with scan := { s.scan with stuckIgn := s.scan.stuckIgn && s.scan.blkEff } }

/-- The next hc begins, not yet counted: ATTN by the causes that stood, an event of the new hc (R77, R275), ISTART, the inputs, a
CMD reset (R121). -/
def State.nextHc (s : State) : State :=
  let s := s.slotOver
  let attn := s.attnWanted (s.now + 1)
  let s := { s with now := s.now + 1, tb := { s.tb with counted := false }, flagged := [] }
  ((s.attnSet attn).tickRamp.trackLine.tickPin.tickVsync).tickReset

/-- One hc ends and the next begins; a setting of this hc may have made STAT.SPILL rise (R210). -/
def State.hcTick (s : State) : State :=
  (((s.tickSlot.tickBlank).tickLatch).spillEdge).nextHc

/-- A Scarecrow cycle's ticker edge has come: SCARECROW_CYCLE brings its codes (R258). -/
def State.cycleDue (s : State) : Bool := s.sk.running && s.sk.cyc.isNone && decide (s.sk.cycleAt ≤ s.ft)

/-- HCLK is absent or does not drive the part: its absence is measured (R49, R250). -/
def State.absent (s : State) : Bool := s.clk.stopped || decide (s.ms.mode = Mode.dormant)

/-- The entry pass may start (R260, R327): DORMANT, no wake cause, no save left. -/
def State.skMayStart (s : State) : Bool :=
  decide (s.ms.mode = Mode.dormant) && decide (s.ms.exit = ExitStage.none) && !s.ms.wake && !s.sk.running && s.sk.cyc.isNone
    && s.sh.jobs.isEmpty && !s.sh.readback

/-- The Scarecrow's look that ends on this period (R257). -/
def State.ftLook (s : State) : State := if s.sk.cyc.any (fun c => decide (c.ends ≤ s.ft)) then s.itemDone else s

/-- An exit that waited for a burst begins at its end (R175). -/
def State.ftExit (s : State) : State := if s.sk.exitDue && s.burstUntil.isNone then s.exitBegin else s

/-- One fast-ticker period: the absence, the first ticker edge of the Scarecrow, the end of a look, and an exit that waited
for its burst (R40, R175, R258, R265). -/
def State.ftTick (s : State) : State :=
  let s := { s with ft := s.ft + 1, clk := { s.clk with absence := s.clk.absence + b2n s.absent } }
  let s := if s.skMayStart && decide (s.ft % 32 = 0) then { s with sk := { s.sk with running := true, cycleAt := s.ft } } else s
  s.ftLook.ftExit

/-- The posted word at the head is QUEUE.CTRL: it takes its snapshot after the sends of its hc (R245). -/
def State.snapHead (s : State) : Bool :=
  match s.link.wbuf with
  | p :: _ => decide (p.addr = 0x2601)
  | [] => false

/-- An event of the agenda whose hc has come; `late` selects the posted words that wait for the sends of this hc. -/
def State.isDue (s : State) (late : Bool) (e : Nat × Instr) : Bool :=
  decide (e.1 ≤ s.now) && ((decide (e.2 = Instr.postedWordApply) && s.snapHead) == late)

/-- The installation of a capture. -/
def isCapture : Instr → Bool
  | .timerCapture _ => true
  | _ => false

/-- The due events: the captures to install, which a read of this hc sees (R272, R273), then the posted words, then the rest. -/
def State.dueEvents (s : State) (late : Bool) : List Instr :=
  let due := (s.agenda.filter (s.isDue late)).map (·.2)
  due.filter isCapture ++ due.filter (fun i => decide (i = Instr.postedWordApply))
    ++ due.filter (fun i => !isCapture i && decide (i ≠ Instr.postedWordApply))

/-- The due events join the queue of commands. -/
def State.takeDue (s : State) (late : Bool) : State :=
  { s with agenda := s.agenda.filter (fun e => !s.isDue late e), pending := s.pending ++ s.dueEvents late }

/-- What the block does while no command waits (log entry 1). -/
def State.clock (s : State) : State :=
  if s.hcDriven then
    if !s.tb.counted then s.countHc
    else if !(s.dueEvents false).isEmpty then s.takeDue false
    else if s.turnDue then s.turnTick
    else if s.rq.snapDue then s.snapshot
    else if !(s.dueEvents true).isEmpty then s.takeDue true
    else if s.awaits then s else s.hcTick
  else if s.cycleDue then s else s.ftTick

end Machine
end Sys2Proof
end

