-- ==== Sys2Proof/Machine/BlankCmds.lean ====
section
/-! DEFINITION. The commands of BLANK and VSYNC (R148 to R153, R189, R190, R376, R377). -/

namespace Sys2Proof
namespace Machine

/-- A command of BLANK with the level `level` (true: asserted): where a change of the effective level to it is due on this hc,
that change, or nothing where the change has been called off; else the ball takes that raw level (R148, R149, R377, log entry
70). -/
def State.blankCome (s : State) (level : Bool) : State :=
  match s.blankDue with
  | some (l, off) =>
    if l = level then
      if off then { s with scan := { s.scan with blkAt := none } } else s.countHc.blankTake level
    else s.blankPin (level != wbit (s.reg 0x0608) 1)
  | none => s.blankPin (level != wbit (s.reg 0x0608) 1)

/-- BLANK_ASSERT (R148, R149). -/
def execBlankAssert (s : State) : Host.Outcome State Fault Refusal := .next (s.blankCome true)

/-- BLANK_DEASSERT (R148, R149). -/
def execBlankDeassert (s : State) : Host.Outcome State Fault Refusal := .next (s.blankCome false)

/-- PAUSE_END (R149). -/
def execPauseEnd (s : State) : Host.Outcome State Fault Refusal := .next s.tailEnd

/-- BLANKED (R150). -/
def execBlanked (s : State) : Host.Outcome State Fault Refusal := .next s.blankedOp

/-- BLANK_CHATTER (R152). -/
def execBlankChatter (s : State) : Host.Outcome State Fault Refusal := .next s.chatterOp

/-- BLANK_STUCK (R153). -/
def execBlankStuck (s : State) : Host.Outcome State Fault Refusal := .next s.stuckOp

/-- LANE_BLANK_WRITE (R377). -/
def execLaneBlankWrite (value : Word) (s : State) : Host.Outcome State Fault Refusal := .next (s.hostWrite 0x0608 value)

/-- An effective VSYNC edge, D hc after the ball's (R189, R190): an event of the timers and a target. -/
def State.vsyncOp (s : State) : State :=
  if s.sampled then (s.timerSource 3 1).vsyncTarget (s.tb.hcpos - s.deglitch) else s

/-- The deglitched level of VSYNC takes the ball's level (R190). -/
def State.vsTake (s : State) : State := { s with scan := { s.scan with vsEff := s.scan.vsBall, vsAt := none } }

/-- VSYNC_EDGE: where a change of the deglitched level is due on this hc, that change, an effective edge by the polarity in
force; else a change of the level at the ball (R189, R190, log entry 70). -/
def execVsyncEdge (s : State) : Host.Outcome State Fault Refusal :=
  .next (match s.vsDue with
    | some edge => if edge then s.vsTake.countHc.vsyncOp else s.vsTake
    | none => s.vsyncPin (!s.scan.vsBall))

/-- VLOST (R189): no edge has come since it was timed. -/
def execVlost (s : State) : Host.Outcome State Fault Refusal :=
  .next (if s.agenda.any (fun (e : Nat × Instr) => decide (e.2 = Instr.vlost)) then s else s.vsyncLost)

end Machine
end Sys2Proof
end

