-- ==== Sys2Proof/Machine/ShedCmds.lean ====
section
/-! DEFINITION. The commands of the Shed (R318 to R331). -/

namespace Sys2Proof
namespace Machine

/-- Bank selection in start-up step 2 (R109, R123, R323). -/
def State.selectionOp (s : State) : State :=
  if decide (s.pw.phase = .on) && decide (s.ms.step = 2) && s.sh.jobs.isEmpty then s.bankSelect.imageTaken else s

/-- SHED_BANK_SELECTION (R323). -/
def execShedBankSelection (s : State) : Host.Outcome State Fault Refusal := .next s.selectionOp

/-- GO_DORMANT waited for the page program (R118). -/
def State.dormantWaits (s : State) : Bool :=
  s.ms.entering && decide (s.ms.mode ≠ Mode.dormant) && s.fires .dormantModeSet

/-- After the epoch program of step 2, presence begins and step 3 follows (R33, R109, R123). -/
def State.presenceOp (s : State) : State :=
  State.stepCheck { s with ms := { s.ms with step := 3 }, link := { s.link with presence := true, answering := true } }

/-- What follows a page program (R118, R325, R328): with a shutdown deferred to its end no further page starts. -/
def State.pageAfter (s : State) (kind : JobKind) : State :=
  if s.pw.deferred then State.deferredShutdown { s with sh := { s.sh with jobs := [] } }
  else
    let s := if kind = .boot then s.presenceOp else s
    let s := if s.dormantWaits then s.enterDormant else s
    if s.sh.jobs.isEmpty then s else s.shedStart

/-- A page program ends (R325); one that is timed in hc ends at its hc. -/
def State.pageDone (s : State) : State :=
  match s.sh.jobs with
  | [] => s
  | j :: rest =>
    if s.sh.jobAt.any (fun t => decide (s.now < t)) then s else (s.shedPageEnd j rest).pageAfter j.kind

/-- SHED_PAGE_PROGRAM_DONE (R325). -/
def execShedPageProgramDone (s : State) : Host.Outcome State Fault Refusal := .next s.pageDone

/-- SHED_SAVE_READBACK_DONE (R325). -/
def execShedSaveReadbackDone (s : State) : Host.Outcome State Fault Refusal :=
  .next (if s.sh.readback && s.fires .shedSaveReadbackDone then s.shedCheck else s)

/-- SAVE (R325). -/
def execSave (s : State) : Host.Outcome State Fault Refusal := .next (s.hostWrite 0x2B08 1)

/-- FORGET (R326). -/
def execForget (s : State) : Host.Outcome State Fault Refusal := .next (s.hostWrite 0x2B08 2)

end Machine
end Sys2Proof
end

