-- ==== Sys2Proof/Machine/ModeCmds.lean ====
section
/-! DEFINITION. The commands of modes and references (R105 to R123, R163). A row that names a SYS.CMD command is the host's
write of that command to SYS.CMD. -/

namespace Sys2Proof
namespace Machine

/-- A write of a command to SYS.CMD (R115, R352). -/
def State.sysCmd (s : State) (code arg : Nat) : State := s.hostWrite 0x0008 (w16 (code + 256 * arg))

/-- GO_ACTIVE (R115). -/
def execGoActive (s : State) : Host.Outcome State Fault Refusal := .next (s.sysCmd 0x01 0)

/-- GO_WATCH (R115). -/
def execGoWatch (s : State) : Host.Outcome State Fault Refusal := .next (s.sysCmd 0x02 0)

/-- GO_DORMANT (R118). -/
def execGoDormant (s : State) : Host.Outcome State Fault Refusal := .next (s.sysCmd 0x03 0)

/-- GO_SERVICE (R115). -/
def execGoService (s : State) : Host.Outcome State Fault Refusal := .next (s.sysCmd 0x04 0)

/-- RESET (R115, R121). -/
def execReset (arg : Byte) (s : State) : Host.Outcome State Fault Refusal := .next (s.sysCmd 0x0F arg.toNat)

/-- REF_RDY (R113). -/
def execRefRdy (s : State) : Host.Outcome State Fault Refusal := .next (if s.fires .refRdy then s.refSettled else s)

/-- REFFAIL (R113). -/
def execReffail (s : State) : Host.Outcome State Fault Refusal := .next (if s.fires .reffail then s.refFallback else s)

/-- REFOUT (R163). -/
def execRefout (s : State) : Host.Outcome State Fault Refusal := .next s.refLeaves

/-- REFX_ENTERS_WINDOW (R113). -/
def execRefxEntersWindow (s : State) : Host.Outcome State Fault Refusal := .next s.refEnters

/-- AUTOMODE (R117): the idle time is over. -/
def execAutomode (s : State) : Host.Outcome State Fault Refusal :=
  .next (if wbit (s.reg 0x020C) 0 && decide (s.ms.mode = Mode.active) && s.ms.idleAt.any (fun t => decide (t ≤ s.now)) then
      { s with ms := { s.ms with auto := some .watch } } else s)

/-- A frame boundary that is due, an event of the timers (R107, Tables TG-1 and TG-3). -/
def State.boundaryOp (s : State) (m : Monitors) : State := if s.boundaryDue then (s.timerSource 2 4).boundary m else s

/-- FRAME_BOUNDARY (R107). -/
def execFrameBoundary (m : Monitors) (s : State) : Host.Outcome State Fault Refusal := .next (s.countHc.boundaryOp m)

/-- DORMANT_MODE_SET (R118). -/
def execDormantModeSet (s : State) : Host.Outcome State Fault Refusal :=
  .next (if s.fires .dormantModeSet then s.dormantSet else s)

/-- HOST_WAKE_REQUEST (R79, R265). -/
def execHostWakeRequest (s : State) : Host.Outcome State Fault Refusal := .next s.hostWake

/-- DORMANT_EXIT_START (R120). -/
def execDormantExitStart (s : State) : Host.Outcome State Fault Refusal := .next s.exitStart

/-- An EPOCH report falls due: the agenda holds no more of them than are to come after it (R111, R253). -/
def State.epochFires (s : State) : Bool :=
  decide ((s.agenda.filter (fun e => decide (e.2 = Instr.epochReport))).length ≤ s.rq.epochOld.length)

/-- EPOCH_REPORT (R111, R253). -/
def execEpochReport (s : State) : Host.Outcome State Fault Refusal :=
  .next (if s.epochFires then s.epochReportOp else s)

end Machine
end Sys2Proof
end

