-- ==== Sys2Proof/Machine/CalCmds.lean ====
section
/-! DEFINITION. The calibration and diagnostic commands of SYS.CMD (R286 to R294, R310, R315). -/

namespace Sys2Proof
namespace Machine

/-- SELFCAL (R286, R288). -/
def execSelfcal (s : State) : Host.Outcome State Fault Refusal := .next (s.sysCmd 0x05 0)

/-- CALZERO (R289). -/
def execCalzero (s : State) : Host.Outcome State Fault Refusal := .next (s.sysCmd 0x10 0)

/-- CALPOINT (R289). -/
def execCalpoint (p : Byte) (s : State) : Host.Outcome State Fault Refusal := .next (s.sysCmd 0x11 p.toNat)

/-- CALSOLVE (R290). -/
def execCalsolve (s : State) : Host.Outcome State Fault Refusal := .next (s.sysCmd 0x12 0)

/-- CALTRACE (R293). -/
def execCaltrace (s : State) : Host.Outcome State Fault Refusal := .next (s.sysCmd 0x13 0)

/-- CALTICK (R294). -/
def execCaltick (s : State) : Host.Outcome State Fault Refusal := .next (s.sysCmd 0x14 0)

/-- OPENTEST (R310). -/
def execOpentest (s : State) : Host.Outcome State Fault Refusal := .next (s.sysCmd 0x18 0)

/-- FAILLANE (R315). -/
def execFaillane (lane : Byte) (s : State) : Host.Outcome State Fault Refusal := .next (s.sysCmd 0x19 lane.toNat)

end Machine
end Sys2Proof
end

