-- ==== Sys2Proof/Machine/ClockCmds.lean ====
section
/-! DEFINITION. The commands of the host clock (R41 to R52, R109, R249 to R252). -/

namespace Sys2Proof
namespace Machine

/-- HCLKF_WRITE (R50). -/
def execHclkfWrite (value : Word) (s : State) : Host.Outcome State Fault Refusal := .next (s.countHc.hostWrite 0x0110 value)

/-- A stop is declared (R44, R45, R74). -/
def State.stopOp (s : State) (inFlight : Bool) : State :=
  if !s.hcDriven then s
  else
    State.setFlagIf { s with clk := { s.clk with stopped := true, absence := 0, stops := s.clk.stops + 1 } }
      (inFlight || s.link.turn.isSome) 0x01 5

/-- HCLK_STOP (R45). -/
def execHclkStop (hostFrameInFlight : Bool) (s : State) : Host.Outcome State Fault Refusal := .next (s.stopOp hostFrameInFlight)

/-- The absence timer may trip from 50 µs of cumulative absence on, 51 fast-ticker periods at the ticker's fastest (R40,
R46). -/
def State.tripOp (s : State) : State :=
  if s.clk.stopped && decide (51 ≤ s.clk.cum + s.clk.absence + s.clk.stops) then { s with clk := { s.clk with tripped := true } } else s

/-- ABSENCE_TIMER_TRIP (R46): between 50 and 57 µs this command decides the outcome. -/
def execAbsenceTimerTrip (s : State) : Host.Outcome State Fault Refusal := .next s.tripOp

/-- The part of a resume that the time base and the registers take (R49, R50, R248, R249): STOPLEN, the TSC's advance,
the staged declaration, an anchor. -/
def State.resumeTime (s : State) (apply : Bool) : State :=
  let n := s.clk.absence
  let s := s.setReg 0x0112 (w16 (min 65535 n))
  let s := if 65535 < n then s.setReg 0x0111 (s.reg 0x0111 ||| 0x1000) else s
  let s := if s.tb.run then s.advance n (s.reg 0x0311).toNat 16 512 else s.setWide 0x0313 3 n
  match apply, s.clk.staged with
  | true, some f => s.changeDeclaration f
  | _, _ => if s.tb.run then s.writeAnchor else s

/-- What a slot, a relock or a period does at a resume or jump (R46 to R48, R50, R51): a stop that began on a slot's last hc
counts in that slot. -/
def State.resumeRelock (s : State) (freeze relock : Bool) : State :=
  if s.clk.relock.isSome then (if relock then s.restartRelock else s)
  else match s.scan.ended with
    | some e => if freeze then (s.unend e).freezeSlot else s
    | none =>
      if s.slotRuns then (if freeze then s.freezeSlot else s)
      else if relock then s.shiftPeriod
      else s

/-- The first HCLK edge after a stop (R46 to R50, R77: a cause that arose in the stop pulls ATTN now). A cumulative absence of 62 fast-ticker periods is more than 57 µs at
the ticker's fastest. -/
def State.resumeOp (s : State) : State :=
  if !s.clk.stopped then s
  else
    let apply := s.clk.staged.isSome && decide (1 ≤ s.clk.absence)
    let cum := s.clk.cum + s.clk.absence
    let long := s.clk.tripped || decide (62 ≤ cum)
    let freeze := long || decide (32 < s.clk.stops) || apply
    let s := s.resumeTime apply
    let s := { s with clk := { s.clk with stopped := false, absence := 0, cum := cum, measFrom := s.now } }
    State.attnUpdate (s.resumeRelock freeze (long || apply)).pinsFollow s.now

/-- HCLK_RESUME (R47, R49). -/
def execHclkResume (s : State) : Host.Outcome State Fault Refusal := .next s.resumeOp

/-- An undeclared change of frequency (R51, R251). Before the first lock nothing is held to compare with. -/
def State.jumpOp (s : State) : State :=
  if !s.hcDriven then s
  else
    let s := s.setReg 0x0111 (s.reg 0x0111 ||| 0x0200)
    let s := State.setUnc { s with tb := { s.tb with jumped := true } } 0xFFFFFFFF
    if decide (s.clk.relock = some Relock.dormantExit) then s
    else if decide (s.ms.step = 3) && s.clk.relock.isNone then s.startRelock .first
    else s.resumeRelock true true

/-- JUMP (R51). -/
def execJump (s : State) : Host.Outcome State Fault Refusal := .next s.jumpOp

/-- DELAY_LINE_LOCK (R43). -/
def execDelayLineLock (code : Word) (s : State) : Host.Outcome State Fault Refusal := .next (s.delayLock code)

/-- LNK.HCLKMEAS of `n` hc in 1,024 fast-ticker periods (R52). -/
def measuredKhz (n : Nat) : Nat := min 65535 (roundDiv (n * 1048576 : Nat) 1024000).toNat

/-- A measurement is stored (R52, R247, R250). -/
def State.measureStore (s : State) (n : Nat) : State :=
  let s := (s.setReg 0x0115 (w16 (measuredKhz n))).setReg 0x0311 (w16 (min 65535 n))
  { s with clk := { s.clk with measFrom := s.now }, tb := { s.tb with measured := true } }

/-- A measurement of R52: n hc in 1,024 fast-ticker periods. One whose periods contain a stop is discarded: the n hc must
have run since the last resume or the measurement before. -/
def State.measureOp (s : State) (n : Nat) : State :=
  if !s.hcDriven || decide (s.now < s.clk.measFrom + n) then s
  else
    let s := s.measureStore n
    let off := decide (s.clk.decl ≠ 0) && decide (8 * s.clk.decl < 100 * ((measuredKhz n : Int) - s.clk.decl).natAbs)
    let s := if off then s.setReg 0x0111 (s.reg 0x0111 ||| 0x0400) else s
    s.tickMeasure n

/-- HCLK_MEASUREMENT (R52, R294). -/
def execHclkMeasurement (hcCount : Nat) (s : State) : Host.Outcome State Fault Refusal := .next (s.measureOp hcCount)

/-- The first HCLK edge after step 1 starts the delay line locking (R109). -/
def State.firstEdge (s : State) : State :=
  if decide (s.pw.phase = .on) && !s.clk.seen then State.startRelock { s with clk := { s.clk with seen := true, measFrom := s.now }, tb := { s.tb with counted := false } } .first else s

/-- FIRST_HCLK_EDGE (R109). -/
def execFirstHclkEdge (s : State) : Host.Outcome State Fault Refusal := .next s.firstEdge

/-- SLEW_END: the TSC returns to full rate and an anchor is written (R248, R252). -/
def execSlewEnd (s : State) : Host.Outcome State Fault Refusal :=
  .next (if s.tb.run && decide (s.tb.slewRem = 0) then s.writeAnchor else s)

end Machine
end Sys2Proof
end

