-- ==== Sys2Proof/Machine/FrameCmds.lean ====
section
/-! DEFINITION. The commands of the scan: slot ends, records, the Cloche's trips and the water map, resampler outputs,
contacts, and drive overloads. -/

namespace Sys2Proof
namespace Machine

/-- A regular slot has ended: an injected sequence that waited for it starts, or the next entry (R164, R168, R170). -/
def State.regularNext (s : State) (e : Nat) : State :=
  if s.inj.phase = .pending then
    if e < 7 then s.injStart (s.now + 1) (some (e + 1)) else (s.frameTail s.now).injStart (s.now + 1) none
  else s.afterEntry e

/-- A calibration slot has ended (R286, R288, R293, R310): the next one, or the activity's baseline frames. -/
def State.calNext (s : State) (d : SlotData) : State :=
  match s.ca.act with
  | none => s
  | some a =>
    let s := (s.calSlot d).showCalRange
    if s.ca.k < a.slots then s.startSlot (.cal s.ca.k) 1
    else
      let s := { s with ca := { s.ca with act := none } }
      if a = .boot then s.bootStep6 (s.now + 1) else s.startBaseline .calEnd (s.now + 1)

/-- What a slot of a frame or of an injected sequence leaves (R143, R147, R150, R180, R186, R187): its flags, range
decisions, and the records on their way. -/
def State.slotRecords (s : State) (k : SlotKind) (d : SlotData) : State :=
  let o := s.slotOut k s.scan.scph d
  let s := ((s.emitPause s.scan.pauseCount).setFlagIf o.sat 0x22 0).setFlagIf o.clamp 0x06 3
  let s := (o.visits.foldl State.visitEnd s).showRanges k s.scan.scph
  State.after { s with scan := { s.scan with flight := s.scan.flight ++
    [{ due := s.now + 1024, frame := s.scan.frameNo, kind := k, elecs := o.elecs, health := o.health, cut := false }] } } 1024 .recordsReady

/-- What the end of slot `k` is about to change. -/
def State.endedNow (s : State) (k : SlotKind) : Ended :=
  { slot := k, regs := s.regs, low := s.scan.low, inj := s.inj, ca := s.ca, forming := s.dg.forming, formN := s.dg.formN,
    formLeft := s.dg.formLeft, formSum := s.dg.formSum, after := s.scan.after, baseLeft := s.scan.baseLeft, step := s.ms.step,
    calBusy := s.ms.calBusy, busy := s.ms.busy, done := s.ms.done, ow := s.dg.ow }

/-- What the end of slot `k` leaves, and what follows it. -/
def State.slotClose (s : State) (k : SlotKind) (d : SlotData) : State :=
  match k with
  | .regular e => (s.slotRecords k d).regularNext e
  | .injected i => (s.slotRecords k d).injSlotDone i
  | .cal _ => s.calNext d

/-- The last hc of the slot in progress (R143). A stop that begins on it belongs to this slot still (R46). -/
def State.slotEndOp (s : State) (d : SlotData) : State :=
  if !s.slotEnds then s
  else match s.scan.slot with
    | some k =>
      let t := s.slotClose k d
      { t with clk := { t.clk with stops := s.clk.stops, cum := s.clk.cum, tripped := s.clk.tripped }
               scan := { t.scan with ended := some (s.endedNow k) } }
    | none => s

/-- SLOT_END (R143). -/
def execSlotEnd (d : SlotData) (s : State) : Host.Outcome State Fault Refusal := .next (s.slotEndOp d)

/-- RECORDS_READY (R187). -/
def execRecordsReady (s : State) : Host.Outcome State Fault Refusal := .next s.recordsDue

/-- A trip (R203, R204): with CTRIP = 1 it triggers an injected sequence, whose end makes a re-plan due; otherwise the
re-plan is due from the trip. -/
def State.tripNow (s : State) : State :=
  if s.cl.tripDue then
    let s := State.setFlag { s with cl := { s.cl with tripDue := false } } 0x24 0
    if wbit (s.reg 0x2101) 1 then s.injTrigger false true else s.replanSoon
  else s

/-- NTRIP (R203). -/
def execNtrip (s : State) : Host.Outcome State Fault Refusal := .next (if s.fires .ntrip then s.tripNow else s)

/-- WATER_MAP_UPDATE (R210). -/
def execWaterMapUpdate (s : State) : Host.Outcome State Fault Refusal := .next s.waterUpdate

/-- One output becomes ready (R195): RCNT, RLAST, and the Trellis 4,096 hc later (R230). -/
def State.outputSeen (s : State) (o : Output) : State :=
  (s.outputCount o).after 4096 .trellisOutput

/-- The outputs whose ready hc has come, in target order (R195). -/
def State.outputsReady (s : State) : State :=
  let isNew (o : Output) : Bool := decide (o.ready ≤ s.now) && !o.seen
  (s.sv.outs.filter isNew).foldl State.outputSeen
    { s with sv := { s.sv with outs := s.sv.outs.map (fun (o : Output) => if isNew o then { o with seen := true } else o) } }

/-- OUTPUT_READY (R195). -/
def execOutputReady (s : State) : Host.Outcome State Fault Refusal := .next s.outputsReady

/-- The oldest output whose queuing hc has come (R76, R230, R241): it waits while a report waits, and is dropped while
the core is halted. -/
def State.trellisNext (s : State) : State :=
  match s.sv.outs with
  | [] => s
  | o :: rest =>
    if !(o.seen && decide (o.ready + 4096 ≤ s.now)) then s
    else if !s.rq.waiting.isEmpty then s.after 1 .trellisOutput
    else
      let s := { s with sv := { s.sv with outs := rest } }
      if s.ms.halted then s else s.trellisProcess o

/-- TRELLIS_OUTPUT (R230). -/
def execTrellisOutput (s : State) : Host.Outcome State Fault Refusal := .next s.trellisNext

/-- A contact whose reference has stood for STUCKT seconds closes, unless the core is halted (R76, R228). -/
def State.stuckOpen (s : State) (id : Nat) : State :=
  let cs := s.tr.contacts.filter (fun (c : Contact) => decide (c.id = id) && s.stuckNow c)
  if cs.isEmpty || s.ms.halted then s
  else (s.stuckClose cs).forceUps (fun (c : Contact) => decide (c.id = id)) 3

/-- STUCK (R228). -/
def execStuck (id : Nat) (s : State) : Host.Outcome State Fault Refusal := .next (s.stuckOpen id)

/-- The regular entry whose DFT window this hc belongs to (R9, R136). -/
def State.windowEntry (s : State) : Option Nat :=
  match s.scan.ended with
  | some e => match e.slot with | .regular e => some e | _ => none
  | none => match s.scan.slot with
    | some (.regular e) => if s.slotRuns && decide (2048 ≤ s.scan.h) then some e else none
    | _ => none

/-- The DFT windows in which the rule of R136 applies: those of M0 to M5, and of SC with a guard tone. -/
def State.driveWindow (s : State) : Bool :=
  s.windowEntry.any (fun e => decide (e < 6) || (decide (e = 6) && wbit (s.force.get 0x0401) 1))

/-- Drives that reach their current limit (R136): OVLD, the first one since the last read, and the frame's overloads
(R309). -/
def State.overload (s : State) (drives : List Nat) : State :=
  let ds := if s.driveWindow then drives.filter (fun d => decide (d < 64)) else []
  match ds.mergeSort (fun a b => decide (a ≤ b)) with
  | [] => s
  | d :: _ =>
    let s := s.setFlag 0x04 0
    let s := if wbit (s.reg 0x040B) 15 then s else s.setReg 0x040B (w16 (0x8000 + d))
    { s with dg := { s.dg with ovlNow := s.dg.ovlNow ++ ds.filter (fun d => !s.dg.ovlNow.contains d) } }

/-- OVLD (R136). -/
def execOvld (drives : List Nat) (s : State) : Host.Outcome State Fault Refusal := .next (s.overload drives)

end Machine
end Sys2Proof
end

