-- ==== Sys2Proof/Machine/InjectCmds.lean ====
section
/-! DEFINITION. The commands of injected sequences (R165 to R172). -/

namespace Sys2Proof
namespace Machine

/-- IGO (R165). -/
def execIgo (s : State) : Host.Outcome State Fault Refusal := .next (s.hostWrite 0x2101 (s.reg 0x2101 ||| 1))

/-- INJECTED_SEQUENCE_TRIGGER (R167). -/
def execInjectedSequenceTrigger (host cloche : Bool) (s : State) : Host.Outcome State Fault Refusal :=
  .next (s.injTrigger host cloche)

/-- INJECTED_SEQUENCE_END (R166). -/
def execInjectedSequenceEnd (s : State) : Host.Outcome State Fault Refusal := .next s.injDone

/-- EXIT_RAMP_END (R166). -/
def execExitRampEnd (s : State) : Host.Outcome State Fault Refusal := .next s.injRampEnd

end Machine
end Sys2Proof
end

