-- ==== Sys2Proof/Machine/LinkCmds.lean ====
section
/-! DEFINITION. The link's commands: the requests of Table LT-2 and the events of the link itself. Each request row brings a
frame, and H0.OP says which request it is (R61); the row is the one its opcode names (Instr.wf). -/

namespace Sys2Proof
namespace Machine

/-- What an accepted request does (R65 to R76). TSYNC and REBASE act on the count of their reference instant (R75). A DBGCTL
action code R76 does not list acts as STATUS (log entry 33). -/
def State.act (s : State) (op : Op) (f : Frame) : State :=
  match op with
  | .read => s.readOp f
  | .write => s.writeOp f
  | .writea => s.writeaOp f
  | .grant => s.grantOp f
  | .credit => s.creditOp f.h1.toNat
  | .resend => s.resendOp f
  | .tsync => s.countHc.tsyncOp f
  | .rebase => s.countHc.rebaseOp f
  | .dbgctl =>
    if f.h1 = 1 then s.haltOp f else if f.h1 = 2 then s.runOp f else if f.h1 = 3 then s.stepOp f else s.dbgAck f
  | .dbgrd => s.dbgrdOp f
  | .dbgwr => s.dbgwrOp f
  | .abort => s.abortOp

/-- A frame from the host (R59, R60, R61, R63, R69): discarded where its CRC fails, NAK OPCODE where OP is reserved, else the
request OP names. -/
def State.request (s : State) (f : Frame) : State :=
  if !s.heard f then s
  else if !f.crcOk then (s.setFlag 0x01 0).addSat 0x0108 1
  else match opOf f.op with
    | none => s.firstRequest.nak f 1
    | some op => s.firstRequest.checked op f (fun s => s.act op f)

/-- READ (R67). A frame with a reserved opcode arrives by this row too (R63). -/
def execRead (f : Frame) (s : State) : Host.Outcome State Fault Refusal :=
  .next (s.request f)

/-- WRITE (R65). -/
def execWrite (f : Frame) (s : State) : Host.Outcome State Fault Refusal :=
  .next (s.request f)

/-- WRITEA (R66). -/
def execWritea (f : Frame) (s : State) : Host.Outcome State Fault Refusal :=
  .next (s.request f)

/-- GRANT (R56). -/
def execGrant (f : Frame) (s : State) : Host.Outcome State Fault Refusal :=
  .next (s.request f)

/-- CREDIT (R243). -/
def execCredit (f : Frame) (s : State) : Host.Outcome State Fault Refusal :=
  .next (s.request f)

/-- RESEND (R70). -/
def execResend (f : Frame) (s : State) : Host.Outcome State Fault Refusal :=
  .next (s.request f)

/-- TSYNC (R75, R252). -/
def execTsync (f : Frame) (s : State) : Host.Outcome State Fault Refusal :=
  .next (s.request f)

/-- REBASE (R75, R253). -/
def execRebase (f : Frame) (s : State) : Host.Outcome State Fault Refusal :=
  .next (s.request f)

/-- DBGCTL STATUS (R76). -/
def execDbgctlStatus (f : Frame) (s : State) : Host.Outcome State Fault Refusal :=
  .next (s.request f)

/-- DBGCTL HALT (R76). -/
def execDbgctlHalt (f : Frame) (s : State) : Host.Outcome State Fault Refusal :=
  .next (s.request f)

/-- DBGCTL RUN (R76). -/
def execDbgctlRun (f : Frame) (s : State) : Host.Outcome State Fault Refusal :=
  .next (s.request f)

/-- DBGCTL STEP (R76). -/
def execDbgctlStep (f : Frame) (s : State) : Host.Outcome State Fault Refusal :=
  .next (s.request f)

/-- DBGRD (R76). -/
def execDbgrd (f : Frame) (s : State) : Host.Outcome State Fault Refusal :=
  .next (s.request f)

/-- DBGWR (R76). -/
def execDbgwr (f : Frame) (s : State) : Host.Outcome State Fault Refusal :=
  .next (s.request f)

/-- ABORT (R72). -/
def execAbort (f : Frame) (s : State) : Host.Outcome State Fault Refusal :=
  .next (s.request f)

/-- SYNCERR: a SYNC word other than 0x2D4B (R59). -/
def execSyncerr (received : Word) (s : State) : Host.Outcome State Fault Refusal :=
  .next (if s.linkUp && s.link.turn.isNone && decide (received ≠ 0x2D4B) then s.setFlag 0x01 1 else s)

/-- RESPONSE_READY (R67, R77). -/
def execResponseReady (s : State) : Host.Outcome State Fault Refusal := .next s.responseReadyOp

/-- ATTN_REASSERT at E+73 (R77). -/
def execAttnReassert (s : State) : Host.Outcome State Fault Refusal :=
  .next (if s.link.turn.isNone then s.attnUpdate s.now else s)

/-- POSTED_WORD_APPLY (R66). -/
def execPostedWordApply (s : State) : Host.Outcome State Fault Refusal := .next s.postedApply

end Machine
end Sys2Proof
end

