-- ==== Sys2Proof/Machine/PowerCmds.lean ====
section
/-! DEFINITION. The commands of phantom power, the comparators, the thermal rules and the resets (R22 to R35, R121,
R122, R328). -/

namespace Sys2Proof
namespace Machine

/-- The power phase changes where it is the one named. -/
def State.phaseStep (s : State) (p q : PowerPhase) : State :=
  if s.pw.phase = p then { s with pw := { s.pw with phase := q } } else s

/-- VPH_QUALIFIED (R22). -/
def execVphQualified (s : State) : Host.Outcome State Fault Refusal := .next (s.phaseStep .qualifying .softStart)

/-- SOFT_START_DONE: start-up step 2 begins (R22, R108). -/
def execSoftStartDone (s : State) : Host.Outcome State Fault Refusal :=
  .next (if s.pw.phase = .softStart then s.beginStep2 else s)

/-- QUALIFICATION_RESTART: the 100 µs start again; the phase stays (R34). -/
def execQualificationRestart (s : State) : Host.Outcome State Fault Refusal := .next s

/-- A wire event sets its LNK.IFLG bit; a part held in reset keeps its registers at their reset values (R23, R35). -/
def State.wireFlag (s : State) (bit : Nat) : State := s.setFlagIf (decide (s.pw.phase = .on)) 0x01 bit

/-- The phantom switch is closed and soft start is over (R22, R121). -/
def State.limiterRuns (s : State) : Bool :=
  decide (s.pw.phase = .on) || decide (s.pw.phase = .resetCircuit) || decide (s.pw.phase = .regboHeld)

/-- LIMITER_ENGAGED (R22). -/
def execLimiterEngaged (s : State) : Host.Outcome State Fault Refusal :=
  .next (if s.limiterRuns then { s with pw := { s.pw with limit := true } } else s)

/-- LIMITER_RELEASED (R22). -/
def execLimiterReleased (s : State) : Host.Outcome State Fault Refusal := .next { s with pw := { s.pw with limit := false } }

/-- ILIM: the limiter engaged for 100 µs (R22). -/
def execIlim (s : State) : Host.Outcome State Fault Refusal := .next (if s.pw.limit then s.wireFlag 14 else s)

/-- FOLDBACK: the limiter engaged for 2 ms (R22, R121). -/
def execFoldback (s : State) : Host.Outcome State Fault Refusal :=
  .next (if s.pw.limit then s.hardReset 2 .foldbackOpen false else s)

/-- FOLDBACK_OPEN_END (R22). -/
def execFoldbackOpenEnd (s : State) : Host.Outcome State Fault Refusal := .next (s.phaseStep .foldbackOpen .qualifying)

/-- POR: VPH below 3.90 V (R23, R121). -/
def execPor (s : State) : Host.Outcome State Fault Refusal := .next (s.hardReset 0 .qualifying false)

/-- VPH_LOW (R24): the flag is set on the tripping edge. -/
def execVphLow (s : State) : Host.Outcome State Fault Refusal :=
  .next (if s.pw.vphLow then s else State.wireFlag { s with pw := { s.pw with vphLow := true } } 12)

/-- VPH_LOW_CLEAR (R24). -/
def execVphLowClear (s : State) : Host.Outcome State Fault Refusal := .next { s with pw := { s.pw with vphLow := false } }

/-- VPH_HIGH (R24). -/
def execVphHigh (s : State) : Host.Outcome State Fault Refusal := .next (s.wireFlag 13)

/-- ESD_HIT (R35, Table LW-11). -/
def execEsdHit (s : State) : Host.Outcome State Fault Refusal :=
  .next (if s.pw.phase = .on then (s.setFlag 0x01 15).addSat8 0x0124 else s)

/-- THERMAL (R121, R328). -/
def execThermal (s : State) : Host.Outcome State Fault Refusal := .next s.thermalOp

/-- THERMAL_RELEASE (R121). -/
def execThermalRelease (s : State) : Host.Outcome State Fault Refusal := .next (s.phaseStep .thermalHeld .qualifying)

/-- THERMAL_DEFERRAL_EXPIRY (R328). -/
def execThermalDeferralExpiry (s : State) : Host.Outcome State Fault Refusal := .next s.deferredShutdown

/-- WRITE_ABORT_150C: the program in progress aborts and shutdown follows (R328). -/
def execWriteAbort150c (s : State) : Host.Outcome State Fault Refusal :=
  .next (if s.pw.phase = .thermalHeld then s else s.hardReset 1 .thermalHeld false)

/-- THWARN (R122). -/
def execThwarn (s : State) : Host.Outcome State Fault Refusal :=
  .next (State.setFlagIf { s with pw := { s.pw with warm := true } } (!s.pw.warm && decide (s.pw.phase = .on)) 0x00 3)

/-- THERMAL_WARN_CLEAR (R122). -/
def execThermalWarnClear (s : State) : Host.Outcome State Fault Refusal := .next { s with pw := { s.pw with warm := false } }

/-- REGBO (R121). -/
def execRegbo (s : State) : Host.Outcome State Fault Refusal :=
  .next (if s.limiterRuns then s.hardReset 3 .regboHeld s.pw.limit else s)

/-- RAIL_RESTORED (R121). -/
def execRailRestored (s : State) : Host.Outcome State Fault Refusal := .next (s.phaseStep .regboHeld .resetCircuit)

/-- WDOG: in a host-clocked mode with the core not halted (R121). -/
def execWdog (s : State) : Host.Outcome State Fault Refusal :=
  .next (if s.hostClocked && !s.ms.halted then s.hardReset 4 .resetCircuit s.pw.limit else s)

/-- RESET_CIRCUIT_CYCLES_DONE: start-up step 2 begins (R121). -/
def execResetCircuitCyclesDone (s : State) : Host.Outcome State Fault Refusal :=
  .next (if s.pw.phase = .resetCircuit then s.beginStep2 else s)

end Machine
end Sys2Proof
end

