-- ==== Sys2Proof/Machine/RegCmds.lean ====
section
/-! DEFINITION. The register commands: one write or read of a word, at the hc it is applied (R84 to R100). -/

namespace Sys2Proof
namespace Machine

/-- REGISTER_WRITE (R84). A declaration comes after the count of its hc (R247). -/
def execRegisterWrite (addr value : Word) (s : State) : Host.Outcome State Fault Refusal :=
  .next (State.hostWrite (if addr = 0x0110 then s.countHc else s) addr value)

/-- The address is the lowest word of a wide value. -/
def wideLow (a : Nat) : Bool := match wideAt a with | some (base, _, _) => decide (a = base) | none => false

/-- The address is a higher word of a wide value. -/
def wideHigh (a : Nat) : Bool := match wideAt a with | some (base, _, _) => decide (a ≠ base) | none => false

/-- WIDE_VALUE_COMMIT: a write to the lowest word of a wide value (R97). -/
def execWideValueCommit (addr value : Word) (s : State) : Host.Outcome State Fault Refusal :=
  .next (if wideLow addr.toNat then s.hostWrite addr value else s)

/-- WIDE_VALUE_LATCH_READ: a read of the lowest word of a wide value (R94). -/
def execWideValueLatchRead (addr : Word) (s : State) : Host.Outcome State Fault Refusal :=
  .next (if wideLow addr.toNat then s.hostRead addr else s)

/-- WIDE_VALUE_HIGH_READ: a read of a higher word of a wide value (R94). -/
def execWideValueHighRead (addr : Word) (s : State) : Host.Outcome State Fault Refusal :=
  .next (if wideHigh addr.toNat then s.hostRead addr else s)

/-- RC_READ (R4). -/
def execRcRead (addr : Word) (s : State) : Host.Outcome State Fault Refusal := .next (s.hostRead addr)

/-- The address of a page's common word. -/
def pageWord (page : Byte) (off : Nat) : Word := w16 (page.toNat * 256 + off)

/-- ISET (R88). -/
def execIset (page : Byte) (bits : Word) (s : State) : Host.Outcome State Fault Refusal := .next (s.hostWrite (pageWord page 5) bits)

/-- LOCK (R91, R92). -/
def execLock (page : Byte) (value : Word) (s : State) : Host.Outcome State Fault Refusal := .next (s.hostWrite (pageWord page 6) value)

end Machine
end Sys2Proof
end

