-- ==== Sys2Proof/Machine/ScareCmds.lean ====
section
/-! DEFINITION. The Scarecrow's command (R258). -/

namespace Sys2Proof
namespace Machine

/-- A Scarecrow cycle on its ticker edge (R258). -/
def State.cycleOp (s : State) (looks : List GangLook) : State :=
  if s.cycleDue && decide (s.ms.mode = Mode.dormant) && decide (s.ms.exit = ExitStage.none) then s.skCycle looks else s

/-- SCARECROW_CYCLE (R258). -/
def execScarecrowCycle (looks : List GangLook) (s : State) : Host.Outcome State Fault Refusal := .next (s.cycleOp looks)

end Machine
end Sys2Proof
end

