-- ==== Sys2Proof/Machine/SieveCmds.lean ====
section
/-! DEFINITION. The commands that are writes and reads of the plan, the Sieve and the Trellis windows (R132, R194, R199,
R234, R235). -/

namespace Sys2Proof
namespace Machine

/-- TONE_COMMIT (R132). -/
def execToneCommit (s : State) : Host.Outcome State Fault Refusal := .next (s.hostWrite 0x0501 (s.reg 0x0501 ||| 1))

/-- TONE_SNAP (R132). -/
def execToneSnap (s : State) : Host.Outcome State Fault Refusal := .next (s.hostWrite 0x0501 (s.reg 0x0501 ||| 2))

/-- SIEVE_RSYNC (R194). -/
def execSieveRsync (s : State) : Host.Outcome State Fault Refusal := .next (s.hostWrite 0x2201 (s.reg 0x2201 ||| 8))

/-- SVCOEF_DATA_ACCESS (R199). -/
def execSvcoefDataAccess (write : Option Word) (s : State) : Host.Outcome State Fault Refusal :=
  .next (match write with
    | some v => s.hostWrite 0x2309 v
    | none => s.hostRead 0x2309)

/-- HIDD_DATA_READ (R235). -/
def execHiddDataRead (s : State) : Host.Outcome State Fault Refusal := .next (s.hostRead 0x2F0A)

/-- UCDATA_ACCESS (R234). -/
def execUcdataAccess (write : Option Word) (s : State) : Host.Outcome State Fault Refusal :=
  .next (match write with
    | some v => s.hostWrite 0x2519 v
    | none => s.hostRead 0x2519)

end Machine
end Sys2Proof
end

