-- ==== Sys2Proof/Machine/TimerCmds.lean ====
section
/-! DEFINITION. The commands of the timers, the Gauge and the queue's registers (R242, R245, R269 to R280). -/

namespace Sys2Proof
namespace Machine

/-- The address of TMt.TCTRL (R281). -/
def ctrlAddr (t : Nat) : Word := w16 (0x2810 + 16 * t)

/-- TIMER_MODE_CHANGE (R271). -/
def execTimerModeChange (t : Nat) (tctrl : Word) (s : State) : Host.Outcome State Fault Refusal :=
  .next (if t < 6 then s.hostWrite (ctrlAddr t) tctrl else s)

/-- TIMER_SYNC (R271). -/
def execTimerSync (mask : Word) (s : State) : Host.Outcome State Fault Refusal := .next (s.hostWrite 0x2801 mask)

/-- TIMER_ARM (R274). -/
def execTimerArm (t : Nat) (s : State) : Host.Outcome State Fault Refusal :=
  .next (if t < 6 then s.hostWrite (ctrlAddr t) (((s.timer t).ctrl &&& 0x07FF) ||| 0x0800) else s)

/-- TIMER_SWCAP (R272). -/
def execTimerSwcap (t : Nat) (s : State) : Host.Outcome State Fault Refusal :=
  .next (if t < 6 then s.hostWrite (ctrlAddr t) (((s.timer t).ctrl &&& 0x07FF) ||| 0x1000) else s)

/-- The count event that wraps, reloads or returns to 0 (R270). A COUNT started or committed on this hc takes none (R99, R269). -/
def State.wrapOp (s : State) (t : Nat) : State :=
  let r := (s.timer t).step
  if decide (t < 6) && s.timerRuns t && !((s.timer t).fresh || (s.timer t).stay) && r.2 then (s.setTimer t r.1).wrapEvents 6 t else s

/-- TIMER_WRAP (R270). -/
def execTimerWrap (t : Nat) (s : State) : Host.Outcome State Fault Refusal := .next (s.wrapOp t)

/-- The latched value of a capture is installed (R272, R274). -/
def State.captureOp (s : State) (t : Nat) : State :=
  match (s.timer t).latch with
  | some (v, order, res) => s.installCap t v order res
  | none => s

/-- TIMER_CAPTURE (R272). -/
def execTimerCapture (t : Nat) (s : State) : Host.Outcome State Fault Refusal := .next (s.captureOp t)

/-- The first CSRC event of an armed Measure timer, or of one that a STOP of this hc disarmed (R274). -/
def State.measureStart (s : State) (t : Nat) : State :=
  let x := s.timer t
  if decide (t < 6) && s.timerRuns t && decide (x.mode = 4) && (x.armed || decide (x.req = CapReq.order)) && !x.counting then s.setTimer t (x.event x.csrc) else s

/-- TIMER_MEASURE_START (R274). -/
def execTimerMeasureStart (t : Nat) (s : State) : Host.Outcome State Fault Refusal := .next (s.countHc.measureStart t)

/-- A STOP event of an armed Measure timer (R274). -/
def State.measureStop (s : State) (t : Nat) : State :=
  let x := s.timer t
  if decide (t < 6) && s.timerRuns t && decide (x.mode = 4) && x.armed then s.setTimer t (x.event x.stop) else s

/-- TIMER_MEASURE_STOP (R274). -/
def execTimerMeasureStop (t : Nat) (s : State) : Host.Outcome State Fault Refusal := .next (s.countHc.measureStop t)

/-- GAUGE_ENABLE (R277). -/
def execGaugeEnable (en : Bool) (s : State) : Host.Outcome State Fault Refusal :=
  .next (s.countHc.hostWrite 0x2901 ((s.reg 0x2901 &&& 0x3E) ||| w16 (b2n en)))

/-- GAUGE_PERIOD (R279). -/
def execGaugePeriod (s : State) : Host.Outcome State Fault Refusal :=
  .next (if s.gaugeRuns && !wbit (s.reg 0x2901) 1 then s.gaugePeriodOp else s)

/-- GAUGE_FREQ_EDGE (R280). -/
def execGaugeFreqEdge (s : State) : Host.Outcome State Fault Refusal :=
  .next (if s.gaugeRuns && wbit (s.reg 0x2901) 1 then s.gaugeEdgeOp else s)

/-- QUEUE_SNAP (R245). -/
def execQueueSnap (s : State) : Host.Outcome State Fault Refusal := .next (s.hostWrite 0x2601 1)

/-- QUEUE_REPLAY (R242). -/
def execQueueReplay (seq : Word) (s : State) : Host.Outcome State Fault Refusal := .next (s.hostWrite 0x260A seq)

end Machine
end Sys2Proof
end

