-- ==== Sys2Proof/Machine/Dispatch.lean ====
section
/-! DEFINITION. One arm per command: a direct call of its meaning. -/

namespace Sys2Proof
namespace Machine

def exec (i : Instr) (s : State) : Host.Outcome State Fault Refusal :=
  match i with
  | .read f => Sys2Proof.Machine.execRead f s
  | .write f => Sys2Proof.Machine.execWrite f s
  | .writea f => Sys2Proof.Machine.execWritea f s
  | .grant f => Sys2Proof.Machine.execGrant f s
  | .credit f => Sys2Proof.Machine.execCredit f s
  | .resend f => Sys2Proof.Machine.execResend f s
  | .tsync f => Sys2Proof.Machine.execTsync f s
  | .rebase f => Sys2Proof.Machine.execRebase f s
  | .dbgctlStatus f => Sys2Proof.Machine.execDbgctlStatus f s
  | .dbgctlHalt f => Sys2Proof.Machine.execDbgctlHalt f s
  | .dbgctlRun f => Sys2Proof.Machine.execDbgctlRun f s
  | .dbgctlStep f => Sys2Proof.Machine.execDbgctlStep f s
  | .dbgrd f => Sys2Proof.Machine.execDbgrd f s
  | .dbgwr f => Sys2Proof.Machine.execDbgwr f s
  | .abort f => Sys2Proof.Machine.execAbort f s
  | .syncerr received => Sys2Proof.Machine.execSyncerr received s
  | .responseReady => Sys2Proof.Machine.execResponseReady s
  | .attnReassert => Sys2Proof.Machine.execAttnReassert s
  | .postedWordApply => Sys2Proof.Machine.execPostedWordApply s
  | .registerWrite addr value => Sys2Proof.Machine.execRegisterWrite addr value s
  | .wideValueCommit addr value => Sys2Proof.Machine.execWideValueCommit addr value s
  | .wideValueLatchRead addr => Sys2Proof.Machine.execWideValueLatchRead addr s
  | .wideValueHighRead addr => Sys2Proof.Machine.execWideValueHighRead addr s
  | .rcRead addr => Sys2Proof.Machine.execRcRead addr s
  | .iset page bits => Sys2Proof.Machine.execIset page bits s
  | .lock page value => Sys2Proof.Machine.execLock page value s
  | .hclkfWrite value => Sys2Proof.Machine.execHclkfWrite value s
  | .hclkStop hostFrameInFlight => Sys2Proof.Machine.execHclkStop hostFrameInFlight s
  | .absenceTimerTrip => Sys2Proof.Machine.execAbsenceTimerTrip s
  | .hclkResume => Sys2Proof.Machine.execHclkResume s
  | .jump => Sys2Proof.Machine.execJump s
  | .delayLineLock code => Sys2Proof.Machine.execDelayLineLock code s
  | .hclkMeasurement hcCount => Sys2Proof.Machine.execHclkMeasurement hcCount s
  | .vphQualified => Sys2Proof.Machine.execVphQualified s
  | .softStartDone => Sys2Proof.Machine.execSoftStartDone s
  | .ilim => Sys2Proof.Machine.execIlim s
  | .foldback => Sys2Proof.Machine.execFoldback s
  | .foldbackOpenEnd => Sys2Proof.Machine.execFoldbackOpenEnd s
  | .por => Sys2Proof.Machine.execPor s
  | .vphLow => Sys2Proof.Machine.execVphLow s
  | .vphLowClear => Sys2Proof.Machine.execVphLowClear s
  | .vphHigh => Sys2Proof.Machine.execVphHigh s
  | .esdHit => Sys2Proof.Machine.execEsdHit s
  | .thermal => Sys2Proof.Machine.execThermal s
  | .thermalRelease => Sys2Proof.Machine.execThermalRelease s
  | .thermalDeferralExpiry => Sys2Proof.Machine.execThermalDeferralExpiry s
  | .writeAbort150c => Sys2Proof.Machine.execWriteAbort150c s
  | .thwarn => Sys2Proof.Machine.execThwarn s
  | .thermalWarnClear => Sys2Proof.Machine.execThermalWarnClear s
  | .regbo => Sys2Proof.Machine.execRegbo s
  | .railRestored => Sys2Proof.Machine.execRailRestored s
  | .wdog => Sys2Proof.Machine.execWdog s
  | .shedBankSelection => Sys2Proof.Machine.execShedBankSelection s
  | .shedPageProgramDone => Sys2Proof.Machine.execShedPageProgramDone s
  | .shedSaveReadbackDone => Sys2Proof.Machine.execShedSaveReadbackDone s
  | .save => Sys2Proof.Machine.execSave s
  | .forget => Sys2Proof.Machine.execForget s
  | .refRdy => Sys2Proof.Machine.execRefRdy s
  | .reffail => Sys2Proof.Machine.execReffail s
  | .refout => Sys2Proof.Machine.execRefout s
  | .goActive => Sys2Proof.Machine.execGoActive s
  | .goWatch => Sys2Proof.Machine.execGoWatch s
  | .goDormant => Sys2Proof.Machine.execGoDormant s
  | .goService => Sys2Proof.Machine.execGoService s
  | .reset arg => Sys2Proof.Machine.execReset arg s
  | .selfcal => Sys2Proof.Machine.execSelfcal s
  | .calzero => Sys2Proof.Machine.execCalzero s
  | .calpoint p => Sys2Proof.Machine.execCalpoint p s
  | .calsolve => Sys2Proof.Machine.execCalsolve s
  | .caltrace => Sys2Proof.Machine.execCaltrace s
  | .caltick => Sys2Proof.Machine.execCaltick s
  | .opentest => Sys2Proof.Machine.execOpentest s
  | .faillane lane => Sys2Proof.Machine.execFaillane lane s
  | .automode => Sys2Proof.Machine.execAutomode s
  | .frameBoundary m => Sys2Proof.Machine.execFrameBoundary m s
  | .dormantModeSet => Sys2Proof.Machine.execDormantModeSet s
  | .hostWakeRequest => Sys2Proof.Machine.execHostWakeRequest s
  | .dormantExitStart => Sys2Proof.Machine.execDormantExitStart s
  | .epochReport => Sys2Proof.Machine.execEpochReport s
  | .slotEnd d => Sys2Proof.Machine.execSlotEnd d s
  | .recordsReady => Sys2Proof.Machine.execRecordsReady s
  | .ntrip => Sys2Proof.Machine.execNtrip s
  | .waterMapUpdate => Sys2Proof.Machine.execWaterMapUpdate s
  | .outputReady => Sys2Proof.Machine.execOutputReady s
  | .trellisOutput => Sys2Proof.Machine.execTrellisOutput s
  | .stuck id => Sys2Proof.Machine.execStuck id s
  | .toneCommit => Sys2Proof.Machine.execToneCommit s
  | .toneSnap => Sys2Proof.Machine.execToneSnap s
  | .sieveRsync => Sys2Proof.Machine.execSieveRsync s
  | .ovld drives => Sys2Proof.Machine.execOvld drives s
  | .blankAssert => Sys2Proof.Machine.execBlankAssert s
  | .blankDeassert => Sys2Proof.Machine.execBlankDeassert s
  | .pauseEnd => Sys2Proof.Machine.execPauseEnd s
  | .blanked => Sys2Proof.Machine.execBlanked s
  | .blankChatter => Sys2Proof.Machine.execBlankChatter s
  | .blankStuck => Sys2Proof.Machine.execBlankStuck s
  | .laneBlankWrite value => Sys2Proof.Machine.execLaneBlankWrite value s
  | .vsyncEdge => Sys2Proof.Machine.execVsyncEdge s
  | .vlost => Sys2Proof.Machine.execVlost s
  | .svcoefDataAccess write => Sys2Proof.Machine.execSvcoefDataAccess write s
  | .igo => Sys2Proof.Machine.execIgo s
  | .injectedSequenceTrigger host cloche => Sys2Proof.Machine.execInjectedSequenceTrigger host cloche s
  | .injectedSequenceEnd => Sys2Proof.Machine.execInjectedSequenceEnd s
  | .scarecrowCycle looks => Sys2Proof.Machine.execScarecrowCycle looks s
  | .timerModeChange t tctrl => Sys2Proof.Machine.execTimerModeChange t tctrl s
  | .timerSync mask => Sys2Proof.Machine.execTimerSync mask s
  | .timerArm t => Sys2Proof.Machine.execTimerArm t s
  | .timerSwcap t => Sys2Proof.Machine.execTimerSwcap t s
  | .timerWrap t => Sys2Proof.Machine.execTimerWrap t s
  | .timerCapture t => Sys2Proof.Machine.execTimerCapture t s
  | .timerMeasureStart t => Sys2Proof.Machine.execTimerMeasureStart t s
  | .timerMeasureStop t => Sys2Proof.Machine.execTimerMeasureStop t s
  | .gaugeEnable en => Sys2Proof.Machine.execGaugeEnable en s
  | .gaugePeriod => Sys2Proof.Machine.execGaugePeriod s
  | .gaugeFreqEdge => Sys2Proof.Machine.execGaugeFreqEdge s
  | .queueSnap => Sys2Proof.Machine.execQueueSnap s
  | .queueReplay seq => Sys2Proof.Machine.execQueueReplay seq s
  | .slewEnd => Sys2Proof.Machine.execSlewEnd s
  | .hiddDataRead => Sys2Proof.Machine.execHiddDataRead s
  | .ucdataAccess write => Sys2Proof.Machine.execUcdataAccess write s
  | .qualificationRestart => Sys2Proof.Machine.execQualificationRestart s
  | .limiterEngaged => Sys2Proof.Machine.execLimiterEngaged s
  | .limiterReleased => Sys2Proof.Machine.execLimiterReleased s
  | .refxEntersWindow => Sys2Proof.Machine.execRefxEntersWindow s
  | .firstHclkEdge => Sys2Proof.Machine.execFirstHclkEdge s
  | .resetCircuitCyclesDone => Sys2Proof.Machine.execResetCircuitCyclesDone s
  | .exitRampEnd => Sys2Proof.Machine.execExitRampEnd s

end Machine
end Sys2Proof
end

