-- ==== Sys2Proof/Safety.lean ====
section
/-! DEFINITION. The terms the statements use: what every run keeps, what a command leaves unchanged, and which request or
SYS.CMD command a row delivers. -/

namespace Sys2Proof
namespace Machine

/-- What every step keeps: the register files and both memories stay in canonical form, the posted-write buffer holds
at most 16 words (R65), at most eight notices wait (R68), credits never exceed 65,535 (R243), and at most 64 queue
entries are occupied (R239). -/
def State.Inv (s : State) : Prop :=
  s.regs.wf = true ∧ s.force.wf = true ∧ Memory.wf s.sh.mem = true ∧ coreWfFrom none s.core = true ∧ s.link.wbuf.length ≤ 16 ∧
    s.notices ≤ 8 ∧ s.rq.cout ≤ 65535 ∧ s.rq.used ≤ 64

/-- Every stored byte of the Shed and of core memory reads as before. -/
def State.bytesKept (s t : State) : Prop :=
  (∀ a, memGet t.sh.mem a = memGet s.sh.mem a) ∧ ∀ a, coreGet t.core a = coreGet s.core a

/-- Every register keeps its word but those at the addresses listed. -/
def State.regsKept (s t : State) (but : List Nat) : Prop := ∀ a, a ∉ but → t.reg a = s.reg a

/-- The frame a request row of Table LT-2 brings; its H0.OP says which request it is (R61). -/
def requestOf : Instr → Option Frame
  | .read f | .write f | .writea f | .grant f | .credit f | .resend f | .tsync f | .rebase f | .dbgctlStatus f | .dbgctlHalt f
  | .dbgctlRun f | .dbgctlStep f | .dbgrd f | .dbgwr f | .abort f => some f
  | _ => none

/-- The NAK reason of a frame in a state (Table LT-5), NOCOPY aside: a reserved OP fails OPCODE. -/
def State.nakFor (s : State) (f : Frame) : Option Nat :=
  match opOf f.op with
  | some op => nakReason op f (decide (s.ms.mode = Mode.service)) s.ms.halted
  | none => some 1

/-- The frame is a tagged request whose tag is outstanding (R64). -/
def State.tagTaken (s : State) (f : Frame) : Bool :=
  match opOf f.op with
  | some op => s.tagBusy op f
  | none => false

/-- A request that is heard, passes its CRC and every check, and whose tag is free (R56, R59, R61, R63, R64, R69). -/
structure State.accepts (s : State) (op : Op) (f : Frame) : Prop where
  heard : s.heard f = true
  crc : f.crcOk = true
  opcode : opOf f.op = some op
  free : s.tagTaken f = false
  checks : s.nakFor f = none

/-- The state an accepted request executes in: assertions of presence and wake are over, and its tag's retained copy is
gone (R70, R78). -/
def State.admitted (s : State) (op : Op) (f : Frame) : State :=
  if op.tagged && decide (op ≠ .resend) then s.firstRequest.dropCopy f.tag else s.firstRequest

/-- The request draws a BUSY or a NAK (R63, R64, R65, R70). -/
def State.drawsNotice (s : State) (f : Frame) : Prop :=
  s.heard f = true ∧ f.crcOk = true ∧
    (s.tagTaken f = true ∨ (s.nakFor f).isSome = true ∨
      ((s.accepts .write f ∨ s.accepts .writea f) ∧ s.wfree < f.count) ∨
      (s.accepts .resend f ∧ (s.outTags.contains f.tag = true ∨ getKey f.tag s.link.retained = none)))

/-- The answer a request leaves among the responses: code, H1, payload and ready hc (Tables LT-2, LT-3, R67). -/
def answerOf (f : Frame) (rcode : Nat) (h1 : Word) (payload : List Word) (ready : Nat) : Resp :=
  { kind := .answer, tag := f.tag, rcode := rcode, resent := false, h1 := h1, payload := payload, read := none, after := 0,
    ready := some ready, shown := false }

/-- The notice a request draws: BUSY or NAK, ready 16 hc after its last CRC bit (R67). -/
def noticeOf (f : Frame) (rcode : Nat) (h1 : Word) (ready : Nat) : Resp :=
  { kind := .notice, tag := f.tag, rcode := rcode, resent := false, h1 := h1, payload := [], read := none, after := 0,
    ready := some ready, shown := false }

/-- A host write or read of one word takes effect at once: the link decodes requests, the page is mapped, and the Shed is
ready for a word of its page (R65, R82, R327). -/
structure State.takes (s : State) (a : Nat) : Prop where
  up : s.linkUp = true
  mapped : mappedPage (pageOf a) = true
  ready : s.shedHolds a = false

/-- A write of `v` to a stored block word: its RW fields as taken (R374), its W1C fields cleared where written 1, the rest kept
(R4, R84). -/
def State.stores (s t : State) (a v : Word) : Prop :=
  (∀ r, regRow a.toNat = some r → t.reg a.toNat =
    takenWord a.toNat (s.reg a.toNat) ((v &&& w16 r.rw) ||| (s.reg a.toNat &&& ~~~ (w16 r.rw))) &&& ~~~ (v &&& w16 r.w1c)) ∧
  s.regsKept t [a.toNat]

/-- A block word whose write does more than store the taken value: the actions of the chapters, and the words held beside
the register file. -/
def actionWord (a : Nat) : Bool :=
  [0x0008, 0x0110, 0x0209, 0x0310, 0x0501, 0x040A, 0x0608, 0x0609, 0x2101, 0x2201, 0x2308, 0x2309, 0x230A, 0x230B, 0x2519,
    0x2601, 0x260A, 0x2801, 0x2901, 0x2A14, 0x2B08].contains a || (decide (0x0510 ≤ a) && decide (a < 0x0590)) ||
    (decide (0x2420 ≤ a) && decide (a < 0x2430)) || (decide (0x2810 ≤ a) && decide (a < 0x2870)) || decide (rowAddr a = 0x1009)

/-- The words the end of a BLANKED or FROZEN slot's window may change: the lanes' IFLG (R143). -/
def laneFlags : List Nat := (List.range 17).map (fun k => laneAddr k 3)

/-- The records that a slot which runs again leaves: 80 bins per sensing, all with one tag (R5, R47, R150). -/
def SlotRecs.cutAs (r : SlotRecs) (k : SlotKind) (t : Tag) (due : Nat) : Prop :=
  r.kind = k ∧ r.cut = true ∧ r.due = due ∧ ∀ e ∈ r.elecs, e.recs.length = 80 ∧ ∀ q ∈ e.recs, q.tag = t

/-- The address of a page's word by its offset. -/
def pageAddr (p : Byte) (off : Nat) : Nat := p.toNat * 256 + off

/-- The SYS.CMD code and argument of a row that is a command of SYS.CMD (Table RI-26). -/
def sysCmdOf : Instr → Option (Nat × Nat)
  | .goActive => some (0x01, 0)
  | .goWatch => some (0x02, 0)
  | .goDormant => some (0x03, 0)
  | .goService => some (0x04, 0)
  | .selfcal => some (0x05, 0)
  | .reset a => some (0x0F, a.toNat)
  | .calzero => some (0x10, 0)
  | .calpoint p => some (0x11, p.toNat)
  | .calsolve => some (0x12, 0)
  | .caltrace => some (0x13, 0)
  | .caltick => some (0x14, 0)
  | .opentest => some (0x18, 0)
  | .faillane l => some (0x19, l.toNat)
  | _ => none

end Machine
end Sys2Proof
end

