-- ==== Sys2Proof/Certificates/Slice0/Obligations.lean ====
section
/-! DEFINITION. The statements for the provers, from the spec's numbered rules. -/

open Sys2Proof Sys2Proof.Machine

/-- The scheduler (log entry 1): the front command runs with the queue's rest; on an empty queue the clock acts. -/
def Obligations.StepRunsFront : Prop :=
  (∀ (c : Instr) (rest : List Instr) (s : State), step { s with pending := c :: rest } = exec c { s with pending := rest }) ∧
  ∀ s : State, s.pending = [] → step s = .next s.clock

/-- R69: a request with a CRC error is discarded unanswered and is not counted in WACC; CRCERR sets and CRCCNT counts. -/
def Obligations.CrcErrorDiscarded : Prop :=
  ∀ (i : Instr) (f : Frame) (s : State), requestOf i = some f → s.heard f = true → f.crcOk = false →
    ∃ t, exec i s = .next t ∧ t = { s with regs := t.regs, flagged := t.flagged } ∧
      t.reg 0x0103 = s.reg 0x0103 ||| 1 ∧ (t.reg 0x0108).toNat = min 65535 ((s.reg 0x0108).toNat + 1) ∧
      s.regsKept t [0x0103, 0x0108] ∧ s.bytesKept t

/-- R63: a request with a valid CRC that fails a check of Table LT-5, a reserved OP among them, is answered with NAK and has no
effect. Model's readings: log entries 2, 56. -/
def Obligations.FailedCheckAnsweredNak : Prop :=
  ∀ (i : Instr) (f : Frame) (s : State) (r : Nat), requestOf i = some f → s.heard f = true → f.crcOk = true →
    s.tagTaken f = false → s.nakFor f = some r → s.notices < 8 →
    ∃ t, exec i s = .next t ∧ t = { s with regs := t.regs, flagged := t.flagged, link := t.link, agenda := t.agenda } ∧
      t.link = { s.firstRequest.link with
        resp := s.link.resp ++ [noticeOf f 4 (w16 (256 * r + fld f.h0 15 8)) (s.now + 15)] } ∧
      t.reg 0x010B = w16 (r + 256 * f.op + 4096 * f.tag) ∧ t.reg 0x0103 = s.reg 0x0103 ||| 4 ∧
      s.regsKept t [0x0103, 0x010B] ∧ s.bytesKept t

/-- R68: at most eight notices wait; a further one is dropped and NOTELOST sets. -/
def Obligations.NoticesLimited : Prop :=
  (∀ (i : Instr) (s t : State), s.notices ≤ 8 → exec i s = .next t → t.notices ≤ 8) ∧
  ∀ (i : Instr) (f : Frame) (s : State), requestOf i = some f → s.drawsNotice f → s.notices = 8 →
    ∃ t, exec i s = .next t ∧ t.link.resp = s.link.resp ∧ (t.reg 0x0103).getLsbD 4 = true

/-- R64: a tagged request other than RESEND whose tag is outstanding is answered with BUSY; nothing else changes. Model's
readings: log entries 2, 56. -/
def Obligations.OutstandingTagAnsweredBusy : Prop :=
  ∀ (i : Instr) (f : Frame) (s : State), requestOf i = some f → s.heard f = true → f.crcOk = true → s.tagTaken f = true →
    s.notices < 8 →
    ∃ t, exec i s = .next t ∧ t = { s with regs := t.regs, flagged := t.flagged, link := t.link, agenda := t.agenda } ∧
      t.link = { s.firstRequest.link with resp := s.link.resp ++ [noticeOf f 3 f.h0 (s.now + 15)] } ∧
      t.reg 0x0103 = s.reg 0x0103 ||| 8 ∧ s.regsKept t [0x0103] ∧ s.bytesKept t

/-- R67: an accepted READ of an empty buffer executes at once and is ready 16 + 2 × COUNT hc after its last CRC bit; behind
buffered words it waits for all of them. Model's readings: log entry 2. -/
def Obligations.ReadAnswered : Prop :=
  ∀ (f : Frame) (s : State), s.accepts .read f →
    (s.link.wbuf = [] → ∃ t ws, exec (.read f) s = .next t ∧
      ws = ((s.admitted .read f).readWords (spanAddrs f.h1 f.count f.inc)).1 ∧ ws.length = f.count ∧
      t.link.resp = s.link.resp ++ [answerOf f 1 f.h1 ws (s.now + 15 + 2 * f.count)] ∧
      s.regsKept t (spanAddrs f.h1 f.count f.inc ++ [0x2303, 0x2308, 0x2518, 0x2F08]) ∧
      t.rq = s.rq ∧ t.scan = s.scan ∧ t.ms = s.ms ∧ t.sh = s.sh ∧ s.bytesKept t) ∧
    (s.link.wbuf ≠ [] → ∃ t r, exec (.read f) s = .next t ∧ t = { s with link := t.link } ∧
      t.link = { (s.admitted .read f).link with resp := s.link.resp ++ [r] } ∧ r.tag = f.tag ∧
      r.kind = RespKind.answer ∧ r.after = s.link.wbuf.length ∧ r.ready = none ∧
      r.read = some { addr := f.h1, count := f.count, inc := f.inc })

/-- R65, R66, R70: a WRITE or WRITEA enters the 16-word buffer whole or is answered with BUSY, which leaves retained copies alone;
the first word of an empty buffer is applied 4 hc after the last CRC bit, which fell on hc now − 1; WACC counts accepted WRITEs,
and a WRITEA's ACK waits for its last word. Model's readings: log entry 2. -/
def Obligations.WriteBuffered : Prop :=
  ∀ (op : Op) (f : Frame) (s : State) (i : Instr), (op = .write ∧ i = .write f ∨ op = .writea ∧ i = .writea f) →
    s.accepts op f → f.payload.length = f.count → s.link.wbuf.length ≤ 16 →
    (f.count ≤ 16 - s.link.wbuf.length → ∃ t ps, exec i s = .next t ∧
      t = { s with link := t.link, agenda := t.agenda } ∧ t.link.wbuf = s.link.wbuf ++ ps ∧
      ps.map (fun p => (p.addr, p.value)) =
        (List.range f.count).map (fun k => (w16 (if f.inc then f.h1.toNat + k else f.h1.toNat), f.payload.getD k 0)) ∧
      (s.link.wbuf = [] → t.link.applyAt = s.now + 3 ∧ (s.now + 3, Instr.postedWordApply) ∈ t.agenda) ∧
      (s.link.wbuf ≠ [] → t.link.applyAt = s.link.applyAt ∧ t.agenda = s.agenda) ∧
      (op = .write → t.link.wacc = (s.link.wacc + 1) % 256 ∧ t.link.resp = s.link.resp) ∧
      (op = .writea → t.link.wacc = s.link.wacc ∧ ∃ r, t.link.resp = s.link.resp ++ [r] ∧ r.tag = f.tag ∧ r.kind = .answer ∧
        r.rcode = 2 ∧ r.h1 = 3 ∧ r.payload = [] ∧ r.resent = false ∧ r.ready = none ∧ r.read = none ∧ r.after = t.link.wbuf.length)) ∧
    (16 - s.link.wbuf.length < f.count → ∃ t, exec i s = .next t ∧ t.link.wbuf = s.link.wbuf ∧ t.link.wacc = s.link.wacc ∧
      t.link.retained = s.link.retained ∧ t = { s with regs := t.regs, flagged := t.flagged, link := t.link, agenda := t.agenda } ∧ s.regsKept t [0x0103] ∧
      (s.notices < 8 → t.link.resp = s.link.resp ++ [noticeOf f 3 f.h0 (s.now + 15)] ∧ t.reg 0x0103 = s.reg 0x0103 ||| 8))

/-- R36, R56, R243: a valid GRANT, whose last CRC bit fell at T = now − 1, releases ATTN and hands the lane over from T + 9 to T +
8 + 64W; DTERM is in force from this turnaround on. CREDIT adds H1 to COUT up to 65,535; the excess is ignored and sets CREDOVF. Model's readings: log entry 2. -/
def Obligations.GrantAndCredit : Prop :=
  (∀ (f : Frame) (s : State), s.accepts .grant f → 1 ≤ s.now →
    ∃ t u, exec (.grant f) s = .next t ∧ t = { s with link := t.link } ∧ t.link.turn = some u ∧
      u.next = (s.now - 1) + 9 ∧ u.limit = (s.now - 1) + 8 + 64 * f.h1.toNat ∧ t.link.attn = false ∧
      t.link.dterm = (s.reg 0x0121).getLsbD 2 ∧ t.link.resp = s.link.resp ∧ t.link.retained = s.link.retained ∧ t.link.wbuf = s.link.wbuf ∧ s.bytesKept t) ∧
  (∀ (f : Frame) (s : State), s.accepts .credit f → s.rq.cout ≤ 65535 →
    ∃ t, exec (.credit f) s = .next t ∧ t = { s with regs := t.regs, flagged := t.flagged, link := t.link, rq := t.rq } ∧
      t.rq = { s.rq with cout := t.rq.cout, cgrant := t.rq.cgrant } ∧ t.link = s.firstRequest.link ∧
      t.rq.cout = min 65535 (s.rq.cout + f.h1.toNat) ∧
      t.rq.cgrant = (s.rq.cgrant + min f.h1.toNat (65535 - s.rq.cout)) % 2 ^ 32 ∧
      t.reg 0x2603 = (if 65535 < s.rq.cout + f.h1.toNat then s.reg 0x2603 ||| 4 else s.reg 0x2603) ∧
      s.regsKept t [0x2603] ∧ s.bytesKept t)

/-- R70: RESEND sends the retained copy with RESENT = 1, ready 16 hc after the request; with no copy, or for a tag still
outstanding, it draws NAK NOCOPY (R63). Model's readings: log entry 2. -/
def Obligations.ResendAnswers : Prop :=
  ∀ (f : Frame) (s : State), s.accepts .resend f →
    (∀ d, s.outTags.contains f.tag = false → getKey f.tag s.link.retained = some d →
      ∃ t r, exec (.resend f) s = .next t ∧ t = { s with link := t.link, agenda := t.agenda } ∧
        t.link = { s.firstRequest.link with resp := s.link.resp ++ [r] } ∧ r.resent = true ∧ r.tag = f.tag ∧ r.h1 = d.h1 ∧
        r.payload = d.payload ∧ r.rcode = fld d.h0 15 12 ∧ r.ready = some (s.now + 15) ∧ s.bytesKept t) ∧
    ((s.outTags.contains f.tag = true ∨ getKey f.tag s.link.retained = none) → s.notices < 8 →
      ∃ t, exec (.resend f) s = .next t ∧
        t.link = { s.firstRequest.link with resp := s.link.resp ++ [noticeOf f 4 (w16 (256 * 5 + fld f.h0 15 8)) (s.now + 15)] })

/-- R75, R252, R253: TSYNC answers with the TSC of its reference instant, then steps the TSC forward to H or starts a slew by H
− T; `countHc` gives the state of that instant. REBASE advances the epoch, sets the TSC to H, ends a slew, empties the
counters and SEQNEXT, and queues the EPOCH report 64 hc later. Model's readings: log entry 2. -/
def Obligations.TimeRequests : Prop :=
  (∀ (f : Frame) (s : State), s.accepts .tsync f →
    ∃ t, exec (.tsync f) s = .next t ∧
      t.link.resp = s.link.resp ++ [answerOf f 2 7 (s.admitted .tsync f).countHc.tscWords (s.now + 15)] ∧
      (let u := (s.admitted .tsync f).countHc
       let o := syncOffset (ofWords f.payload) u.tb.tsc
       (0 < o → t.tb.tsc = ofWords f.payload % 2 ^ 48 ∧ t.tb.slewRem = 0 ∧ (t.reg 0x0303).getLsbD 1 = true) ∧
       (o = 0 → t.tb.tsc = u.tb.tsc ∧ t.tb.slewRem = 0) ∧
       (o < 0 → t.tb.tsc = u.tb.tsc ∧ (t.tb.slewRem : Int) = -o ∧ (t.reg 0x0303).getLsbD 0 = true) ∧
       t.rq = u.rq ∧ t.scan = u.scan ∧ t.ms = u.ms ∧ u.bytesKept t)) ∧
  (∀ (f : Frame) (s : State), s.accepts .rebase f →
    ∃ t, exec (.rebase f) s = .next t ∧
      (t.reg 0x000A).toNat = (s.reg 0x000A).toNat % 65535 + 1 ∧ t.tb.tsc = ofWords f.payload % 2 ^ 48 ∧
      t.tb.slewRem = 0 ∧ t.tb.anchors.length = 1 ∧ t.rq.seqNext = 0 ∧ t.rq.downCnt = 0 ∧ t.rq.upCnt = 0 ∧ t.rq.rsent = 0 ∧
      t.rq.fscan = 0 ∧ t.rq.fcons = 0 ∧ t.rq.frep = 0 ∧ t.rq.fdisc = 0 ∧ t.rq.cgrant = t.rq.cout ∧ t.rq.cout = s.rq.cout ∧
      t.sv.rcnt = 0 ∧ t.reg 0x0508 = 0 ∧ t.rq.epochDue = true ∧ (s.now + 64, Instr.epochReport) ∈ t.agenda ∧
      t.link.resp = s.link.resp ++
        [answerOf f 2 8 ((s.admitted .rebase f).countHc.tscWords ++ [t.reg 0x000A]) (s.now + 15)] ∧ s.bytesKept t)

/-- R67, R76: the DBGCTL actions and their ACK with HALTED, ready 64 hc after the request. DBGRD returns core words, low half
first, and DBGWR stores them, each ready 64 + 8 hc per core word after the request. That an action code of 4 and above, which
R76 does not define, is answered as STATUS is the model's choice (log entry 33). Model's readings: log entries 2, 50. -/
def Obligations.DebugRequests : Prop :=
  (∀ (f : Frame) (s : State) (i : Instr) (halted : Bool), s.accepts .dbgctl f →
    (i = .dbgctlStatus f ∧ f.h1 ≠ 1 ∧ f.h1 ≠ 2 ∧ f.h1 ≠ 3 ∧ halted = s.ms.halted ∨ i = .dbgctlHalt f ∧ f.h1 = 1 ∧ halted = true ∨
      i = .dbgctlRun f ∧ f.h1 = 2 ∧ halted = false ∨ i = .dbgctlStep f ∧ f.h1 = 3 ∧ halted = true) →
    ∃ t, exec i s = .next t ∧ t = { s with link := t.link, agenda := t.agenda, ms := t.ms } ∧ t.ms.halted = halted ∧
      t.ms = { s.ms with halted := t.ms.halted, debugUps := t.ms.debugUps, stepAt := t.ms.stepAt } ∧
      (i = .dbgctlStatus f → t.ms = s.ms) ∧
      t.link = { (s.admitted .dbgctl f).link with
        resp := s.link.resp ++ [answerOf f 2 9 [w16 (b2n halted)] (s.now + 63)] } ∧ s.bytesKept t) ∧
  ((∀ (f : Frame) (s : State), s.accepts .dbgrd f →
    ∃ t, exec (.dbgrd f) s = .next t ∧ t = { s with link := t.link, agenda := t.agenda } ∧
      t.link = { (s.admitted .dbgrd f).link with resp := s.link.resp ++
        [answerOf f 1 0 ((List.range (2 * f.h1.toNat)).map (s.coreHalf f.coreAddr)) (s.now + 63 + 8 * f.h1.toNat)] } ∧
      s.bytesKept t) ∧
  (∀ (f : Frame) (s : State), s.accepts .dbgwr f → f.payload.length = f.count →
    ∃ t, exec (.dbgwr f) s = .next t ∧ t = { s with link := t.link, agenda := t.agenda, core := t.core } ∧
      (∀ k, k < f.count - 2 → t.coreHalf f.coreAddr k = f.payload.getD (k + 2) 0) ∧
      (∀ a, (∀ k, k < 2 * (f.count - 2) → a ≠ (f.coreAddr + k) % 2 ^ 32) → coreGet t.core a = coreGet s.core a) ∧
      t.link = { (s.admitted .dbgwr f).link with
        resp := s.link.resp ++ [answerOf f 2 11 [] (s.now + 63 + 8 * ((f.count - 2) / 2))] }))

/-- R72, R98: ABORT discards tags, notices, copies and unapplied posted words, which WDROP counts, and sets ABORTED; a word
applied on that hc completes (`u` is the state after it), with the value it commits; reports, credits, the scan and the Shed
are untouched. Model's readings: log entry 2. -/
def Obligations.AbortDiscards : Prop :=
  ∀ (f : Frame) (s : State), s.accepts .abort f →
    ∃ t u, exec (.abort f) s = .next t ∧
      (∀ p rest, s.link.wbuf = p :: rest → s.link.applyAt = s.now → s.shedHolds p.addr.toNat = false →
        u = State.applyPosted { s.firstRequest with link := { s.firstRequest.link with wbuf := rest } } p) ∧
      ((∀ p rest, s.link.wbuf = p :: rest → s.link.applyAt ≠ s.now ∨ s.shedHolds p.addr.toNat = true) → u = s.firstRequest) ∧
      t = { u with regs := t.regs, flagged := t.flagged, link := t.link, agenda := t.agenda } ∧
      t.link = { u.link with resp := [], retained := [], wbuf := [], shadow := [], stage := [], unlocked := [] } ∧ t.outTags = [] ∧
      (t.reg 0x010A).toNat = min 65535 ((u.reg 0x010A).toNat + u.link.wbuf.length) ∧
      t.reg 0x0103 = u.reg 0x0103 ||| 64 ∧ u.regsKept t [0x0103, 0x010A] ∧ s.bytesKept t

/-- R59, R77: a SYNC mismatch sets SYNCERR; a response whose ready hc has come becomes a cause; after a turn ATTN is pulled
again exactly while a cause remains, in a host-clocked mode. Model's readings: log entries 15, 48. -/
def Obligations.LinkEvents : Prop :=
  (∀ (w : Word) (s : State), s.linkUp = true → s.link.turn = none → w ≠ 0x2D4B →
    ∃ t, exec (.syncerr w) s = .next t ∧ t = { s with regs := t.regs, flagged := t.flagged } ∧ t.reg 0x0103 = s.reg 0x0103 ||| 2 ∧
      s.regsKept t [0x0103] ∧ s.bytesKept t) ∧
  (∀ s : State, ∃ t, exec .responseReady s = .next t ∧ t = { s with link := { s.link with resp := t.link.resp } } ∧
    t.link.resp.map (fun (r : Resp) => { r with shown := false }) = s.link.resp.map (fun (r : Resp) => { r with shown := false }) ∧
    (∀ (k : Nat) (r : Resp), s.link.resp[k]? = some r → ∃ r' : Resp, t.link.resp[k]? = some r' ∧
      r'.shown = (r.shown || r.ready.any (fun h => decide (h ≤ s.now)))) ∧ s.bytesKept t) ∧
  (∀ s : State, s.link.turn = none → ∃ t, exec .attnReassert s = .next t ∧ t.link = { s.link with attn := t.link.attn } ∧
    (t.link.attn = true ↔ ((s.reg 0x0101).getLsbD 0 = true ∧ s.linkUp = true ∧ s.hostClocked = true ∧ s.link.attnFrom ≤ s.now ∧
      s.link.noCause = false ∧ s.attnCause = true)) ∧
    t = { s with link := t.link, tm := t.tm } ∧ s.bytesKept t)

/-- R66: the buffer applies its head word, and the next one 4 hc later; a word for page SHED waits while the Shed is not ready;
a WRITEA's ACK is ready 16 hc after its last word. -/
def Obligations.PostedWordApplied : Prop :=
  ∀ (s : State) (p : Posted) (rest : List Posted), s.link.wbuf = p :: rest → s.link.applyAt ≤ s.now →
    (s.shedHolds p.addr.toNat = false → ∃ t, exec .postedWordApply s = .next t ∧ t.link.wbuf = rest ∧
      (rest ≠ [] → (s.now + 4, Instr.postedWordApply) ∈ t.agenda) ∧ t.link.resp.length = s.link.resp.length ∧
      ((∀ r ∈ s.link.resp, r.after = 0) → rest = [] →
        t = State.applyPosted { s with link := { s.link with wbuf := [], applyAt := s.now + 4 } } p) ∧
      (∀ r, s.link.resp = [r] → r.after = 1 → r.read = none →
        t.link.resp = [{ r with after := 0, ready := some (s.now + 16) }]) ∧ s.bytesKept t) ∧
    (s.shedHolds p.addr.toNat = true → exec .postedWordApply s = .next { s with
      link := { s.link with applyAt := s.now + 1 }, agenda := s.agenda ++ [(s.now + 1, Instr.postedWordApply)] })

/-- R88: ISET sets the matching IFLG bits at the hc it is applied and does nothing else; ISET reads 0. -/
def Obligations.IsetForcesFlags : Prop :=
  ∀ (p : Byte) (bits : Word) (s : State), s.takes (pageAddr p 5) →
    (s.readWord (pageAddr p 5)).1 = 0 ∧
    ∃ t, exec (.iset p bits) s = .next t ∧ t = { s with regs := t.regs, flagged := t.flagged } ∧
      t.reg (pageAddr p 3) = s.reg (pageAddr p 3) ||| (bits &&& w16 (flagMask p.toNat)) ∧
      s.regsKept t [pageAddr p 3] ∧ s.bytesKept t

/-- R91, R92: the page's own key unlocks it and no other page; any other value locks it, and sets BADKEY unless it is 0; a LOCK
write on a page without protected words has no effect. -/
def Obligations.LockUnlocks : Prop :=
  ∀ (p : Byte) (v : Word) (s : State), s.takes (pageAddr p 6) →
    ∃ t, exec (.lock p v) s = .next t ∧
      (keyedPage p.toNat = true →
        t = { s with regs := t.regs, flagged := t.flagged, link := { s.link with unlocked := t.link.unlocked } } ∧
        (t.unlocked p.toNat = true ↔ v = w16 (0x6B00 + p.toNat)) ∧ (∀ q, q ≠ p.toNat → t.unlocked q = s.unlocked q) ∧
        t.reg (pageAddr p 6) = (if v = w16 (0x6B00 + p.toNat) ∨ v = 0 then s.reg (pageAddr p 6) else s.reg (pageAddr p 6) ||| 4) ∧
        s.regsKept t [pageAddr p 6]) ∧
      (keyedPage p.toNat = false → t = s) ∧ s.bytesKept t

/-- R4, R82, R84, R87, R89, R92, R95: what a register write does. An unmapped page, PAGE_ID, the reserved common word and an
undefined block word ignore it; STAT clears LSTALE where that bit is written 1; IFLG clears the bits written 1, but those that
have been set on this hc; IEN takes the defined bits; a protected word of a locked page only sets DENIED; any other stored word
takes its RW fields, within the limits of R374, clears its W1C fields and keeps its RO fields. Then the words whose write does
more: the reference source, ESTTH, GUARD, BLKMAX, the pending tone table, NTAP, the listen entries, TSEL and TSTAT, DCTRL and
ERNG; and those that a command row writes too. -/
def Obligations.RegisterWriteByAccessCode : Prop :=
  (∀ (a v : Word) (s : State), s.linkUp = true → s.shedHolds a.toNat = false → wideAt a.toNat = none →
    ∃ t, exec (.registerWrite a v) s = .next t ∧
      (mappedPage (pageOf a.toNat) = false ∨ offOf a.toNat = 0 ∨ offOf a.toNat = 7 → t = s) ∧
      (mappedPage (pageOf a.toNat) = true →
        (offOf a.toNat = 2 → t = { s with regs := t.regs, flagged := t.flagged } ∧ s.regsKept t [a.toNat] ∧
          t.reg a.toNat = if v.getLsbD 15 then s.reg a.toNat &&& 0x7FFF else s.reg a.toNat) ∧
        (offOf a.toNat = 3 → t = { s with regs := t.regs, flagged := t.flagged } ∧ t.reg a.toNat = s.reg a.toNat &&& ~~~ (v &&& ~~~ (s.hcFlagBits (pageOf a.toNat))) ∧
          s.regsKept t [a.toNat]) ∧
        (offOf a.toNat = 4 → t = { s with regs := t.regs, flagged := t.flagged, link := { s.link with irqWait := t.link.irqWait } } ∧
          t.reg a.toNat = v &&& w16 (flagMask (pageOf a.toNat)) ∧ s.regsKept t [a.toNat]) ∧
        (offOf a.toNat = 1 ∨ 8 ≤ offOf a.toNat →
          (protectedWord a.toNat = true → s.unlocked (pageOf a.toNat) = false →
            t = { s with regs := t.regs, flagged := t.flagged } ∧ t.reg (pageOf a.toNat * 256 + 6) = s.reg (pageOf a.toNat * 256 + 6) ||| 2 ∧
            s.regsKept t [pageOf a.toNat * 256 + 6]) ∧
          ((protectedWord a.toNat = true → s.unlocked (pageOf a.toNat) = true) → actionWord a.toNat = false →
            (∀ r, regRow a.toNat = some r → t = { s with regs := t.regs, flagged := t.flagged } ∧
              t.reg a.toNat = takenWord a.toNat (s.reg a.toNat) ((v &&& w16 r.rw) ||| (s.reg a.toNat &&& ~~~ (w16 r.rw))) &&& ~~~ (v &&& w16 r.w1c) ∧
              s.regsKept t [a.toNat]) ∧
            (regRow a.toNat = none → t = s)))) ∧ s.bytesKept t) ∧
  (∀ (a v : Word) (s : State), s.takes a.toNat → (protectedWord a.toNat = true → s.unlocked (pageOf a.toNat) = true) →
    ∃ t, exec (.registerWrite a v) s = .next t ∧
      (a = 0x0209 → s.stores t a v ∧
        t = { s with regs := t.regs, ms := { s.ms with refDue := s.ms.refDue || decide (v.toNat % 4 ≠ 3) } }) ∧
      (a = 0x0310 → t = { s with regs := t.regs, flagged := t.flagged, tb := { s.tb with est := t.tb.est } } ∧ t.reg 0x0310 = v ∧
        (t.tb.est = true ↔ v.toNat ≤ s.wide 0x030E 2) ∧ s.regsKept t [0x0310, 0x0303] ∧
        t.reg 0x0303 = if t.tb.est && !s.tb.est then s.reg 0x0303 ||| 4 else s.reg 0x0303) ∧
      (a = 0x040A → s.stores t a v ∧ t = { s with regs := t.regs, tone := { s.tone with gdirty := true } }) ∧
      (a = 0x0609 → s.stores t a v ∧ t = { s with regs := t.regs, agenda := t.agenda } ∧ t.agenda = s.agenda ++
        (if s.scan.blkEff = true ∧ s.scan.stuckIgn = false ∧ t.blankLimit ≤ s.scan.blkTime then [(s.now, Instr.blankStuck)] else [])) ∧
      (0x0510 ≤ a.toNat → a.toNat < 0x0590 → t = { s with tone := { s.tone with pend := setToneWord s.tone.pend a.toNat v } }) ∧
      (a = 0x2308 → s.stores t a v ∧ t = { s with regs := t.regs, sv := { s.sv with half := none } }) ∧
      (∀ b, b < 2 → a.toNat = 0x230A + b →
        (s.bankProtected b = true → t = { s with regs := t.regs, flagged := t.flagged } ∧ t.reg 0x2303 = s.reg 0x2303 ||| 1 ∧ s.regsKept t [0x2303]) ∧
        (s.bankProtected b = false → s.stores t a v ∧ t = { s with regs := t.regs })) ∧
      (0x2420 ≤ a.toNat → a.toNat < 0x2430 →
        t = { s with cl := { s.cl with listenDue := s.cl.listenDue ++ [(s.now + 256, a.toNat - 0x2420, v &&& 0x80FF)] } }) ∧
      (∀ n, n < 6 → a.toNat = 0x2811 + 16 * n →
        t = { s with tm := t.tm } ∧ t.timer n = { s.timer n with sel := v &&& 0xFF } ∧ ∀ m, m ≠ n → t.timer m = s.timer m) ∧
      (∀ n, n < 6 → a.toNat = 0x2812 + 16 * n →
        t = { s with tm := t.tm } ∧ t.timer n = { s.timer n with ovr := (s.timer n).ovr && !v.getLsbD 2 } ∧ ∀ m, m ≠ n → t.timer m = s.timer m) ∧
      (a = 0x2A14 → (s.ms.mode = .service → s.stores t a v ∧ t = { s with regs := t.regs }) ∧
        (s.ms.mode ≠ .service → t = { s with regs := t.regs, flagged := t.flagged } ∧ t.reg 0x2A03 = s.reg 0x2A03 ||| 0x20 ∧ s.regsKept t [0x2A03])) ∧
      (rowAddr a.toNat = 0x1009 → ((s.reg (a.toNat - 1)).getLsbD 2 = true → t = s) ∧
        ((s.reg (a.toNat - 1)).getLsbD 2 = false → s.stores t a v ∧ t = { s with regs := t.regs }))) ∧
  ∀ (v : Word) (s : State), exec (.registerWrite 0x0608 v) s = exec (.laneBlankWrite v) s ∧
    exec (.registerWrite 0x0110 v) s = exec (.hclkfWrite v) s ∧ exec (.registerWrite 0x260A v) s = exec (.queueReplay v) s ∧
    exec (.registerWrite 0x2801 v) s = exec (.timerSync v) s ∧ exec (.registerWrite 0x2309 v) s = exec (.svcoefDataAccess (some v)) s ∧
    exec (.registerWrite 0x2519 v) s = exec (.ucdataAccess (some v)) s

/-- R97, R99: the lowest word commits with the staged higher word, or the live one, and empties the page's stage: RPER, a
timer's COUNT and its PERIOD. A higher word is only staged. That any other address of WIDE_VALUE_COMMIT does nothing is the
model's choice (log entry 15). Model's readings: log entry 10. -/
def Obligations.WideValueCommits : Prop :=
  (∀ (a v : Word) (s : State), wideLow a.toNat = false → exec (.wideValueCommit a v) s = .next s) ∧
  (∀ (v : Word) (s : State), s.takes 0x220A → ∃ t, exec (.wideValueCommit 0x220A v) s = .next t ∧
    t.wide 0x220A 2 = max 40960 ((v.toNat + 65536 * ((s.staged 0x220A 1).getD (s.liveWord 0x220B)).toNat) % 2 ^ 24) ∧
    t.staged 0x220A 1 = none ∧ t = { s with regs := t.regs, flagged := t.flagged, link := { s.link with stage := t.link.stage } } ∧
    s.regsKept t [0x220A, 0x220B, 0x2202] ∧ s.bytesKept t) ∧
  (∀ (n : Nat) (v : Word) (s : State), n < 6 → s.takes (0x2814 + 16 * n) →
    (∃ t, exec (.wideValueCommit (w16 (0x2814 + 16 * n)) v) s = .next t ∧
      (t.timer n).count = v.toNat + 65536 * ((s.staged (0x2814 + 16 * n) 1).getD (s.liveWord (0x2815 + 16 * n))).toNat ∧
      (∀ m, m ≠ n → t.timer m = s.timer m) ∧ (t.timer n).perBuf = (s.timer n).perBuf ∧ (t.timer n).ctrl = (s.timer n).ctrl ∧
      t = { s with tm := t.tm, link := { s.link with stage := t.link.stage } } ∧ t.staged (0x2814 + 16 * n) 1 = none) ∧
    ∃ t, exec (.wideValueCommit (w16 (0x2816 + 16 * n)) v) s = .next t ∧
      (t.timer n).perBuf = max 1 (v.toNat + 65536 * ((s.staged (0x2816 + 16 * n) 1).getD (s.liveWord (0x2817 + 16 * n))).toNat) ∧
      (∀ m, m ≠ n → t.timer m = s.timer m) ∧ (t.timer n).count = (s.timer n).count ∧
      t = { s with regs := t.regs, flagged := t.flagged, tm := t.tm, link := { s.link with stage := t.link.stage } } ∧ s.regsKept t [0x2802]) ∧
  ∀ (v : Word) (s : State), s.takes 0x220B → ∃ t, exec (.registerWrite 0x220B v) s = .next t ∧
    t = { s with link := { s.link with stage := t.link.stage } } ∧ t.staged 0x220A 1 = some v

/-- R94, R273: a read of a wide value's lowest word returns it live and copies the higher words into the page's shadow (a CAP
read clears CAPN); a read of a higher word returns the shadow that belongs to the value, else the live word, and the highest
word releases that shadow. -/
def Obligations.WideValueReads : Prop :=
  (∀ (a : Word) (base n : Nat) (res : Bool) (s : State), s.takes a.toNat → wideAt a.toNat = some (base, n, res) → a.toNat = base →
    ∃ t, exec (.wideValueLatchRead a) s = .next t ∧ t.link.rdata = s.liveWord base ∧
      t.link.shadow.find? (fun x => x.page == pageOf base) = some
        { page := pageOf base, base := base, words := (List.range (n - 1)).map (fun i => s.liveWord (base + 1 + i)) } ∧
      (∀ p, p ≠ pageOf base → t.link.shadow.find? (fun x => x.page == p) = s.link.shadow.find? (fun x => x.page == p)) ∧
      t = { s with tm := t.tm, link := { s.link with shadow := t.link.shadow, rdata := t.link.rdata } } ∧
      (∀ k, k < 6 → base = 0x2818 + 16 * k → (t.timer k).capn = false) ∧
      ((∀ k, k < 6 → base ≠ 0x2818 + 16 * k) → t.tm = s.tm)) ∧
  ∀ (a : Word) (base n : Nat) (res : Bool) (s : State), s.takes a.toNat → wideAt a.toNat = some (base, n, res) → a.toNat ≠ base →
    ∃ t, exec (.wideValueHighRead a) s = .next t ∧ t = { s with link := { s.link with shadow := t.link.shadow, rdata := t.link.rdata } } ∧
      (∀ sh, s.link.shadow.find? (fun x => x.page == pageOf base && x.base == base) = some sh →
        t.link.rdata = sh.words.getD (a.toNat - base - 1) 0 ∧
        (a.toNat + 1 = base + n → t.link.shadow.find? (fun x => x.page == pageOf base) = none) ∧
        (a.toNat + 1 ≠ base + n → t.link.shadow = s.link.shadow)) ∧
      (s.link.shadow.find? (fun x => x.page == pageOf base && x.base == base) = none →
        t.link.rdata = s.liveWord a.toNat ∧ t.link.shadow = s.link.shadow)

/-- R4, R92: a read returns the word; a read-to-clear word and LOCK's two flags then are 0, and any other stored word stays. -/
def Obligations.ReadToClear : Prop :=
  ∀ (a : Word) (s : State), s.takes a.toNat → wideAt a.toNat = none → a ≠ 0x2309 → a ≠ 0x2519 → a ≠ 0x2F0A →
    ∃ t, exec (.rcRead a) s = .next t ∧ t.link.rdata = s.liveWord a.toNat ∧
      t = { s with regs := t.regs, flagged := t.flagged, link := { s.link with rdata := t.link.rdata } } ∧ s.regsKept t [a.toNat] ∧
      (8 ≤ offOf a.toNat → t.reg a.toNat = if (regRow a.toNat).any (fun r => r.rc) then 0 else s.reg a.toNat) ∧
      (offOf a.toNat = 6 → keyedPage (pageOf a.toNat) = true → t.reg a.toNat = 0) ∧ s.bytesKept t

/-- R199: SVCOEF.DATA moves a coefficient in two accesses, low half first; the high half writes it or ends the read and advances
INDEX; a pair that mixes a read and a write is discarded and sets SEQERR; a protected bank refuses with INUSE (R183).
Model's readings: log entry 49. -/
def Obligations.CoefficientWindow : Prop :=
  ∀ (v : Word) (s : State), s.takes 0x2309 →
    (s.sv.half = none →
      exec (.svcoefDataAccess (some v)) s = .next { s with sv := { s.sv with half := some (true, v) } } ∧
      exec (.svcoefDataAccess none) s = .next
        { s with sv := { s.sv with half := some (false, 0) }, link := { s.link with rdata := coefLow s.coefAt } }) ∧
    (∀ lo, s.sv.half = some (true, lo) → ∃ t, exec (.svcoefDataAccess (some v)) s = .next t ∧ t.sv.half = none ∧
      t.reg 0x2308 = coefNext (s.reg 0x2308) ∧ t = { s with regs := t.regs, flagged := t.flagged, sv := { s.sv with half := none, coef := t.sv.coef } } ∧
      s.regsKept t [0x2303, 0x2308] ∧
      (s.bankProtected (fld (s.reg 0x2308) 8 8) = true → fld (s.reg 0x2308) 7 0 < 192 →
        t.sv.coef = s.sv.coef ∧ t.reg 0x2303 = s.reg 0x2303 ||| 1) ∧
      (s.bankProtected (fld (s.reg 0x2308) 8 8) = false → fld (s.reg 0x2308) 7 0 < 192 → t.reg 0x2303 = s.reg 0x2303 ∧
        t.sv.coef = s.sv.coef.set (fld (s.reg 0x2308) 8 8) ((s.sv.coef.getD (fld (s.reg 0x2308) 8 8) []).set
          (fld (s.reg 0x2308) 7 0) (signed 18 (lo.toNat + 65536 * (v.toNat % 4))))) ∧
      (192 ≤ fld (s.reg 0x2308) 7 0 → t.sv.coef = s.sv.coef ∧ t.reg 0x2303 = s.reg 0x2303)) ∧
    (∀ lo, s.sv.half = some (false, lo) →
      (∃ t, exec (.svcoefDataAccess none) s = .next t ∧ t.link.rdata = coefHigh s.coefAt ∧
        t = { s with regs := t.regs, flagged := t.flagged, sv := { s.sv with half := none }, link := { s.link with rdata := t.link.rdata } } ∧
        t.reg 0x2308 = coefNext (s.reg 0x2308) ∧ s.regsKept t [0x2308]) ∧
      ∃ t, exec (.svcoefDataAccess (some v)) s = .next t ∧ t = { s with regs := t.regs, flagged := t.flagged, sv := { s.sv with half := none } } ∧
        t.reg 0x2303 = s.reg 0x2303 ||| 2 ∧ s.regsKept t [0x2303]) ∧
    (∀ lo, s.sv.half = some (true, lo) → ∃ t, exec (.svcoefDataAccess none) s = .next t ∧ t.link.rdata = coefHigh s.coefAt ∧
      t = { s with regs := t.regs, flagged := t.flagged, sv := { s.sv with half := none }, link := { s.link with rdata := t.link.rdata } } ∧
      t.reg 0x2303 = s.reg 0x2303 ||| 2 ∧ s.regsKept t [0x2303])

/-- R223, R234, R235: HIDD.DATA returns two bytes of the descriptor and advances PTR by 2; UCDATA reads or writes the user
table's word at UCPTR and advances it; a write to it on a locked page only sets DENIED. Model's readings: log entry 49. -/
def Obligations.TableWindows : Prop :=
  (∀ s : State, s.takes 0x2F0A → ∃ t, exec .hiddDataRead s = .next t ∧ t.link.rdata = s.hidData (s.reg 0x2F08).toNat ∧
    t.reg 0x2F08 = (s.reg 0x2F08 + 2) &&& 0xFE ∧ t = { s with regs := t.regs, flagged := t.flagged, link := { s.link with rdata := t.link.rdata } } ∧
    s.regsKept t [0x2F08]) ∧
  ∀ (v : Word) (s : State), s.takes 0x2519 →
    (∃ t, exec (.ucdataAccess none) s = .next t ∧ t.link.rdata = s.tr.ucurve.getD (fld (s.reg 0x2518) 6 0) 0 ∧
      t.reg 0x2518 = curveNext (s.reg 0x2518) ∧ t = { s with regs := t.regs, flagged := t.flagged, link := { s.link with rdata := t.link.rdata } } ∧
      s.regsKept t [0x2518]) ∧
    (s.unlocked 0x25 = true → ∃ t, exec (.ucdataAccess (some v)) s = .next t ∧
      t.tr = { s.tr with ucurve := s.tr.ucurve.set (fld (s.reg 0x2518) 6 0) v } ∧ t.reg 0x2518 = curveNext (s.reg 0x2518) ∧
      t = { s with regs := t.regs, flagged := t.flagged, tr := t.tr } ∧ s.regsKept t [0x2518]) ∧
    (s.unlocked 0x25 = false → ∃ t, exec (.ucdataAccess (some v)) s = .next t ∧ t = { s with regs := t.regs, flagged := t.flagged } ∧
      t.reg 0x2506 = s.reg 0x2506 ||| 2 ∧ s.regsKept t [0x2506])

/-- R132, R165, R194: COMMIT waits with the hc of the first write, SNAP copies the active table to the pending one, IGO triggers
an injected sequence 16 hc later, RSYNC is due at the next frame boundary. Model's readings: log entry 16. -/
def Obligations.PlanAndTriggerWrites : Prop :=
  (∀ s : State, s.takes 0x0501 → (s.reg 0x0501).getLsbD 1 = false → ∃ t, exec .toneCommit s = .next t ∧
    t.tone = { s.tone with cpend := some (s.tone.cpend.getD s.now) } ∧ t = { s with regs := t.regs, flagged := t.flagged, tone := t.tone } ∧
    t.reg 0x0501 = s.reg 0x0501 &&& 4 ∧ s.regsKept t [0x0501]) ∧
  (∀ s : State, s.takes 0x0501 → (s.reg 0x0501).getLsbD 0 = false → ∃ t, exec .toneSnap s = .next t ∧
    t.tone = { s.tone with pend := s.tone.active } ∧ t = { s with regs := t.regs, flagged := t.flagged, tone := t.tone } ∧
    t.reg 0x0501 = s.reg 0x0501 &&& 4 ∧ s.regsKept t [0x0501]) ∧
  (∀ s : State, s.takes 0x2101 → ∃ t, exec .igo s = .next t ∧ t = { s with regs := t.regs, flagged := t.flagged, agenda := t.agenda } ∧
    t.agenda = s.agenda ++ [(s.now + 16, Instr.injectedSequenceTrigger true false)] ∧ s.regsKept t [0x2101]) ∧
  ∀ s : State, s.takes 0x2201 → ∃ t, exec .sieveRsync s = .next t ∧ t.sv = { s.sv with rsync := true } ∧
    t = { s with regs := t.regs, flagged := t.flagged, sv := t.sv } ∧ s.regsKept t [0x2201]

/-- R242, R245: SNAP copies COUT, SEQNEXT, the counters of Table RQ-3 but DOWNCNT and UPCNT, and EPOCH into the snapshot, after
the frame entries and sends that are still to come on its hc. A
REPLAY write starts at a retained copy of the current epoch, replacing a pending replay, or sets REPLAYLOST. Model's
readings: log entry 16. -/
def Obligations.SnapshotAndReplay : Prop :=
  (∀ s : State, s.takes 0x2601 → s.snapWaits = true → exec .queueSnap s = .next { s with rq := { s.rq with snapDue := true } }) ∧
  (∀ s : State, s.takes 0x2601 → s.snapWaits = false → ∃ t, exec .queueSnap s = .next t ∧
    t = { s with regs := t.regs, flagged := t.flagged, rq := { s.rq with snapDue := false } } ∧
    t.reg 0x2610 = w16 s.rq.cout ∧ t.reg 0x2611 = w16 s.rq.seqNext ∧ t.wide 0x2612 2 = s.rq.cgrant % 2 ^ 32 ∧
    t.wide 0x2614 2 = s.rq.rsent % 2 ^ 32 ∧ t.wide 0x2616 2 = s.rq.fscan % 2 ^ 32 ∧ t.wide 0x2618 2 = s.rq.fcons % 2 ^ 32 ∧
    t.wide 0x261A 2 = s.rq.frep % 2 ^ 32 ∧ t.wide 0x261C 2 = s.rq.fdisc % 2 ^ 32 ∧ t.reg 0x261E = s.reg 0x000A ∧
    (∀ a, t.reg a ≠ s.reg a → 0x2610 ≤ a ∧ a ≤ 0x261E ∨ a = 0x2602) ∧ s.bytesKept t) ∧
  (∀ (q : Word) (s : State), s.takes 0x260A → ∃ t, exec (.queueReplay q) s = .next t ∧
    ((∃ d ∈ s.rq.copies, d.seqWord = q ∧ d.epochWord = s.reg 0x000A) →
      t = { s with rq := { s.rq with replay := some (q.toNat, (s.reg 0x000A).toNat) } }) ∧
    ((∀ d ∈ s.rq.copies, d.seqWord = q → d.epochWord ≠ s.reg 0x000A) →
      t = { s with regs := t.regs, flagged := t.flagged, rq := { s.rq with replay := none } } ∧ t.reg 0x2603 = s.reg 0x2603 ||| 8 ∧
      s.regsKept t [0x2603]))

/-- R50, R247, R376: a write to HCLKF outside 24,000 to 40,000 is ignored and sets BADF; in the wait-for-clock step a valid one
takes effect at once, the first after the count of its hc, with HCPOS still 0, and the pins are sampled from then on; later
one is staged, or withdraws what is staged where it equals the value in force. `u` is the state after the count of its hc.
Model's readings: log entry 12. -/
def Obligations.DeclarationWrites : Prop :=
  ∀ (v : Word) (s u : State), s.countHc = u → u.takes 0x0110 → ∃ t, exec (.hclkfWrite v) s = .next t ∧
    (v.toNat < 24000 ∨ 40000 < v.toNat → t = { u with regs := t.regs, flagged := t.flagged } ∧ t.reg 0x0111 = u.reg 0x0111 ||| 0x0800 ∧
      u.regsKept t [0x0111]) ∧
    (24000 ≤ v.toNat → v.toNat ≤ 40000 →
      (u.ms.step ≠ 3 → v.toNat = u.clk.decl → t = { u with clk := { u.clk with staged := none } }) ∧
      (u.ms.step ≠ 3 → v.toNat ≠ u.clk.decl → t = { u with clk := { u.clk with staged := some v.toNat } }) ∧
      (u.ms.step = 3 → t.clk.decl = v.toNat ∧ t.tb.jumped = false ∧ t.tb.tsc = u.tb.tsc ∧ t.tb.hcpos = u.tb.hcpos ∧
        t.tb.anchors.length = min 256 (u.tb.anchors.length + 1) ∧
        (u.clk.decl = 0 → t.tb.run = true ∧ t.scan.blkEff = false ∧ t.scan.blkTime = 0) ∧
        (u.clk.decl ≠ 0 → t.scan = u.scan ∧ t.sh = u.sh ∧ t.free = u.free ∧ t.gg = u.gg) ∧
        t.ms.step = (if u.clk.lock then 4 else 3) ∧ u.regsKept t [0x0311, 0x2903, 0x290D] ∧
        t = { u with regs := t.regs, flagged := t.flagged, clk := t.clk, tb := t.tb, ms := t.ms, agenda := t.agenda, scan := t.scan,
                     sh := { u.sh with jobAt := t.sh.jobAt }, free := t.free, gg := t.gg })) ∧ s.bytesKept t

/-- R44, R45, R46, R74: a stop freezes the counters and begins to measure the absence; a frame that it cuts sets STOPINFRAME; the
absence timer may trip from 51 fast-ticker periods of absence in the slot on (log entry 18). Model's readings: log entries
15, 18. -/
def Obligations.StopFreezesClock : Prop :=
  (∀ (cut : Bool) (s : State), ∃ t, exec (.hclkStop cut) s = .next t ∧
    (s.hcDriven = false → t = s) ∧
    (s.hcDriven = true → t = { s with regs := t.regs, flagged := t.flagged, clk := t.clk } ∧
      t.clk = { s.clk with stopped := true, absence := 0, stops := s.clk.stops + 1 } ∧ t.hcDriven = false ∧
      t.reg 0x0103 = (if cut = true ∨ s.link.turn.isSome = true then s.reg 0x0103 ||| 32 else s.reg 0x0103) ∧
      s.regsKept t [0x0103])) ∧
  ∀ s : State, ∃ t, exec .absenceTimerTrip s = .next t ∧ t = { s with clk := { s.clk with tripped := t.clk.tripped } } ∧
    (t.clk.tripped = true ↔ s.clk.tripped = true ∨ (s.clk.stopped = true ∧ 51 ≤ s.clk.cum + s.clk.absence + s.clk.stops))

/-- R46, R47, R48, R49, R50, R77: at a resume STOPLEN and the TSC take the absence; a slot within its budget survives unchanged;
one whose absence is over 57 µs (62 fast-ticker periods, log entry 18) or with over 32 stops is frozen and re-run after a
relock of 256 hc, a slot too on whose last hc the stop began; a relock that runs starts again where the absence is over 57 µs;
a staged declaration takes effect after a stop of at least one period; ATTN follows the causes on this hc. Model's readings:
log entry 18. -/
def Obligations.ResumeAfterStop : Prop :=
  ∀ s : State, s.clk.stopped = true → s.tb.run = true →
    ∃ t, exec .hclkResume s = .next t ∧ t.clk.stopped = false ∧ (t.reg 0x0112).toNat = min 65535 s.clk.absence ∧
      t.tb.hcpos = s.tb.hcpos ∧ t.wide 0x0313 3 = s.clk.absence % 2 ^ 48 ∧
      t.tb.tsc = (s.tb.tsc + absenceTicks s.clk.absence (s.reg 0x0311).toNat s.clk.decl) % 2 ^ 48 ∧
      (s.clk.staged = none → s.clk.tripped = false → s.clk.cum + s.clk.absence < 62 → s.clk.stops ≤ 32 ∨ s.clk.relock.isSome = true →
        t.scan = { s.scan with vsAt := t.scan.vsAt, blkAt := t.scan.blkAt } ∧
        t.clk = { s.clk with stopped := false, absence := 0, cum := s.clk.cum + s.clk.absence, measFrom := s.now } ∧
        t = { s with regs := t.regs, flagged := t.flagged, clk := t.clk, tb := t.tb, scan := t.scan, link := t.link, tm := t.tm } ∧
        s.regsKept t [0x0111, 0x0112, 0x0302, 0x0303, 0x030E, 0x030F, 0x0313, 0x0314, 0x0315]) ∧
      (∀ k, s.clk.relock = none → (∃ e, s.scan.ended = some e ∧ e.slot = k) ∨ (s.scan.ended = none ∧ s.slotRuns = true ∧ s.scan.slot = some k) →
        s.clk.tripped = true ∨ 62 ≤ s.clk.cum + s.clk.absence ∨ 32 < s.clk.stops →
        (t.reg 0x0111).getLsbD 8 = true ∧ (t.reg 0x0113).toNat = min 65535 ((s.reg 0x0113).toNat + 1) ∧
        t.clk.relock = some Relock.frozenSlot ∧ t.clk.lock = false ∧ t.clk.lockAt = s.now + b2n s.tb.counted + 256 ∧
        t.scan.slot = some k ∧ t.scan.h = 0 ∧ t.scan.lead = 256 + b2n s.tb.counted ∧ t.scan.cutPause = s.scan.pauseCount) ∧
      (∀ k, s.clk.relock = some k → s.clk.tripped = true ∨ 62 ≤ s.clk.cum + s.clk.absence →
        t.clk.relock = some k ∧ t.clk.lock = false ∧ t.clk.lockAt = s.now + b2n s.tb.counted + 256 ∧ t.scan.slot = s.scan.slot) ∧
      (∀ f, s.clk.staged = some f → 1 ≤ s.clk.absence → t.clk.decl = f ∧ t.clk.staged = none) ∧
      t.link = { s.link with attn := t.attnWanted s.now } ∧ (s.attnOut = true ∨ t.attnOut = false → t.tm = s.tm) ∧
      t.rq = s.rq ∧ t.tr = s.tr ∧ s.bytesKept t

/-- R51, R251: an undeclared jump sets HCLKS.JUMP and JUMPED and takes the uncertainty to its limit; a slot in progress is
frozen, a slot too that ends on this hc. Model's readings: log entry 15. -/
def Obligations.JumpFreezesSlot : Prop :=
  (∀ s : State, s.hcDriven = false → exec .jump s = .next s) ∧
  ∀ s : State, s.hcDriven = true → ∃ t, exec .jump s = .next t ∧ (t.reg 0x0111).getLsbD 9 = true ∧ t.tb.jumped = true ∧
    t.wide 0x030E 2 = 0xFFFFFFFF ∧ t.tb.tsc = s.tb.tsc ∧ t.clk.decl = s.clk.decl ∧
    (s.slotRuns = true ∨ s.scan.ended.isSome = true → s.clk.relock = none → s.ms.step ≠ 3 → (t.reg 0x0111).getLsbD 8 = true ∧
      t.clk.relock = some Relock.frozenSlot ∧ t.clk.lock = false ∧ t.clk.lockAt = s.now + b2n s.tb.counted + 256 ∧ t.scan.h = 0) ∧
    t.link = s.link ∧ t.rq = s.rq ∧ t.tr = s.tr ∧ s.bytesKept t

/-- R43, R47, R108, R109: the first HCLK edge after step 1 starts a relock; a lock stores its code, within 100 to 500, sets LOCK,
and ends step 3 where a declaration is in force; after that of a frozen slot its bins are emitted, tagged FROZEN; a relock
other than the first takes its 256 hc, and none completes in a stop. Model's readings: log entries 3, 15. -/
def Obligations.DelayLineLocks : Prop :=
  (∀ s : State, ∃ t, exec .firstHclkEdge s = .next t ∧
    (s.pw.phase = PowerPhase.on → s.clk.seen = false → t.clk.seen = true ∧ t.clk.relock = some Relock.first ∧
      t.clk.lock = false ∧ t = { s with clk := t.clk, tb := { s.tb with counted := false } }) ∧
    (s.pw.phase ≠ PowerPhase.on ∨ s.clk.seen = true → t = s)) ∧
  ∀ (code : Word) (k : Relock) (s : State), s.clk.relock = some k → ∃ t, exec (.delayLineLock code) s = .next t ∧
    (s.hcDriven = true → k = .first ∨ s.clk.lockAt ≤ s.now → t.clk.relock = none ∧ t.clk.lock = true ∧
      t.reg 0x0114 = w16 (max 100 (min 500 code.toNat)) ∧
      (k = .first → s.ms.step = 3 → t.ms.step = if s.clk.decl = 0 then 3 else 4) ∧
      (∀ x, k = .frozenSlot → s.scan.slot = some x → t.reg 0x060C = w16 (min 65535 s.scan.cutPause) ∧
        ∃ r, t.scan.flight = s.scan.flight ++ [r] ∧ r.cutAs x .frozen (s.now + 1024)) ∧ t.sh = s.sh ∧ t.tb = s.tb) ∧
    (s.hcDriven = false ∨ (k ≠ .first ∧ s.now < s.clk.lockAt) → t = s)

/-- R52, R247, R248, R252: a measurement stores HCLKMEAS in kHz and RATIO, and sets MISMATCH where it differs by more than 8%
from the declaration in force; one that spans a stop is discarded. On each hc HCPOS counts and the accumulator carries into the TSC, at half rate while a slew
runs; the end of a slew writes an anchor at that hc. Model's readings: log entries 12, 14. -/
def Obligations.ClockMeasuredAndCounted : Prop :=
  (∀ (n : Nat) (s : State), s.hcDriven = false ∨ s.now < s.clk.measFrom + n → exec (.hclkMeasurement n) s = .next s) ∧
  (∀ (n : Nat) (s : State), s.hcDriven = true → s.clk.measFrom + n ≤ s.now → s.ca.ticks = none → ∃ t, exec (.hclkMeasurement n) s = .next t ∧
    t = { s with regs := t.regs, flagged := t.flagged, tb := { s.tb with measured := true }, clk := { s.clk with measFrom := s.now } } ∧
    (t.reg 0x0115).toNat = min 65535 (roundDiv (n * 1048576 : Nat) 1024000).toNat ∧ (t.reg 0x0311).toNat = min 65535 n ∧
    t.reg 0x0111 = (if s.clk.decl ≠ 0 ∧ 8 * s.clk.decl < 100 * (((t.reg 0x0115).toNat : Int) - s.clk.decl).natAbs
      then s.reg 0x0111 ||| 0x0400 else s.reg 0x0111) ∧ s.regsKept t [0x0111, 0x0115, 0x0311]) ∧
  ((∀ s : State, s.tb.run = true → s.clk.decl ≠ 0 →
    s.accumulate.tb.hcpos = s.tb.hcpos + 1 ∧
    s.accumulate.tb.acc + s.clk.decl * s.hcTicks = s.tb.acc + (if s.tb.slewRem = 0 then 16000 else 8000) ∧
    s.accumulate.tb.acc < s.clk.decl ∧ s.accumulate.tb.tsc = (s.tb.tsc + s.hcTicks) % 2 ^ 48 ∧
    s.accumulate.tb.slewRem ≤ s.tb.slewRem ∧ (s.tb.slewRem = 0 → s.accumulate.tb.slewRem = 0)) ∧
  ∀ s : State, ∃ t, exec .slewEnd s = .next t ∧ t = { s with tb := { s.tb with anchors := t.tb.anchors, lost := t.tb.lost } } ∧
    (s.tb.run = true → s.tb.slewRem = 0 → t.tb.anchors = (s.anchorNow :: s.tb.anchors).take 256) ∧
    (s.tb.run = false ∨ s.tb.slewRem ≠ 0 → t = s))

/-- R22, R34, R108, R121: the power phases follow one another: qualification, soft start, step 2; foldback's open interval, a
thermal hold and a core brown-out lead back. A restart of the 100 µs leaves the phase. Model's readings: log entry 15. -/
def Obligations.PowerPhases : Prop :=
  (∀ s : State, exec .qualificationRestart s = .next s) ∧
  (∀ (i : Instr) (p q : PowerPhase) (s : State),
    (i = .vphQualified ∧ p = .qualifying ∧ q = .softStart ∨ i = .foldbackOpenEnd ∧ p = .foldbackOpen ∧ q = .qualifying ∨
      i = .thermalRelease ∧ p = .thermalHeld ∧ q = .qualifying ∨ i = .railRestored ∧ p = .regboHeld ∧ q = .resetCircuit) →
    (s.pw.phase = p → exec i s = .next { s with pw := { s.pw with phase := q } }) ∧ (s.pw.phase ≠ p → exec i s = .next s)) ∧
  ∀ (i : Instr) (p : PowerPhase) (s : State),
    (i = .softStartDone ∧ p = .softStart ∨ i = .resetCircuitCyclesDone ∧ p = .resetCircuit) →
    (s.pw.phase = p → exec i s = .next { s with pw := { s.pw with phase := .on }, ms := { s.ms with step := 2 } }) ∧
    (s.pw.phase ≠ p → exec i s = .next s)

/-- R22, R24, R35, R121, R122: the comparators and the thermal warning set their flags on the tripping edge only, and never stop
the part; their release clears the level and leaves the flag. The limiter runs while the phantom switch is closed past soft
start; an ESD event sets its flag and counts up to 255. Model's readings: log entry 46. -/
def Obligations.MonitorsSetFlags : Prop :=
  (∀ (i : Instr) (s : State) (addr : Nat) (flag : Word) (edge : Bool),
    (i = .vphLow ∧ addr = 0x0103 ∧ flag = 0x1000 ∧ edge = !s.pw.vphLow ∨ i = .vphHigh ∧ addr = 0x0103 ∧ flag = 0x2000 ∧ edge = true ∨
      i = .thwarn ∧ addr = 0x0003 ∧ flag = 8 ∧ edge = !s.pw.warm ∨ i = .ilim ∧ addr = 0x0103 ∧ flag = 0x4000 ∧ edge = s.pw.limit ∨
      i = .vphLowClear ∧ addr = 0x0103 ∧ flag = 0 ∧ edge = true ∨ i = .thermalWarnClear ∧ addr = 0x0003 ∧ flag = 0 ∧ edge = true) →
    ∃ t, exec i s = .next t ∧ t = { s with regs := t.regs, flagged := t.flagged, pw := t.pw } ∧
      t.pw = { s.pw with vphLow := t.pw.vphLow, warm := t.pw.warm } ∧
      t.reg addr = (if edge = true ∧ s.pw.phase = PowerPhase.on then s.reg addr ||| flag else s.reg addr) ∧ s.regsKept t [addr] ∧
      t.pw.vphLow = (if i = .vphLow then true else if i = .vphLowClear then false else s.pw.vphLow) ∧
      t.pw.warm = (if i = .thwarn then true else if i = .thermalWarnClear then false else s.pw.warm)) ∧
  ((∀ s : State, (s.limiterRuns = true → exec .limiterEngaged s = .next { s with pw := { s.pw with limit := true } }) ∧
    (s.limiterRuns = false → exec .limiterEngaged s = .next s) ∧
    exec .limiterReleased s = .next { s with pw := { s.pw with limit := false } }) ∧
  ∀ s : State, (s.pw.phase ≠ PowerPhase.on → exec .esdHit s = .next s) ∧
    (s.pw.phase = PowerPhase.on → ∃ t, exec .esdHit s = .next t ∧ t = { s with regs := t.regs, flagged := t.flagged } ∧
      t.reg 0x0103 = s.reg 0x0103 ||| 0x8000 ∧ (t.reg 0x0124).toNat = min 255 ((s.reg 0x0124).toNat + 1) ∧
      s.regsKept t [0x0103, 0x0124]))

/-- R23, R121, R328: a reset cause starts start-up at its phase with RSTCAUSE as exactly one bit; queued reports, responses,
tags, shadows, stages, unlocks and posted words are gone, and every register outside the lanes and RSTCAUSE has its table
value; the factory area stays, and the Shed's bytes but those of a page that is being programmed, which is damaged
(R328). A cause that stands lower in Table MS-7 than one of the same instant does not replace it. That the pins and the
comparators' levels stay is the model's choice (log entry 6), and so is the order of two causes on one instant (log entry
45). -/
def Obligations.ResetCauses : Prop :=
  ∀ (i : Instr) (bit : Nat) (phase : PowerPhase) (s : State),
    (i = .por ∧ bit = 0 ∧ phase = .qualifying ∨
      i = .thermal ∧ bit = 1 ∧ phase = .thermalHeld ∧ s.pw.phase ≠ .thermalHeld ∧ s.sh.jobs = [] ∨
      i = .thermalDeferralExpiry ∧ bit = 1 ∧ phase = .thermalHeld ∧ s.pw.deferred = true ∨
      i = .writeAbort150c ∧ bit = 1 ∧ phase = .thermalHeld ∧ s.pw.phase ≠ .thermalHeld ∨
      i = .foldback ∧ bit = 2 ∧ phase = .foldbackOpen ∧ s.pw.limit = true ∨
      i = .regbo ∧ bit = 3 ∧ phase = .regboHeld ∧ s.limiterRuns = true ∨
      i = .wdog ∧ bit = 4 ∧ phase = .resetCircuit ∧ s.hostClocked = true ∧ s.ms.halted = false) →
    (∀ b, s.pw.lastReset = some (s.now, s.ft, b) → bit < b) →
    ∃ t, exec i s = .next t ∧ t.reg 0x020E = w16 (2 ^ bit) ∧ t.pw.phase = phase ∧ t.ms = { State.reset.ms with refIn := s.ms.refIn } ∧ t.clk = State.reset.clk ∧
      t.tb = State.reset.tb ∧ t.link = State.reset.link ∧ t.rq = State.reset.rq ∧ t.agenda = [] ∧ t.tr = State.reset.tr ∧
      t.core = State.reset.core ∧ t.sh.jobs = [] ∧
      (∀ a, pageOf a < 0x10 ∨ 0x20 < pageOf a → a ≠ 0x020E → t.reg a = resetWord a) ∧
      t.pending = s.pending ∧ t.now = s.now ∧ t.ft = s.ft ∧ t.fac = s.fac ∧ t.pw.vphLow = s.pw.vphLow ∧ t.pw.warm = s.pw.warm ∧
      t.scan.blkBall = s.scan.blkBall ∧ t.scan.vsBall = s.scan.vsBall ∧ (∀ a, memGet t.sh.mem a = memGet s.sh.mem a) ∧
      ∀ a, (∀ j rest, s.sh.jobs = j :: rest → a / 256 ≠ 32 * j.bank + j.page) → t.sh.byteAt a = s.sh.byteAt a

/-- R121, R328: what would reset a part held by a hotter or later state does not: a held part ignores the thermal rows, a
limiter that is not engaged cannot fold back, a brown-out needs the switch closed, and the watchdog runs only in a host-
clocked mode with the core running. A shutdown during a page program waits for the page, at most 3 ms. Model's readings: log
entry 15. -/
def Obligations.ResetsHeldBack : Prop :=
  (∀ (i : Instr) (s : State),
    (i = .thermal ∧ s.pw.phase = .thermalHeld ∨ i = .writeAbort150c ∧ s.pw.phase = .thermalHeld ∨
      i = .thermalDeferralExpiry ∧ s.pw.deferred = false ∨ i = .foldback ∧ s.pw.limit = false ∨
      i = .regbo ∧ s.limiterRuns = false ∨ i = .wdog ∧ (s.hostClocked = false ∨ s.ms.halted = true)) → exec i s = .next s) ∧
  ∀ s : State, s.pw.phase = .on → s.sh.jobs ≠ [] → ∃ t, exec .thermal s = .next t ∧
    t = { s with pw := { s.pw with deferred := true }, agenda := t.agenda } ∧
    t.agenda = (if s.shedByHc then s.agenda ++ [(s.now + s.hcOf 3000, Instr.thermalDeferralExpiry)] else s.agenda)

/-- R323, R109: in step 2 the newer of two valid banks is in force, the other valid one, or none; SYS.EPOCH is one above the
epoch record, or 1, and its program into the other epoch page begins. Outside step 2 nothing happens. Model's readings: log
entry 15. -/
def Obligations.BankSelection : Prop :=
  (∀ s : State, s.pw.phase ≠ PowerPhase.on ∨ s.ms.step ≠ 2 ∨ s.sh.jobs ≠ [] → exec .shedBankSelection s = .next s) ∧
  ∀ s : State, s.pw.phase = PowerPhase.on → s.ms.step = 2 → s.sh.jobs = [] →
    ∃ t, exec .shedBankSelection s = .next t ∧ t.sh.aok = s.sh.bankOk 0 ∧ t.sh.bok = s.sh.bankOk 1 ∧
      (s.sh.bankOk 0 = true → s.sh.bankOk 1 = true →
        t.sh.inForce = some (if 1 ≤ (s.sh.seqOf 1 + 65536 - s.sh.seqOf 0 % 65536) % 65536 ∧
          (s.sh.seqOf 1 + 65536 - s.sh.seqOf 0 % 65536) % 65536 ≤ 0x7FFF then 1 else 0)) ∧
      (s.sh.bankOk 0 = true → s.sh.bankOk 1 = false → t.sh.inForce = some 0) ∧
      (s.sh.bankOk 0 = false → s.sh.bankOk 1 = true → t.sh.inForce = some 1) ∧
      (s.sh.bankOk 0 = false → s.sh.bankOk 1 = false → t.sh.inForce = none ∧ t.sh.noBank = true) ∧
      (∀ x e c, s.sh.epochBest = some (x, e, c) → t.reg 0x000A = w16 (e % 65535 + 1) ∧
        t.sh.jobs = [{ kind := .boot, bank := 1 - x, page := 31, bytes := epochBytes (t.reg 0x000A).toNat (c + 1) }]) ∧
      (s.sh.epochBest = none → t.reg 0x000A = 1 ∧
        t.sh.jobs = [{ kind := .boot, bank := 0, page := 31, bytes := epochBytes 1 1 }]) ∧
      t.ms = s.ms ∧ t.link = s.link ∧ t.clk = s.clk ∧ t.rq = s.rq ∧ s.bytesKept t

/-- R318, R325, R109, R33, R328: a page program that ends stores exactly its page, which then reads as programmed; its read-back
is due after the header; after the epoch program of step 2 presence begins; a thermal shutdown that waited for the page takes
place, unless a cause that ranks above it has reset the part on this instant (log entry 45). A program still under way goes on.
Model's readings: log entry 15. -/
def Obligations.PageProgramStores : Prop :=
  (∀ s : State, s.sh.jobs = [] → exec .shedPageProgramDone s = .next s) ∧
  (∀ (s : State) (h : Nat), s.sh.jobAt = some h → s.now < h → exec .shedPageProgramDone s = .next s) ∧
  ∀ (s : State) (j : Job) (rest : List Job), s.sh.jobs = j :: rest → (∀ h, s.sh.jobAt = some h → h ≤ s.now) →
    ∃ t, exec .shedPageProgramDone s = .next t ∧
      (∀ k b, j.bytes[k]? = some b → memGet t.sh.mem (bankBase j.bank + 256 * j.page + k) = b ∧
        (k < 256 → t.sh.byteAt (bankBase j.bank + 256 * j.page + k) = b)) ∧
      (∀ a, a < bankBase j.bank + 256 * j.page ∨ bankBase j.bank + 256 * j.page + j.bytes.length ≤ a →
        memGet t.sh.mem a = memGet s.sh.mem a ∧
        (a < bankBase j.bank + 256 * j.page ∨ bankBase j.bank + 256 * j.page + 256 ≤ a → t.sh.byteAt a = s.sh.byteAt a)) ∧
      (s.pw.deferred = false → j.kind = .header → t.sh.readback = true ∧ (t.sh.jobs.map (·.kind) = rest.map (·.kind))) ∧
      (s.pw.deferred = false → j.kind = .payload → t.sh.readback = s.sh.readback ∧ t.sh.jobs.length = rest.length ∧
        (s.dormantWaits = false → t.regs = s.regs)) ∧
      (s.pw.deferred = false → j.kind = .boot → t.link.presence = true ∧ t.link.answering = true ∧
        t.ms.step = (if s.clk.decl ≠ 0 ∧ s.clk.lock = true then 4 else 3)) ∧
      (s.pw.deferred = true → t.pw.phase = .thermalHeld ∨ ∃ b, s.pw.lastReset = some (s.now, s.ft, b) ∧ b ≤ 1) ∧
      t.now = s.now ∧ t.pending = s.pending ∧ t.fac = s.fac

/-- R325: after the read-back a bank that passes its check is in force with its SEQ and DONE is set; else FAIL is set and the
bank in force does not change. Model's readings: log entry 15. -/
def Obligations.SaveChecked : Prop :=
  ∀ (s : State) (x : Nat), s.sh.readback = true → s.sh.saving = some x → s.fires .shedSaveReadbackDone = true →
    ∃ t, exec .shedSaveReadbackDone s = .next t ∧ t.sh.saving = none ∧ t.sh.readback = false ∧
      (s.sh.bankOk x = true → t.sh.inForce = some x ∧ t.sh.noBank = false ∧ t.reg 0x2B09 = w16 (s.sh.seqOf x) ∧
        t.wide 0x2E15 2 = s.sh.crcOf x % 2 ^ 32 ∧ t.reg 0x2B03 = s.reg 0x2B03 ||| 1 ∧
        s.regsKept t [0x2B03, 0x2B09, 0x2E02, 0x2E15, 0x2E16]) ∧
      (s.sh.bankOk x = false → t.sh.inForce = s.sh.inForce ∧ t.reg 0x2B03 = s.reg 0x2B03 ||| 2 ∧ s.regsKept t [0x2B03]) ∧
      t = { s with regs := t.regs, flagged := t.flagged, sh := t.sh } ∧ s.bytesKept t

/-- R91, R92, R223, R325, R326: SAVE programs the image's pages and then the header, with its new SEQ, WEAR + 1 and CRC, into the
bank not in force, with none in force the one with the lower WEAR or A on a tie; FORGET programs the header of each valid bank,
in force first, with STATE void, its SEQ and WEAR + 1, and may set CFGBAD for a user curve that the Shed no longer holds; both
need the page unlocked. Model's readings: log entries 7, 16, 20. -/
def Obligations.SaveAndForget : Prop :=
  ∀ s : State, s.takes 0x2B08 →
    (s.unlocked 0x2B = false → ∀ i, i = Instr.save ∨ i = Instr.forget → ∃ t, exec i s = .next t ∧ t = { s with regs := t.regs, flagged := t.flagged } ∧
      t.reg 0x2B06 = s.reg 0x2B06 ||| 2 ∧ s.regsKept t [0x2B06]) ∧
    (s.unlocked 0x2B = true → ∃ t x n q w, exec .save s = .next t ∧ t.sh.saving = some x ∧
      (∀ b, s.sh.inForce = some b → x = 1 - b) ∧ (s.sh.inForce = none → x = if s.sh.wearOf 1 < s.sh.wearOf 0 then 1 else 0) ∧
      n = ceilDiv (bytesOf s.imageWords).length 256 ∧ w = (s.sh.wearOf x + 1) % 2 ^ 32 ∧
      (s.sh.hasHeader 0 = true → s.sh.hasHeader 1 = true →
        q = ((if seqNewer (s.sh.seqOf 1) (s.sh.seqOf 0) then s.sh.seqOf 1 else s.sh.seqOf 0) + 1) % 65536) ∧
      (s.sh.hasHeader 0 = true → s.sh.hasHeader 1 = false → q = (s.sh.seqOf 0 + 1) % 65536) ∧
      (s.sh.hasHeader 0 = false → s.sh.hasHeader 1 = true → q = (s.sh.seqOf 1 + 1) % 65536) ∧
      t.sh.jobs = s.sh.jobs ++
        (List.range n).map (fun p =>
          ({ kind := .payload, bank := x, page := p + 1, bytes := padPage ((bytesOf s.imageWords).drop (256 * p)) } : Job)) ++
        [{ kind := .header, bank := x, page := 0, bytes := headerBytes 0xA5A5 q n (bytesOf s.imageWords).length w
            (crc32 ((headerBytes 0xA5A5 q n (bytesOf s.imageWords).length w 0).take 28 ++ bytesOf s.imageWords)).toNat }] ∧
      t = { s with sh := t.sh, agenda := t.agenda } ∧ t.sh.inForce = s.sh.inForce ∧ s.bytesKept t) ∧
    (s.unlocked 0x2B = true → ∃ t, exec .forget s = .next t ∧
      (s.sh.bankOk 0 = false → s.sh.bankOk 1 = false → t.sh.inForce = none ∧ t.sh.noBank = true ∧ t.sh.jobs = s.sh.jobs ∧
        t.reg 0x2B03 = s.reg 0x2B03 ||| 1 ∧ (s.sh.inForce = none → t.reg 0x2503 = s.reg 0x2503) ∧
        s.regsKept t [0x2B03, 0x2E02, 0x2E15, 0x2E16, 0x2503]) ∧
      (∀ b, s.sh.inForce = some b → b < 2 → s.sh.bankOk b = true →
        t.sh.jobs = s.sh.jobs ++ ((if s.sh.bankOk (1 - b) then [b, 1 - b] else [b]).map (fun y =>
          ({ kind := .void, bank := y, page := 0, bytes := headerBytes 0 (s.sh.seqOf y) (s.sh.npage y) (s.sh.nbyte y) ((s.sh.wearOf y + 1) % 2 ^ 32)
              (crc32 ((headerBytes 0 (s.sh.seqOf y) (s.sh.npage y) (s.sh.nbyte y) ((s.sh.wearOf y + 1) % 2 ^ 32) 0).take 28 ++ s.sh.payload y)).toNat } : Job))) ∧
        s.regsKept t []) ∧
      t = { s with regs := t.regs, flagged := t.flagged, sh := t.sh, agenda := t.agenda } ∧ s.bytesKept t)

/-- R115, R352: a SYS.CMD command is rejected with BADSTATE while one is busy or where it is not allowed, with BADARG for a
wrong argument, and with BADCMD for an unknown code; the code shows, CMDERR is set, and nothing else changes. Model's
readings: log entries 16, 44. -/
def Obligations.CommandRejected : Prop :=
  (∀ (i : Instr) (c arg : Nat) (s : State), sysCmdOf i = some (c, arg) → s.takes 0x0008 →
    s.ms.busy = true ∨ s.cmdAllowed c = false ∨ cmdBadArg c arg = true →
    ∃ t, exec i s = .next t ∧ t = { s with regs := t.regs, flagged := t.flagged, ms := t.ms } ∧
      t.ms = { s.ms with code := c, done := false, badcmd := false, badstate := s.ms.busy || !s.cmdAllowed c,
                         badarg := !(s.ms.busy || !s.cmdAllowed c) } ∧
      t.reg 0x0003 = s.reg 0x0003 ||| 4 ∧ s.regsKept t [0x0003]) ∧
  ∀ (v : Word) (s : State), s.takes 0x0008 → s.ms.busy = false → cmdDefined (fld v 7 0) = false →
    ∃ t, exec (.registerWrite 0x0008 v) s = .next t ∧ t = { s with regs := t.regs, flagged := t.flagged, ms := t.ms } ∧
      t.ms = { s.ms with code := fld v 7 0, done := false, badcmd := true, badstate := false, badarg := false } ∧
      t.reg 0x0003 = s.reg 0x0003 ||| 4 ∧ s.regsKept t [0x0003]

/-- R115, R117, R118, R121, R286 to R294, R310, R312, R315: an accepted command sets BUSY and what it starts: a GO_ command is due at
the next frame boundary, is held during start-up and a DORMANT exit, and is done at once in the mode it names; RESET follows
16 hc later; the calibration commands are due or begin, and what measures holds DCTRL off; FAILLANE names its lane. Model's readings: log entry 16. -/
def Obligations.CommandAccepted : Prop :=
  ∀ (i : Instr) (c arg : Nat) (s : State), sysCmdOf i = some (c, arg) → s.takes 0x0008 →
    s.ms.busy = false → s.cmdAllowed c = true → cmdBadArg c arg = false →
    ∃ t, exec i s = .next t ∧ t = { s with regs := t.regs, flagged := t.flagged, ms := t.ms, ca := t.ca, dg := t.dg, free := t.free } ∧ t.ms.code = c ∧
      (c ≠ 0x12 → t.free = s.free) ∧
      t.ms.badcmd = false ∧ t.ms.badstate = false ∧ t.ms.badarg = false ∧ t.ms.mode = s.ms.mode ∧
      (c ≤ 4 → s.ms.mode = .startup ∨ s.exiting = true → t.ms.held = some c ∧ t.ms.busy = false ∧ t.ms.done = false ∧
        t.ms.due = s.ms.due ∧ s.regsKept t []) ∧
      (c ≤ 4 → s.ms.mode ≠ .startup → s.exiting = false → s.ms.mode.code = c → t.ms.done = true ∧ t.ms.busy = false ∧
        t.ms.due = s.ms.due ∧ t.reg 0x0003 = s.reg 0x0003 ||| 2 ∧ s.regsKept t [0x0003]) ∧
      (c ≤ 4 → s.ms.mode ≠ .startup → s.exiting = false → s.ms.mode.code ≠ c → t.ms.busy = true ∧ t.ms.due = some c ∧
        t.ms.done = false ∧ s.regsKept t []) ∧
      (c = 0x0F → t.ms.busy = true ∧ t.ms.resetAt = some (s.now + 16) ∧ s.regsKept t []) ∧
      (c = 0x05 ∨ c = 0x13 → t.ms.busy = true ∧ t.ms.calBusy = true ∧ t.ca = { s.ca with due := some c } ∧ s.regsKept t []) ∧
      (c = 0x18 → t.ms.busy = true ∧ t.ms.calBusy = s.ms.calBusy ∧ t.ca = { s.ca with due := some c } ∧ s.regsKept t []) ∧
      (c = 0x10 ∨ c = 0x11 ∨ c = 0x12 ∨ c = 0x14 → t.dg = { s.dg with dacOff := true }) ∧
      (c = 0x10 → t.ms.busy = true ∧ t.ms.calBusy = true ∧ t.ca = { s.ca with zero := none, points := [], meas := t.ca.meas } ∧
        (∃ m, t.ca.meas = some m ∧ m.point = none ∧ m.counted = 0) ∧ s.regsKept t []) ∧
      (c = 0x11 → t.ms.busy = true ∧ t.ms.calBusy = true ∧ t.ca = { s.ca with meas := t.ca.meas } ∧
        (∃ m, t.ca.meas = some m ∧ m.point = some arg ∧ m.counted = 0) ∧ s.regsKept t []) ∧
      (c = 0x12 → t.ms.busy = true ∧ t.ms.calBusy = true ∧ t.ca = { s.ca with solve := t.ca.solve } ∧ t.ca.solve.isSome = true ∧
        s.regsKept t [0x2C03]) ∧
      (c = 0x14 → t.ms.busy = true ∧ t.ca = { s.ca with ticks := some [] } ∧ s.regsKept t []) ∧
      (c = 0x19 → s.dg.failed.contains arg = false → t.ms.busy = true ∧ t.dg = { s.dg with forced := s.dg.forced ++ [arg] } ∧
        s.regsKept t []) ∧
      (c = 0x19 → s.dg.failed.contains arg = true → t.ms.done = true ∧ t.ms.busy = false ∧ t.dg = s.dg ∧ s.regsKept t [0x0003])

/-- R113, R163: a settled reference sets REF_RDY and what waited for it goes on; an external source that has not entered its
window in time falls back to the internal one with REFFAIL; leaving the window in use sets REFOUT; entering it starts the
settle time. R113 gives the fall-back for step 4; that it applies to the waits of a DORMANT exit and of a change in SERVICE too,
and that REFX entering its window in a wait starts the settle time again, is the model's choice (log entry 67). Model's
readings: log entry 15. -/
def Obligations.ReferenceEvents : Prop :=
  (∀ s : State, s.fires .refRdy = true →
    (s.ms.refWait = .none ∨ (s.ms.refUse = 1 ∧ s.ms.refIn = false) → exec .refRdy s = .next s) ∧
    (s.ms.refWait ≠ .none → s.ms.refUse ≠ 1 ∨ s.ms.refIn = true → ∃ t, exec .refRdy s = .next t ∧ t.ms.refRdy = true ∧
      t.ms.refWait = .none ∧ t.ms.refUse = s.ms.refUse ∧
      (s.ms.refWait = .exit → t.ms.exit = .reentry ∧ t.scan.reLeft = 2 ∧ t.scan.nextAt = some s.now ∧ t.regs = s.regs) ∧
      (s.ms.refWait = .scan → t.ms.syncDue = true ∧ t.scan.nextAt = some s.now ∧ t.regs = s.regs) ∧
      (s.ms.refWait = .startup → (s.reg 0x0208).getLsbD 1 = true ∨ s.ms.held = some 4 → t.ms.mode = .service ∧ t.ms.step = 0))) ∧
  (∀ s : State, s.fires .reffail = true →
    (s.ms.refWait ≠ .none ∧ s.ms.refUse = 1 ∧ s.ms.refIn = false → ∃ t, exec .reffail s = .next t ∧
      t = { s with regs := t.regs, flagged := t.flagged, ms := t.ms, agenda := t.agenda } ∧
      t.ms = { s.ms with refUse := 0, refRdy := false } ∧ t.reg 0x0203 = s.reg 0x0203 ||| 1 ∧ s.regsKept t [0x0203] ∧
      (s.now + s.hcOf (if s.ms.refWait = .exit then 500 else 2000), Instr.refRdy) ∈ t.agenda) ∧
    (s.ms.refWait = .none ∨ s.ms.refUse ≠ 1 ∨ s.ms.refIn = true → exec .reffail s = .next s)) ∧
  (∀ s : State, ∃ t, exec .refout s = .next t ∧ t.ms.refIn = false ∧ t = { s with regs := t.regs, flagged := t.flagged, ms := t.ms } ∧
    (s.ms.refUse = 1 → s.hostClocked = true → s.ms.refWait = .none → t.ms.refBad = true ∧ t.reg 0x2103 = s.reg 0x2103 ||| 8) ∧
    (s.ms.refUse ≠ 1 ∨ s.hostClocked = false ∨ s.ms.refWait ≠ .none → t.regs = s.regs ∧ t.ms.refBad = s.ms.refBad) ∧
    s.regsKept t [0x2103]) ∧
  ∀ s : State, ∃ t, exec .refxEntersWindow s = .next t ∧ t.ms.refIn = true ∧ t = { s with ms := t.ms, agenda := t.agenda } ∧
    (s.ms.refWait ≠ .none → s.ms.refUse = 1 → s.ms.refIn = false → t.ms.refRdy = false ∧ (s.now + s.hcOf 250, Instr.refRdy) ∈ t.agenda) ∧
    (s.ms.refWait = .none ∨ s.ms.refUse ≠ 1 ∨ s.ms.refIn = true → t.agenda = s.agenda ∧ t.ms = { s.ms with refIn := true })

/-- R111, R117, R118, R120, R250, R253, R265: the automatic transition is due once the idle time is over; MODE reads 3 with the
end of GO_DORMANT; a host wake request sets WAKE, its cause and the assertion, and is ignored in a host-clocked mode; the
first HCLK edge of the exit advances the TSC, applies a staged declaration and starts the relock, or waits for the end of a
burst that runs (R175); the EPOCH report takes its entry and opens the gate, and one that a REBASE has overtaken waits behind
it. Model's readings: log entries 15, 19, 51, 64, 83. -/
def Obligations.DormantPath : Prop :=
  (∀ s : State, ((s.reg 0x020C).getLsbD 0 = true ∧ s.ms.mode = .active ∧ (∃ h, s.ms.idleAt = some h ∧ h ≤ s.now) →
      exec .automode s = .next { s with ms := { s.ms with auto := some .watch } }) ∧
    ((s.reg 0x020C).getLsbD 0 = false ∨ s.ms.mode ≠ .active ∨ s.ms.idleAt = none → exec .automode s = .next s)) ∧
  (∀ s : State, s.fires .dormantModeSet = true →
    (s.ms.entering = false ∨ s.ms.mode = .dormant → exec .dormantModeSet s = .next s) ∧
    (s.ms.entering = true → s.ms.mode ≠ .dormant → ∃ t, exec .dormantModeSet s = .next t ∧ t.ms.mode = .dormant ∧
      t.ms.entering = false ∧ t.ms.refRdy = false ∧ t.ms.busy = false ∧ t.ms.done = true ∧ t.sh.mem = s.sh.mem ∧ t.rq = s.rq ∧
      (t.reg 0x0003).getLsbD 0 = true ∧ (t.reg 0x0003).getLsbD 1 = true ∧
      (s.ms.wakeKept = false → t.ms.exit = .none ∧ t.ms.wake = false ∧ t.sk.passLeft = 8 ∧ t.link = s.link) ∧
      (s.ms.wakeKept = true → t.ms.exit = .waitClock ∧ t.ms.wake = true ∧ t.link.wakeAssert = true))) ∧
  (∀ s : State, s.ms.wake = false → s.ms.entering = false → s.ms.mode ≠ .dormant → exec .hostWakeRequest s = .next s) ∧
  (∀ s : State, s.ms.mode = .dormant → s.ms.exit = .none → s.ms.wake = false → ∃ t, exec .hostWakeRequest s = .next t ∧
    t.ms.wake = true ∧ t.ms.exit = .waitClock ∧ t.ms.ageFrom = s.ft ∧ t.link = { s.link with wakeAssert := true } ∧
    t.reg 0x2728 = 1 ∧ t.reg 0x0203 = s.reg 0x0203 ||| 4 ∧ s.regsKept t [0x2728, 0x0203] ∧
    t = { s with regs := t.regs, flagged := t.flagged, pw := t.pw, ms := t.ms, sk := t.sk, link := t.link }) ∧
  (∀ s : State, s.ms.mode ≠ .dormant ∨ s.ms.exit ≠ .waitClock → exec .dormantExitStart s = .next s) ∧
  (∀ s : State, s.ms.mode = .dormant → s.ms.exit = .waitClock → s.burstUntil ≠ none →
    exec .dormantExitStart s = .next { s with sk := { s.sk with exitDue := true } }) ∧
  (∀ s : State, s.ms.mode = .dormant → s.ms.exit = .waitClock → s.burstUntil = none → ∃ t, exec .dormantExitStart s = .next t ∧ t.ms.exit = .relock ∧
    t.clk.relock = some .dormantExit ∧ t.clk.lock = false ∧ t.clk.lockAt = s.now + 256 ∧ t.clk.staged = none ∧
    t.clk.decl = s.clk.staged.getD s.clk.decl ∧ t.ms.age = min 65535 ((s.ft - s.ms.ageFrom) / 32) ∧
    t.tb.tsc = (s.tb.tsc + absenceTicks s.clk.absence (s.reg 0x0312).toNat s.clk.decl) % 2 ^ 48 ∧ t.tb.hcpos = s.tb.hcpos ∧
    t.sk.cyc = none ∧ t.sk.exitDue = false ∧ t.scan.slot = none ∧ t.scan.blkEff = false ∧ t.rq = s.rq) ∧
  ∀ s : State, s.epochFires = true →
    (∀ r rest, s.rq.epochOld = r :: rest → exec .epochReport s = .next { s with
      rq := { s.rq with epochOld := rest, gated := s.rq.gated ++ [s.epochEvent (if r then 0 else (s.reg 0x020E).toNat) r] } }) ∧
    (s.rq.epochOld = [] → s.rq.epochDue = false → exec .epochReport s = .next s) ∧
    (s.rq.epochOld = [] → s.rq.epochDue = true → ∃ t, exec .epochReport s = .next t ∧ t.rq.epochDue = false ∧ t.rq.gated = [] ∧ t.rq.rebased = false ∧
      (s.rq.waiting = [] → s.rq.used < 64 → ∃ r ∈ t.rq.entries, r.typ = 0x10 ∧ r.seq = some s.rq.seqNext ∧ r.epoch = (s.reg 0x000A).toNat ∧
        r.ts = s.tb.tsc ∧ r.body = [w16 (if s.rq.rebased then 32768 else (s.reg 0x020E).toNat), w16 s.ms.mode.code]) ∧ s.bytesKept t)

/-- R107, R114, R115, R118, R248: what a frame boundary does. One that is not due does nothing. GO_DORMANT locks the pages,
stops the scan and has MODE read 3 64 hc later, unless a page program holds it up; another mode command takes its mode and
completes; with no command, reference change or calibration slots due, M0 of the next frame starts there and an anchor is
written, and the mode stays where no automatic change is due. Model's readings: log entries 2, 15, 31, 65, 66. -/
def Obligations.FrameBoundary : Prop :=
  ∀ (m : Monitors) (s u : State), s.countHc = u →
    (u.boundaryDue = false → exec (.frameBoundary m) s = .next u) ∧
    (u.boundaryDue = true → u.scan.after = .none → u.ms.due = some 3 → u.sh.jobs = [] → u.ms.epochOwed = false →
      ∃ t, exec (.frameBoundary m) s = .next t ∧ t.ms.entering = true ∧ t.ms.due = none ∧ t.link.unlocked = [] ∧ t.scan.slot = none ∧
        t.scan.nextAt = none ∧ (s.now + 64, Instr.dormantModeSet) ∈ t.agenda ∧ t.inj.phase = .idle ∧ s.bytesKept t) ∧
    (∀ c, u.boundaryDue = true → u.scan.after = .none → u.ms.due = some c → c ≠ 3 → ∃ t, exec (.frameBoundary m) s = .next t ∧
      t.ms.mode = (if c = 1 then .active else if c = 2 then .watch else .service) ∧ t.ms.due = none ∧ t.ms.busy = false ∧
      t.ms.done = true ∧ s.bytesKept t) ∧
    (u.boundaryDue = true → u.scan.after = .none → u.ms.due = some 3 → u.sh.jobs ≠ [] →
      ∃ t, exec (.frameBoundary m) s = .next t ∧ t.ms.entering = true ∧ t.ms.due = none ∧ t.ms.mode = u.ms.mode ∧ t.scan.slot = none ∧
        t.scan.nextAt = none ∧ s.bytesKept t) ∧
    (u.boundaryDue = true → u.scan.after = .none → u.ms.due = none → u.ms.refBad = false → u.ms.refDue = false →
      u.ca.due = none → u.inj.phase = .idle → ∃ t, exec (.frameBoundary m) s = .next t ∧ t.scan.slot = some (.regular 0) ∧ t.scan.h = 0 ∧
        t.scan.lead = 0 ∧ t.scan.frameNo = u.scan.frameNo + 1 ∧ t.scan.sched = s.now ∧ t.scan.nextAt = none ∧
        t.ms.boundaries = u.ms.boundaries + 1 ∧ ((u.reg 0x020C).getLsbD 0 = false → u.ms.auto = none → t.ms.mode = u.ms.mode) ∧
        t.tb.anchors = (u.anchorNow :: u.tb.anchors).take 256 ∧
        s.bytesKept t)

/-- R9, R46, R107, R164, R166, R187: the last hc of a slot, to which a stop that begins on it belongs. Before it nothing happens. Then a regular or injected slot's records are
on their way for 1,024 hc; the next entry of the regular list follows, or an injected sequence that waited for the slot, and
after LS the frame boundary, PERIOD hc after the last or later; an injected slot is followed by the next one or by the re-
entry ramp. A calibration slot leaves no records: the slots of a CALTRACE round give each electrode's τ or count it in TRFIRST (R293),
those of OPENTEST its class, C and IL (R310, R311), and the last slot of self-calibration the slice words of the lanes that pass
and the mask of those that do not (R287). Model's readings: log entries 15, 60. -/
def Obligations.SlotEnds : Prop :=
  ∀ (d : SlotData) (s : State),
    (s.slotEnds = false → exec (.slotEnd d) s = .next s) ∧
    (∀ e, s.slotEnds = true → s.scan.slot = some (.regular e) → s.inj.phase ≠ .pending → ∃ t, exec (.slotEnd d) s = .next t ∧
      t = { s with regs := t.regs, flagged := t.flagged, clk := t.clk, scan := t.scan, agenda := t.agenda } ∧
      t.agenda = s.agenda ++ [(s.now + 1024, Instr.recordsReady)] ∧ t.scan.h = 0 ∧ t.scan.frameNo = s.scan.frameNo ∧
      t.scan.ended.map (·.slot) = some (.regular e) ∧
      t.clk = { t.clk with stops := s.clk.stops, cum := s.clk.cum, tripped := s.clk.tripped } ∧
      (∃ r, t.scan.flight = s.scan.flight ++ [r] ∧ r.due = s.now + 1024 ∧ r.frame = s.scan.frameNo ∧ r.kind = .regular e ∧
        r.cut = false) ∧
      (e < 7 → t.scan.slot = some (.regular (e + 1)) ∧ t.scan.lead = 1 ∧ t.scan.nextAt = s.scan.nextAt) ∧
      (7 ≤ e → t.scan.slot = none ∧ t.scan.nextAt = some (max (s.scan.sched + s.scan.period) (s.now + 1)) ∧
        t.scan.rest = decide (s.now + 1 < s.scan.sched + s.scan.period))) ∧
    (∀ e, s.slotEnds = true → s.scan.slot = some (.regular e) → s.inj.phase = .pending → ∃ t, exec (.slotEnd d) s = .next t ∧
      t.inj.phase = .exitRamp ∧ t.inj.resume = (if e < 7 then some (e + 1) else none) ∧ t.inj.rampFrom = s.now + 1 ∧ t.scan.slot = none ∧
      (s.now + 1024, Instr.recordsReady) ∈ t.agenda ∧ (∃ r, t.scan.flight = s.scan.flight ++ [r] ∧ r.kind = .regular e) ∧ t.rq = s.rq) ∧
    (∀ k, s.slotEnds = true → s.scan.slot = some (.cal k) → ∃ t, exec (.slotEnd d) s = .next t ∧ t.scan.flight = s.scan.flight ∧
      t.scan.ended.map (·.slot) = some (.cal k) ∧
      (s.ca.act = none → t = { s with scan := { s.scan with ended := t.scan.ended } }) ∧
      (∀ a n, s.ca.act = some a → s.ca.k = 4 + 2 * n → a = .trace ∨ a = .openw → t.ca.firstFit = s.roundFits d) ∧
      (∀ n i, s.ca.act = some .trace → s.ca.k = 5 + 2 * n → n < 10 → i < 16 →
        t.reg (tauAddr (16 * n + i)) = (match traceTau (s.ca.firstFit.getD i none) ((s.roundFits d).getD i none) with
          | some v => w16 v
          | none => s.reg (tauAddr (16 * n + i)))) ∧
      (∀ n, s.ca.act = some .trace → s.ca.k = 5 + 2 * n → n < 10 → (t.reg 0x2C0D).toNat / 256 = min 255 ((s.reg 0x2C0D).toNat / 256 +
        ((List.range 16).filter (fun i => (traceTau (s.ca.firstFit.getD i none) ((s.roundFits d).getD i none)).isNone)).length)) ∧
      (∀ n i c q, s.ca.act = some .openw → s.ca.k = 5 + 2 * n → n < 10 → i < 16 → s.dg.ow.length = 160 →
        ((s.laneFor i).isSome = false → t.dg.ow[16 * n + i]? = some (4, 0, 0)) ∧
        ((s.laneFor i).isSome = true → owValues s.owCurrent (s.ca.firstFit.getD i none) ((s.roundFits d).getD i none) = (c, some q) →
          t.dg.ow[16 * n + i]? = some (if c < (s.reg 0x2A0B).toNat then 1 else if (s.reg 0x2A0C).toNat < c then 2
            else if (s.reg 0x2A0D).toNat < |q| then 3 else 0,
            (clampInt 0 8191 (roundRat c)).toNat, clampInt (-32768) 32767 (roundRat q)))) ∧
      (∀ a, s.ca.act = some a → a = .boot ∨ a = .selfcal → s.ca.lanes.length = 17 →
        ∃ ls, ls = s.ca.lanes.zipIdx.map (fun (l, i) => s.calLaneSlot rawTable dftTable d i l) ∧
          (s.ca.k = 118 → t.ca.lanes = ls) ∧
          (s.ca.k = 119 → (∀ i l, i < 16 → ls[i]? = some l → (t.reg 0x2C0C).getLsbD i = !l.passes) ∧
            (t.ca.lspFail = true ↔ ∃ l, ls[16]? = some l ∧ l.passes = false) ∧
            ∀ i l j, ls[i]? = some l → j < 4 →
              (l.passes = false → t.reg (laneAddr i (0x18 + j)) = s.reg (laneAddr i (0x18 + j)) ∧ t.reg (laneAddr i (0x1C + j)) = s.reg (laneAddr i (0x1C + j))) ∧
              (l.passes = true → l.newOfs.length = 4 → l.newGain.length = 4 →
                t.reg (laneAddr i (0x18 + j)) = wordOfInt (l.newOfs.getD j 0) &&& 0xFFF ∧ t.reg (laneAddr i (0x1C + j)) = wordOfInt (l.newGain.getD j 0)))) ∧
      s.bytesKept t) ∧
    ∀ i, s.slotEnds = true → s.scan.slot = some (.injected i) → ∃ t, exec (.slotEnd d) s = .next t ∧
      t = { s with regs := t.regs, flagged := t.flagged, clk := t.clk, scan := t.scan, inj := t.inj, agenda := t.agenda } ∧
      (s.now + 1024, Instr.recordsReady) ∈ t.agenda ∧
      (∃ r, t.scan.flight = s.scan.flight ++ [r] ∧ r.due = s.now + 1024 ∧ r.kind = .injected i ∧ r.cut = false) ∧
      (i + 1 < s.inj.n → t.inj = s.inj ∧ t.scan.slot = some (.injected (i + 1)) ∧ t.scan.lead = 1) ∧
      (s.inj.n ≤ i + 1 → t.inj = { s.inj with phase := .reentryRamp, rampFrom := s.now + 1 } ∧ t.scan.slot = none ∧
        (s.now + s.ramp, Instr.injectedSequenceEnd) ∈ t.agenda)

/-- R76, R187, R194, R195, R197, R225, R226, R227, R230, R244: records arrive when their hc has come, and no others; those of SC only join their frame,
those of a slot that was cut short join none, and a replaced frame only counts as one. An output that becomes ready is counted in RCNT and reaches the Trellis 4,096 hc
later, where it waits behind waiting reports and is dropped while the core is halted. There at most 20 contacts stay open: a
contact that no peak within TRKDIST continues counts a miss and closes after as many as DEB's second field, one that opens has
been a candidate as often as its first field and takes an ID that no UP still holds, after a debug halt every open one closes;
DOWNCNT and UPCNT count those that open and close. Model's readings: log entries 15, 50. -/
def Obligations.RecordsAndOutputs : Prop :=
  (∀ s : State, (∀ r ∈ s.scan.flight, s.now < r.due) → exec .recordsReady s = .next s) ∧
  (∀ (s : State) (r : SlotRecs) (rest : List SlotRecs), s.scan.flight = r :: rest → r.due ≤ s.now → (∀ q ∈ rest, s.now < q.due) →
    ∃ t, exec .recordsReady s = .next t ∧ t.scan.flight = rest ∧
      (r.kind = .regular 6 → t = { s with scan := { s.scan with flight := rest, frames := t.scan.frames } } ∧
        t.scan.frames.map (·.no) = s.scan.frames.map (·.no)) ∧
      (r.cut = true ∨ (∃ k, r.kind = .cal k) → t = { s with scan := { s.scan with flight := rest } }) ∧
      (r.kind = .regular 7 → r.cut = false → (∀ c ∈ s.scan.frames, c.no = r.frame → c.replaced = true) → (∃ c ∈ s.scan.frames, c.no = r.frame) →
        s.ms.entering = false → s.ms.due ≠ some 3 →
        t.rq = { s.rq with fscan := inc32 s.rq.fscan, frep := inc32 s.rq.frep } ∧ (∀ c ∈ t.scan.frames, c.no ≠ r.frame) ∧
        t = { s with scan := t.scan, rq := t.rq })) ∧
  (∀ s : State, (∀ o ∈ s.sv.outs, o.ready ≤ s.now → o.seen = true) → exec .outputReady s = .next s) ∧
  (∀ (s : State) (o : Output) (l : List Output), s.sv.outs = o :: l → o.ready ≤ s.now → o.seen = false →
    (∀ p ∈ l, s.now < p.ready) → ∃ t, exec .outputReady s = .next t ∧
      t.sv = { s.sv with
        outs := { o with seen := true } :: l, rcnt := inc32 s.sv.rcnt, rprime := s.sv.rprime && o.reset } ∧
      t = { s with regs := t.regs, flagged := t.flagged, sv := t.sv, agenda := s.agenda ++ [(s.now + 4096, Instr.trellisOutput)] } ∧
      t.reg 0x220E = w16 (o.phi + 32 * b2n o.prim) ∧ s.regsKept t [0x220E]) ∧
  (∀ s : State, s.sv.outs = [] → exec .trellisOutput s = .next s) ∧
  ∀ (s : State) (o : Output) (l : List Output), s.sv.outs = o :: l →
    (o.seen = false ∨ s.now < o.ready + 4096 → exec .trellisOutput s = .next s) ∧
    (o.seen = true → o.ready + 4096 ≤ s.now → s.rq.waiting ≠ [] →
      exec .trellisOutput s = .next { s with agenda := s.agenda ++ [(s.now + 1, Instr.trellisOutput)] }) ∧
    (o.seen = true → o.ready + 4096 ≤ s.now → s.rq.waiting = [] → s.ms.halted = true →
      exec .trellisOutput s = .next { s with sv := { s.sv with outs := l } }) ∧
    (o.seen = true → o.ready + 4096 ≤ s.now → s.rq.waiting = [] → s.ms.halted = false → ∃ t, exec .trellisOutput s = .next t ∧
      t.sv = { s.sv with outs := l } ∧ t.scan = s.scan ∧ t.clk = s.clk ∧ t.cl = s.cl ∧ t.ms.debugUps = false ∧
      (s.tr.contacts.length ≤ 20 → t.tr.contacts.length ≤ 20) ∧
      (∀ c ∈ t.tr.contacts, (∀ x ∈ s.tr.contacts, x.id ≠ c.id) → s.idHeld c.id = false ∧ c.refX = c.x ∧ c.refY = c.y ∧ c.refAt = s.tb.hcpos ∧
        ((s.force.get 0x250A).toNat % 16 ≤ 1 ∨ ∃ x ∈ s.tr.cands, (s.force.get 0x250A).toNat % 16 ≤ x.2 + 1)) ∧
      (s.ms.debugUps = true → ∀ c ∈ t.tr.contacts, ∀ x ∈ s.tr.contacts, x.id ≠ c.id) ∧
      (s.ms.debugUps = false → (s.tr.contacts.map (·.id)).Nodup → ∀ c ∈ s.tr.contacts, s.stuckNow c = false →
        (∀ p ∈ s.peaks o, (s.force.get 0x250B).toNat ^ 2 < dist2 c p.c) →
        (c.miss + 1 < max 1 ((s.force.get 0x250A).toNat / 16 % 16) → { c with miss := c.miss + 1 } ∈ t.tr.contacts) ∧
        (max 1 ((s.force.get 0x250A).toNat / 16 % 16) ≤ c.miss + 1 → ∀ x ∈ t.tr.contacts, x.id ≠ c.id)) ∧
      ((s.tr.contacts.map (·.id)).Nodup →
        t.rq.upCnt % 65536 = (s.rq.upCnt + (s.tr.contacts.filter (fun c => !(t.tr.contacts.map (·.id)).contains c.id)).length) % 65536 ∧
        t.rq.downCnt % 65536 = (s.rq.downCnt + (t.tr.contacts.filter (fun c => !(s.tr.contacts.map (·.id)).contains c.id)).length) % 65536) ∧
      s.bytesKept t)

/-- R203, R204, R209, R210: a trip that is due sets NTRIP; with CTRIP = 0 a re-plan is due from 2,048 hc later, with CTRIP = 1
it triggers an injected sequence. With the water classification off, or after a frame without self images, every zone
clears and WMAP reads 0, and NOSELF reads 1 with the classification off; else a zone whose mutual delta reaches WTH with a
self delta below WRATIO/16 of it is a candidate, becomes wet after two candidate frames in a row and stays so until WHOLD
frames in a row are not; WMAP shows the wet zones, a newly wet one sets its flag, and SPILL a rise of the count to SPILLZ.
Model's readings: log entries 15, 41. -/
def Obligations.NoiseAndWater : Prop :=
  (∀ s : State, s.fires .ntrip = false ∨ s.cl.tripDue = false → exec .ntrip s = .next s) ∧
  (∀ s : State, s.fires .ntrip = true → s.cl.tripDue = true → (s.reg 0x2101).getLsbD 1 = false → ∃ t, exec .ntrip s = .next t ∧
    t = { s with regs := t.regs, flagged := t.flagged, cl := { s.cl with tripDue := false, replanAt := s.cl.replanAt ++ [s.now + 2048] } } ∧
    t.reg 0x2403 = s.reg 0x2403 ||| 1 ∧ s.regsKept t [0x2403]) ∧
  (∀ s : State, s.fires .ntrip = true → s.cl.tripDue = true → (s.reg 0x2101).getLsbD 1 = true → ∃ t, exec .ntrip s = .next t ∧
    t.cl = { s.cl with tripDue := false } ∧ t.reg 0x2403 = s.reg 0x2403 ||| 1 ∧ (t.inj.phase ≠ .idle ∨ s.hcDriven = false)) ∧
  (∀ s : State, s.waterOn = false ∨ s.cl.guard = false → ∃ t, exec .waterMapUpdate s = .next t ∧ t.reg 0x2410 = 0 ∧ s.regsKept t [0x2410] ∧
    t.spillNow = false ∧ t.dropNow = false ∧ (s.waterOn = false → t.clocheStat / 8 % 2 = 1) ∧ (∀ z ∈ t.cl.zones, z.wet = false) ∧
    t = { s with regs := t.regs, flagged := t.flagged, cl := { s.cl with zones := t.cl.zones, spill := false } }) ∧
  ∀ s : State, s.waterOn = true → s.cl.guard = true → ∃ t, exec .waterMapUpdate s = .next t ∧
    t = { s with regs := t.regs, flagged := t.flagged, cl := { s.cl with zones := t.cl.zones, spill := t.cl.spill } } ∧
    t.cl.zones.length = s.cl.zones.length ∧
    (∀ z, s.zoneCand z = true ↔ ((s.reg 0x240F).toNat : Rat) ≤ s.zoneMutual z ∧
      16 * s.zoneSelf z < (((s.reg 0x240E).toNat % 64 : Nat) : Rat) * s.zoneMutual z) ∧
    (∀ (z : Nat) (x y : Zone), s.cl.zones[z]? = some x → t.cl.zones[z]? = some y →
      (s.zoneCand z = true → y.cand = x.cand + 1 ∧ y.dry = 0 ∧ (y.wet = true ↔ x.wet = true ∨ 2 ≤ x.cand + 1)) ∧
      (s.zoneCand z = false → y.cand = 0 ∧ y.dry = x.dry + 1 ∧
        (y.wet = true ↔ x.wet = true ∧ x.dry + 1 < max 1 ((s.reg 0x240E).toNat / 2048))) ∧
      (z < 16 → (t.reg 0x2410).getLsbD z = y.wet)) ∧
    ((t.reg 0x2403).getLsbD 4 = true ↔ (s.reg 0x2403).getLsbD 4 = true ∨
      ∃ (z : Nat) (x y : Zone), s.cl.zones[z]? = some x ∧ t.cl.zones[z]? = some y ∧ x.wet = false ∧ y.wet = true) ∧
    t.spillNow = t.cl.spill ∧ (t.cl.spill = true ↔ max 1 (min 16 ((s.reg 0x240E).toNat / 64 % 32)) ≤ (t.cl.zones.filter (·.wet)).length) ∧
    (t.dropNow = true ↔ 1 ≤ (t.cl.zones.filter (·.wet)).length ∧ t.cl.spill = false) ∧
    (t.reg 0x2403).getLsbD 5 = ((s.reg 0x2403).getLsbD 5 || (t.cl.spill && !s.cl.spill)) ∧ s.regsKept t [0x2410, 0x2403]

/-- R136, R228: a contact whose reference has stood for STUCKT closes, its footprint is re-acquired and STUCK sets; one that has
moved since stays, and so does every contact while the core is halted (log entry 58). Drives that reach their limit in the DFT window of M0 to M5, or of SC with a guard tone, set OVLD, and
OVLDA keeps the lowest of the first event since it was read; outside those windows nothing happens. Model's readings: log
entries 15, 53, 58. -/
def Obligations.StuckAndOverload : Prop :=
  (∀ (id : Nat) (s : State), s.ms.halted = true ∨ (∀ c ∈ s.tr.contacts, c.id = id → s.stuckNow c = false) → exec (.stuck id) s = .next s) ∧
  (∀ (id : Nat) (s : State), s.ms.halted = false → (∃ c ∈ s.tr.contacts, c.id = id ∧ s.stuckNow c = true) → ∃ t, exec (.stuck id) s = .next t ∧
    t.tr.contacts = s.tr.contacts.filter (fun c => decide (c.id ≠ id)) ∧ s.tr.reacq.length < t.tr.reacq.length ∧
    (t.reg 0x2503).getLsbD 1 = true ∧ t.scan = s.scan ∧ t.sv = s.sv ∧ t.ms = { s.ms with idleAt := t.ms.idleAt } ∧
    s.bytesKept t) ∧
  (∀ (ds : List Nat) (s : State), s.driveWindow = false ∨ (∀ d ∈ ds, 64 ≤ d) → exec (.ovld ds) s = .next s) ∧
  ∀ (ds : List Nat) (s : State) (d : Nat), s.driveWindow = true → d ∈ ds → d < 64 → (∀ x ∈ ds, d ≤ x) → ∃ t, exec (.ovld ds) s = .next t ∧
    t = { s with regs := t.regs, flagged := t.flagged, dg := { s.dg with ovlNow := t.dg.ovlNow } } ∧ t.reg 0x0403 = s.reg 0x0403 ||| 1 ∧
    t.reg 0x040B = (if (s.reg 0x040B).getLsbD 15 = true then s.reg 0x040B else w16 (0x8000 + d)) ∧
    s.regsKept t [0x0403, 0x040B] ∧ (∀ x, x ∈ t.dg.ovlNow ↔ x ∈ s.dg.ovlNow ∨ (x ∈ ds ∧ x < 64))

/-- R148, R149, R150, R152, R153, R272, R376: a change of the ball's level starts the deglitch, and ends one under way where it
turns back before its D hc; a level that has stood for D hc is due, and with BLANK sampled and EN set makes the effective level
asserted, starts its time and, where BLANK is honored, pauses the slot that runs; a deassertion ends the pause TAIL hc later,
with TAIL 0 or on a slot's h = 0 at once, but as the 65th edge leaves it to BLANK_CHATTER. A pause that ends with its slot
BLANKED emits 80 bins per sensing with that tag and runs the slot again. Which reading of a row applies, and the values of
those bins, are the model's: log entries 2, 3, 15, 70. -/
def Obligations.BlankGate : Prop :=
  (∀ (i : Instr) (level : Bool) (s : State), (i = .blankAssert ∧ level = true ∨ i = .blankDeassert ∧ level = false) →
    (s.blankDue = none → s.blankRaw = level → exec i s = .next s) ∧
    (s.blankDue = none → s.blankRaw ≠ level → ∃ t, exec i s = .next t ∧ t.blankRaw = level ∧
      t = { s with scan := { s.scan with blkBall := t.scan.blkBall, blkAt := t.scan.blkAt } } ∧
      (s.sampled = false ∨ (s.reg 0x0608).getLsbD 0 = false → t.scan.blkAt = s.scan.blkAt) ∧
      (s.sampled = true → (s.reg 0x0608).getLsbD 0 = true →
        (s.scan.blkEff = level → t.scan.blkAt = none) ∧
        (s.scan.blkEff ≠ level → s.blankGoing = false → t.scan.blkAt = some (s.now + s.deglitch, level, false)))) ∧
    (∀ due off, s.blankDue = some (due, off) → due ≠ level → ∃ t, exec i s = .next t ∧ t.blankRaw = level ∧
      t = { s with scan := { s.scan with blkBall := t.scan.blkBall, blkAt := t.scan.blkAt } } ∧
      (off = false → t.scan.blkAt = s.scan.blkAt)) ∧
    (s.blankDue = some (level, true) → exec i s = .next { s with scan := { s.scan with blkAt := none } })) ∧
  (∀ s u : State, s.countHc = u → s.blankDue = some (true, false) →
    (u.scan.blkEff = true ∨ u.sampled = false ∨ (u.reg 0x0608).getLsbD 0 = false → ∃ t, exec .blankAssert s = .next t ∧
      t = { u with scan := { u.scan with blkAt := t.scan.blkAt } }) ∧
    (u.scan.blkEff = false → u.sampled = true → (u.reg 0x0608).getLsbD 0 = true → ∃ t, exec .blankAssert s = .next t ∧
      t = { u with regs := t.regs, flagged := t.flagged, scan := t.scan, agenda := t.agenda, tm := t.tm } ∧
      t.scan = { u.scan with blkEff := true, blkTime := 0, edges := t.scan.edges, paused := t.scan.paused, tailAt := t.scan.tailAt,
                             blkAt := if u.blankRaw then none else some (s.now + u.deglitch, false, false) } ∧
      (u.slotRuns = true → t.scan.edges = u.scan.edges + 1) ∧
      (u.slotRuns = true → u.blankIgnored = false → t.scan.paused = true ∧ t.scan.tailAt = none) ∧
      (u.slotRuns = false ∨ u.blankIgnored = true → t.scan.paused = u.scan.paused ∧ t.scan.tailAt = u.scan.tailAt) ∧
      u.regsKept t [0x2803])) ∧
  (∀ s u : State, s.countHc = u → s.blankDue = some (false, false) →
    (u.sampled = false ∨ u.scan.blkEff = false → ∃ t, exec .blankDeassert s = .next t ∧
      t = { u with scan := { u.scan with blkAt := t.scan.blkAt } }) ∧
    (u.sampled = true → u.scan.blkEff = true → u.scan.paused = true → u.scan.edges < 64 → (u.reg 0x0608).toNat / 4 % 256 ≠ 0 →
      u.slotRuns = false ∨ u.scan.h ≠ 0 ∨ u.scan.pauseCount ≠ 0 →
      ∃ t, exec .blankDeassert s = .next t ∧ t = { u with regs := t.regs, flagged := t.flagged, scan := t.scan, agenda := t.agenda, tm := t.tm } ∧
        t.scan.blkEff = false ∧ t.scan.blkTime = 0 ∧ t.scan.stuckIgn = u.scan.stuckIgn ∧ t.scan.paused = true ∧ t.scan.slot = u.scan.slot ∧
        t.scan.h = u.scan.h ∧ t.scan.tailAt = some (s.now + (u.reg 0x0608).toNat / 4 % 256) ∧
        (s.now + (u.reg 0x0608).toNat / 4 % 256, Instr.pauseEnd) ∈ t.agenda ∧ u.regsKept t [0x2803]) ∧
    (u.sampled = true → u.scan.blkEff = true → u.scan.paused = true → u.slotRuns = true → u.scan.h = 0 → u.scan.pauseCount = 0 →
      u.scan.edges < 64 → ∃ t, exec .blankDeassert s = .next t ∧ t.scan.blkEff = false ∧ t.scan.paused = false ∧ t.scan.tailAt = none ∧
        t.scan.h = 0 ∧ t.scan.slot = u.scan.slot ∧ u.regsKept t [0x2803]) ∧
    (u.sampled = true → u.scan.blkEff = true → u.scan.paused = true → u.scan.edges < 64 → (u.reg 0x0608).toNat / 4 % 256 = 0 →
      u.scan.marked = false → u.scan.pauseCount < 2561 →
      ∃ t, exec .blankDeassert s = .next t ∧ t.scan.blkEff = false ∧ t.scan.paused = false ∧ t.scan.h = u.scan.h ∧
        t.scan.slot = u.scan.slot ∧ t.scan.tailAt = none) ∧
    (u.sampled = true → u.scan.blkEff = true → u.scan.paused = true → u.slotRuns = true → u.scan.edges = 64 → u.scan.chatIgn = false →
      ∃ t, exec .blankDeassert s = .next t ∧ t.scan.blkEff = false ∧ t.scan.paused = true ∧ t.scan.edges = 65 ∧
        (s.now, Instr.blankChatter) ∈ t.agenda)) ∧
  (∀ s : State, s.scan.tailAt = none ∨ s.scan.blkEff = true → exec .pauseEnd s = .next s) ∧
  (∀ (s : State) (h : Nat), s.scan.tailAt = some h → s.scan.blkEff = false →
    (s.now < h ∨ s.scan.paused = false ∨ s.blankedDue = true → exec .pauseEnd s = .next s) ∧
    (h ≤ s.now → s.scan.paused = true → s.scan.marked = false → s.scan.pauseCount < 2561 →
      exec .pauseEnd s = .next { s with scan := { s.scan with paused := false, tailAt := none } }) ∧
    (∀ e, h ≤ s.now → s.scan.paused = true → s.scan.marked = true → s.scan.slot = some (.regular e) → s.inj.phase ≠ .pending →
      ∃ t, exec .pauseEnd s = .next t ∧ t.scan.slot = some (.regular e) ∧ t.scan.h = 0 ∧ t.scan.lead = 0 ∧ t.scan.paused = false ∧
        t.scan.marked = false ∧ t.scan.pauseCount = 0 ∧ t.scan.edges = 0 ∧
        (∃ r, t.scan.flight = s.scan.flight ++ [r] ∧ r.cutAs (.regular e) .blanked (s.now + 1024)) ∧
        t.reg 0x060C = w16 (min 65535 s.scan.pauseCount) ∧ s.regsKept t [0x060C] ∧ s.bytesKept t))

/-- R143, R150, R152, R153: a pause of 2,561 hc marks the slot BLANKED, sets the flag and counts it, and the pause goes on, or
where its end falls on this hc the slot runs again; the 65th edge in a slot and BLKMAX reached make BLANK ignored, set their
flag and end a pause at once. Without their cause the three do nothing. Whether a sample of the cut window clipped is a free
value. Model's readings: log entries 3, 15. -/
def Obligations.BlankLimits : Prop :=
  (∀ s : State, s.scan.paused = false ∨ s.scan.marked = true ∨ s.scan.pauseCount < 2561 → exec .blanked s = .next s) ∧
  (∀ s : State, s.scan.paused = true → s.scan.marked = false → 2561 ≤ s.scan.pauseCount →
    (s.blankIgnored = false → s.scan.tailAt = none ∨ s.scan.blkEff = true → ∃ t, exec .blanked s = .next t ∧
      t = { s with regs := t.regs, flagged := t.flagged, scan := { s.scan with marked := true } } ∧ t.reg 0x0603 = s.reg 0x0603 ||| 4 ∧
      (t.reg 0x060B).toNat = min 65535 ((s.reg 0x060B).toNat + 1) ∧ s.regsKept t (0x0603 :: 0x060B :: laneFlags) ∧
      (s.scan.h ≤ 2048 → s.regsKept t [0x0603, 0x060B]) ∧
      ∀ k, k < 17 → t.reg (laneAddr k 3) = s.reg (laneAddr k 3) ∨ t.reg (laneAddr k 3) = s.reg (laneAddr k 3) ||| 2) ∧
    (∀ e h, s.scan.tailAt = some h → h ≤ s.now → s.scan.blkEff = false → s.scan.slot = some (.regular e) → s.inj.phase ≠ .pending →
      ∃ t, exec .blanked s = .next t ∧ t.scan.slot = some (.regular e) ∧ t.scan.h = 0 ∧ t.scan.lead = 0 ∧ t.scan.paused = false ∧
        t.scan.marked = false ∧ t.scan.pauseCount = 0 ∧ t.reg 0x0603 = s.reg 0x0603 ||| 4 ∧
        (t.reg 0x060B).toNat = min 65535 ((s.reg 0x060B).toNat + 1) ∧ t.reg 0x060C = w16 (min 65535 s.scan.pauseCount) ∧
        (∃ r, t.scan.flight = s.scan.flight ++ [r] ∧ r.cutAs (.regular e) .blanked (s.now + 1024)) ∧
        s.regsKept t (0x0603 :: 0x060B :: 0x060C :: laneFlags) ∧ s.bytesKept t)) ∧
  (∀ s : State, s.slotRuns = false ∨ s.scan.edges < 65 ∨ s.scan.chatIgn = true → exec .blankChatter s = .next s) ∧
  (∀ s : State, s.slotRuns = true → 65 ≤ s.scan.edges → s.scan.chatIgn = false → s.scan.marked = false → s.scan.pauseCount < 2561 →
    ∃ t, exec .blankChatter s = .next t ∧ t.reg 0x0603 = s.reg 0x0603 ||| 2 ∧ s.regsKept t [0x0603] ∧
      t = { s with regs := t.regs, flagged := t.flagged, scan := { s.scan with chatIgn := true, paused := false, tailAt := t.scan.tailAt } } ∧
      (s.scan.paused = true → t.scan.tailAt = none)) ∧
  (∀ s : State, s.scan.blkEff = false ∨ s.scan.stuckIgn = true ∨ s.scan.blkTime < s.blankLimit → exec .blankStuck s = .next s) ∧
  ∀ s : State, s.scan.blkEff = true → s.scan.stuckIgn = false → s.blankLimit ≤ s.scan.blkTime → s.scan.marked = false →
    s.scan.pauseCount < 2561 →
    ∃ t, exec .blankStuck s = .next t ∧ t.reg 0x0603 = s.reg 0x0603 ||| 1 ∧ s.regsKept t [0x0603] ∧
      t = { s with regs := t.regs, flagged := t.flagged, scan := { s.scan with stuckIgn := true, paused := false, tailAt := t.scan.tailAt } } ∧
      (s.scan.paused = true → t.scan.tailAt = none)

/-- R189, R190, R377: clearing LANE.BLANK.EN deasserts the effective level on that hc and calls off a change under way; setting
it, or a change of POL, has the level follow the deglitch. A change at the VSYNC ball is sampled and waits D hc, with the
polarity in force at the change; a VSYNC edge is taken then, and in VSYNC mode locks and gives the target v − 16 × RLAG, v the
hc of the ball's change, and VLOST is timed 4 × RPER after that target; no edge until then unlocks with VLOST. That an edge
whose target is discarded still times VLOST is the model's reading (log entry 35). Further readings: log entries 2, 15, 16,
70. -/
def Obligations.BlankWriteAndVsync : Prop :=
  (∀ (v : Word) (s : State), s.takes 0x0608 → ∃ t, exec (.laneBlankWrite v) s = .next t ∧ t.reg 0x0608 = v &&& 0x3FF ∧
    (v.getLsbD 0 = false → t.scan.blkEff = false ∧ ∀ x, t.scan.blkAt = some x → x.2.2 = true) ∧
    (v.getLsbD 0 = true → t.scan = { s.scan with blkAt := t.scan.blkAt } ∧ t.agenda = s.agenda) ∧
    (v.getLsbD 0 = true → (s.reg 0x0608).getLsbD 0 = false → s.sampled = true → s.scan.blkBall ≠ v.getLsbD 1 → s.scan.blkEff = false →
      s.blankGoing = false → t.scan.blkAt = some (s.now + s.deglitch, true, false)) ∧
    (v.getLsbD 0 = true → (s.reg 0x0608).getLsbD 0 = true → (s.reg 0x0608).getLsbD 1 = v.getLsbD 1 → t.scan = s.scan) ∧
    t.rq = s.rq ∧ t.tr = s.tr ∧ t.ms = s.ms ∧ t.link = s.link ∧ s.bytesKept t) ∧
  (∀ s : State, s.vsDue = none → ∃ t, exec .vsyncEdge s = .next t ∧ t.scan.vsBall = !s.scan.vsBall ∧
    t = { s with scan := { s.scan with vsBall := t.scan.vsBall, vsAt := t.scan.vsAt } } ∧
    (s.sampled = false → t.scan.vsAt = s.scan.vsAt) ∧
    (s.sampled = true → (t.scan.vsBall = s.scan.vsEff → t.scan.vsAt = none) ∧
      (t.scan.vsBall ≠ s.scan.vsEff → s.scan.vsAt = none →
        t.scan.vsAt = some (s.now + s.deglitch, t.scan.vsBall != (s.reg 0x220D).getLsbD 0)))) ∧
  (∀ s : State, s.vsDue = some false →
    exec .vsyncEdge s = .next { s with scan := { s.scan with vsEff := s.scan.vsBall, vsAt := none } }) ∧
  (∀ s u : State, s.vsDue = some true → s.vsTake.countHc = u →
    (u.sampled = false → exec .vsyncEdge s = .next u) ∧
    (u.sampled = true → u.rmode = false → ∃ t, exec .vsyncEdge s = .next t ∧
      t = { u with regs := t.regs, flagged := t.flagged, tm := t.tm } ∧ u.regsKept t [0x2803]) ∧
    (u.sampled = true → u.rmode = true → ∃ t w, exec .vsyncEdge s = .next t ∧ t.sv.locked = true ∧
      w = ((u.tb.hcpos - u.deglitch : Nat) : Int) - 16 * (u.reg 0x220C).toNat ∧ t.sv.lastTarget = some (32 * w) ∧
      (u.sv.locked = false → (t.reg 0x2203).getLsbD 1 = true) ∧
      (s.now + (w + 4 * u.rper - u.tb.hcpos).toNat, Instr.vlost) ∈ t.agenda ∧
      (∀ h, (h, Instr.vlost) ∈ t.agenda → h = s.now + (w + 4 * u.rper - u.tb.hcpos).toNat) ∧
      t = { u with regs := t.regs, flagged := t.flagged, tm := t.tm, sv := t.sv, agenda := t.agenda } ∧ u.regsKept t [0x2803, 0x2203, 0x220F])) ∧
  ∀ s : State,
    ((∃ e ∈ s.agenda, e.2 = Instr.vlost) ∨ s.rmode = false ∨ s.sv.locked = false → exec .vlost s = .next s) ∧
    ((∀ e ∈ s.agenda, e.2 ≠ Instr.vlost) → s.rmode = true → s.sv.locked = true → ∃ t, exec .vlost s = .next t ∧
      t = { s with regs := t.regs, flagged := t.flagged, sv := { s.sv with locked := false } } ∧ t.reg 0x2203 = s.reg 0x2203 ||| 4 ∧ s.regsKept t [0x2203])

/-- R165 to R172, R204: a trigger that arises while IPEND is 1 merges and is recorded; one that R171 holds, or that arises on the
hc of a frame boundary, waits for that boundary; one in REST starts the exit ramp at once; in a slot whose lanes all have RESUME the slot is abandoned and counted, else the sequence
waits for the slot's end. After the exit ramp injected slot 0 starts; the last hc of the re-entry ramp sets IDONE, counts,
makes a re-plan due and goes on in the regular list. Without its cause each event does nothing. Model's readings: log
entries 15, 17. -/
def Obligations.InjectedSequence : Prop :=
  (∀ (h c : Bool) (s : State), (h = false ∧ c = false) ∨ s.hcDriven = false → exec (.injectedSequenceTrigger h c) s = .next s) ∧
  (∀ (h c : Bool) (s : State), h = true ∨ c = true → s.hcDriven = true →
    (s.inj.phase ≠ .idle → ∃ t, exec (.injectedSequenceTrigger h c) s = .next t ∧ t = { s with regs := t.regs, flagged := t.flagged } ∧
      t.reg 0x210C = s.reg 0x210C ||| w16 (b2n h + 2 * b2n c) ∧
      t.reg 0x2103 = (if s.inj.trigAt ≠ s.now then s.reg 0x2103 ||| 4 else s.reg 0x2103) ∧ s.regsKept t [0x210C, 0x2103]) ∧
    (s.inj.phase = .idle → s.injHeld = true ∨ s.boundaryDue = true → ∃ t, exec (.injectedSequenceTrigger h c) s = .next t ∧
      t = { s with regs := t.regs, flagged := t.flagged, inj := { s.inj with trigAt := s.now, phase := .held } } ∧
      t.reg 0x210C = w16 (b2n h + 2 * b2n c) ∧ s.regsKept t [0x210C]) ∧
    (s.inj.phase = .idle → s.injHeld = false → s.boundaryDue = false → (∀ e, s.scan.slot ≠ some (.regular e)) →
      ∃ t, exec (.injectedSequenceTrigger h c) s = .next t ∧ t.inj.phase = .exitRamp ∧ t.inj.rampFrom = s.now ∧ t.inj.resume = none ∧
        t.scan.slot = none ∧ (s.now + s.ramp, Instr.exitRampEnd) ∈ t.agenda ∧ t.reg 0x2103 = s.reg 0x2103 ||| 1 ∧
        t.reg 0x210C = w16 (b2n h + 2 * b2n c + 64) ∧ s.regsKept t [0x210C, 0x2103] ∧ t.rq = s.rq ∧ t.tr = s.tr) ∧
    (∀ e, e < 8 → s.inj.phase = .idle → s.injHeld = false → s.scan.slot = some (.regular e) → s.clk.relock = none → s.slotRuns = true →
      (s.resumePolicy = true → s.scan.marked = false → ∃ t, exec (.injectedSequenceTrigger h c) s = .next t ∧
        t.inj.phase = .exitRamp ∧ t.inj.resume = some e ∧ t.inj.rampFrom = s.now ∧ t.scan.slot = none ∧
        (s.now + s.ramp, Instr.exitRampEnd) ∈ t.agenda ∧ t.reg 0x2103 = s.reg 0x2103 ||| 17 ∧
        (t.reg 0x210A).toNat = min 65535 ((s.reg 0x210A).toNat + 1) ∧
        t.reg 0x210C = w16 (b2n h + 2 * b2n c + 4 * e + 32) ∧ s.regsKept t [0x210C, 0x2103, 0x210A] ∧ t.rq = s.rq ∧ t.tr = s.tr) ∧
      (s.resumePolicy = false ∨ s.scan.marked = true → ∃ t, exec (.injectedSequenceTrigger h c) s = .next t ∧
        t = { s with regs := t.regs, flagged := t.flagged, inj := { s.inj with trigAt := s.now, phase := .pending } } ∧
        t.reg 0x210C = w16 (b2n h + 2 * b2n c + 4 * e) ∧ s.regsKept t [0x210C]))) ∧
  (∀ s : State, s.inj.phase ≠ .exitRamp ∨ s.now < s.inj.rampFrom + s.ramp → exec .exitRampEnd s = .next s) ∧
  (∀ s : State, s.inj.phase = .exitRamp → s.inj.rampFrom + s.ramp ≤ s.now → ∃ t, exec .exitRampEnd s = .next t ∧
    t = { s with inj := { s.inj with phase := .slots }, scan := t.scan, clk := t.clk } ∧ t.scan.slot = some (.injected 0) ∧
    t.scan.h = 0 ∧ t.scan.lead = 0 ∧ t.scan.frameNo = s.scan.frameNo) ∧
  (∀ s : State, s.inj.phase ≠ .reentryRamp ∨ s.now + 1 < s.inj.rampFrom + s.ramp → exec .injectedSequenceEnd s = .next s) ∧
  ∀ s : State, s.inj.phase = .reentryRamp → s.inj.rampFrom + s.ramp ≤ s.now + 1 → ∃ t, exec .injectedSequenceEnd s = .next t ∧
    t = { s with regs := t.regs, flagged := t.flagged, inj := { s.inj with phase := .idle }, scan := t.scan, cl := { s.cl with replanAt := s.cl.replanAt ++ [s.now + 2048] } } ∧
    t.reg 0x2103 = s.reg 0x2103 ||| 2 ∧ (t.reg 0x2109).toNat = min 65535 ((s.reg 0x2109).toNat + 1) ∧ s.regsKept t [0x2103, 0x2109] ∧
    (∀ e, s.inj.resume = some e → t.scan.slot = some (.regular e) ∧ t.scan.lead = 1 ∧ t.scan.nextAt = s.scan.nextAt) ∧
    (∀ b, s.inj.resume = none → s.scan.nextAt = some b → t.scan.slot = s.scan.slot ∧ t.scan.nextAt = some (max b (s.now + 1)) ∧
      t.scan.rest = decide (s.now + 1 < b))

/-- R258, R259, R260, R264, R265: a Scarecrow cycle runs only in DORMANT outside an exit, on its ticker edge, and there it starts
for every state: STAT.FAST shows its schedule, its looks are those of the enabled gangs in order, in a refresh cycle with their
quarters, and with no gang enabled it ends at once, the next one at least a period of 512 fast-ticker periods later. When a
look of it ends, the entry pass recognizes nothing; a completed gesture wakes the part and ends the cycle; else the quarter
looks that this look calls for run next, then the other looks of the cycle, and then the next cycle follows. Model's readings:
log entries 15, 18, 51. -/
def Obligations.ScarecrowCycles : Prop :=
  (∀ (l : List GangLook) (s : State), s.cycleDue = false ∨ s.ms.mode ≠ .dormant ∨ s.ms.exit ≠ .none →
    exec (.scarecrowCycle l) s = .next s) ∧
  (∀ (l : List GangLook) (s : State), s.cycleDue = true → s.ms.mode = .dormant → s.ms.exit = .none →
    ∃ t, exec (.scarecrowCycle l) s = .next t ∧ t = { s with regs := t.regs, flagged := t.flagged, sk := t.sk } ∧ (∀ a, pageOf a ≠ 0x27 → t.reg a = s.reg a) ∧
      t.reg 0x2702 = w16 (256 * b2n s.sk.fast) ∧ t.sk.running = s.sk.running ∧
      ((List.range 4).filter s.gangOn ≠ [] → s.regsKept t [0x2702] ∧
        t.sk = { s.sk with refreshAt := t.sk.refreshAt, cyc := t.sk.cyc } ∧
        (0 < s.sk.passLeft ∨ s.sk.cycleAt < s.sk.refreshAt → t.sk.refreshAt = s.sk.refreshAt) ∧
        (s.sk.passLeft = 0 → s.sk.refreshAt ≤ s.sk.cycleAt → s.sk.cycleAt < t.sk.refreshAt) ∧
        ∃ c, t.sk.cyc = some c ∧ c.start = s.sk.cycleAt ∧ c.looks = l ∧ c.began = s.sk.cycleAt ∧ s.sk.cycleAt + s.lookLen ≤ c.ends ∧
          (c.force = true ↔ s.sk.passLeft = 0 ∧ s.sk.refreshAt ≤ s.sk.cycleAt) ∧
          c.todo = ((List.range 4).filter s.gangOn).map SkLook.gang ++
            (if c.force then ((List.range 4).filter s.gangOn).flatMap (fun g => quarterLooks g .refresh) else [])) ∧
      ((List.range 4).filter s.gangOn = [] → t.sk.cyc = none ∧ s.sk.cycleAt + 512 ≤ t.sk.cycleAt ∧
        t.sk.passLeft = s.sk.passLeft - 1)) ∧
  ∀ (s : State) (c : Cycle) (i : SkLook) (rest : List SkLook), s.sk.cyc = some c → c.todo = i :: rest → s.ms.wake = false →
    (0 < s.sk.passLeft → (s.itemLook c i).2.1 = 0) ∧
    ((s.itemLook c i).2.1 ≠ 0 → s.itemDone.ms.wake = true ∧ s.itemDone.ms.exit = .waitClock ∧ s.itemDone.ms.ageFrom = s.ft ∧
      s.itemDone.reg 0x2728 = w16 (s.itemLook c i).2.1 ∧ s.itemDone.sk.cyc = none ∧ s.itemDone.sk.running = false) ∧
    ((s.itemLook c i).2.1 = 0 → s.itemDone.ms = s.ms ∧ s.itemDone.link = s.link ∧
      ((s.itemLook c i).2.2 = [] → rest = [] → s.itemDone.sk.cyc = none ∧ c.start + 512 ≤ s.itemDone.sk.cycleAt) ∧
      (∀ j l, (s.itemLook c i).2.2 = j :: l → s.itemDone.lookSkipped j = false → ∃ d, s.itemDone.sk.cyc = some d ∧
        d.todo = (j :: l) ++ rest ∧ d.start = c.start ∧ d.began = c.ends ∧ c.ends + s.lookLen ≤ d.ends))

/-- R271, R274, R272, R275: a write to TCTRL keeps MODE where 5 to 7 is written, restarts nothing where MODE stays, and else
takes the start state of the new mode; SYNC takes the start state of each selected timer that is not frozen; ARM in Measure
mode sets COUNT to 0 and arms, in another mode it does nothing; SWCAP is event 7 at its timer alone; a STOP ends the count
with its hc. Other timers stay. Model's readings: log entries 10, 16, 53. -/
def Obligations.TimerControl : Prop :=
  (∀ (n : Nat) (v : Word) (s : State), 6 ≤ n → exec (.timerModeChange n v) s = .next s ∧ exec (.timerArm n) s = .next s ∧
    exec (.timerSwcap n) s = .next s) ∧
  (∀ (n : Nat) (v : Word) (s : State), n < 6 → s.takes (0x2810 + 16 * n) → ∃ t, exec (.timerModeChange n v) s = .next t ∧
    t = { s with tm := t.tm } ∧ (∀ m, m ≠ n → t.timer m = s.timer m) ∧
    (v.toNat % 8 < 5 → ((t.timer n).ctrl = v &&& 0x07FF)) ∧
    (5 ≤ v.toNat % 8 → ((t.timer n).ctrl = (v &&& 0x07F8) ||| ((s.timer n).ctrl &&& 7))) ∧
    (t.timer n).perBuf = (s.timer n).perBuf ∧ (t.timer n).cap = (s.timer n).cap ∧ (t.timer n).sel = (s.timer n).sel ∧
    (v.getLsbD 11 = false → v.getLsbD 12 = false →
      ((t.timer n).mode = (s.timer n).mode → t.timer n = { s.timer n with ctrl := (t.timer n).ctrl }) ∧
      ((t.timer n).mode ≠ (s.timer n).mode → (t.timer n).armed = false ∧ (t.timer n).counting = false ∧ (t.timer n).pre = 0 ∧
        ((t.timer n).mode = 0 → (t.timer n).count = (s.timer n).count ∧ (t.timer n).period = (s.timer n).perBuf) ∧
        ((t.timer n).mode = 1 → (t.timer n).count = 0 ∧ (t.timer n).period = (s.timer n).period) ∧
        ((t.timer n).mode = 2 → (t.timer n).count = (s.timer n).p ∧ (t.timer n).period = (s.timer n).period) ∧
        ((t.timer n).mode = 3 → (t.timer n).count = 0 ∧ (t.timer n).down = false ∧ (t.timer n).period = (s.timer n).period) ∧
        ((t.timer n).mode = 4 → (t.timer n).count = 0 ∧ (t.timer n).period = (s.timer n).perBuf)))) ∧
  (∀ (mask : Word) (s : State), s.takes 0x2801 → ∃ t, exec (.timerSync mask) s = .next t ∧ t = { s with tm := t.tm } ∧
    ∀ n, n < 6 →
      (mask.getLsbD n = false ∨ s.timerFrozen n = true → t.timer n = s.timer n) ∧
      (mask.getLsbD n = true → s.timerFrozen n = false → (t.timer n).ctrl = (s.timer n).ctrl ∧ (t.timer n).period = (s.timer n).period ∧
        ((s.timer n).mode = 1 ∨ (s.timer n).mode = 3 ∨ (s.timer n).mode = 4 → (t.timer n).count = 0) ∧
        ((s.timer n).mode = 2 → (t.timer n).count = (s.timer n).p) ∧ ((s.timer n).mode = 0 → (t.timer n).count = (s.timer n).count) ∧
        ((s.timer n).mode = 3 → (t.timer n).down = false) ∧ (t.timer n).armed = false ∧ (t.timer n).counting = false)) ∧
  (∀ (n : Nat) (s : State), n < 6 → s.takes (0x2810 + 16 * n) → ∃ t, exec (.timerArm n) s = .next t ∧ t = { s with tm := t.tm } ∧
    (∀ m, m ≠ n → t.timer m = s.timer m) ∧ (t.timer n).ctrl = (s.timer n).ctrl &&& 0x07FF ∧
    ((s.timer n).mode = 4 → (t.timer n).count = 0 ∧ (t.timer n).armed = true ∧ (t.timer n).counting = false ∧
      (t.timer n).cap = (s.timer n).cap ∧ (t.timer n).req = (s.timer n).req) ∧
    ((s.timer n).mode ≠ 4 → t.timer n = { s.timer n with ctrl := (s.timer n).ctrl &&& 0x07FF })) ∧
  ∀ (n : Nat) (s : State), n < 6 → s.takes (0x2810 + 16 * n) → ∃ t, exec (.timerSwcap n) s = .next t ∧ t = { s with tm := t.tm } ∧
    (∀ m, m ≠ n → t.timer m = s.timer m) ∧ (t.timer n).ctrl = (s.timer n).ctrl &&& 0x07FF ∧ (t.timer n).cap = (s.timer n).cap ∧
    (s.timerFrozen n = true ∨ (s.timer n).mode = 0 → t.timer n = { s.timer n with ctrl := (s.timer n).ctrl &&& 0x07FF }) ∧
    (s.timerFrozen n = false → 1 ≤ (s.timer n).mode → (s.timer n).mode ≤ 3 → (t.timer n).count = (s.timer n).count ∧
      ((s.timer n).csrc = 7 → (t.timer n).req = .capture) ∧ ((s.timer n).csrc ≠ 7 → (t.timer n).req = (s.timer n).req)) ∧
    (s.timerFrozen n = false → (s.timer n).mode = 4 → (s.timer n).armed = true → (s.timer n).counting = false → (s.timer n).csrc = 7 →
      (t.timer n).counting = true ∧ (t.timer n).count = (if (s.timer n).stay then (s.timer n).count else 0) ∧ (t.timer n).armed = true) ∧
    (s.timerFrozen n = false → (s.timer n).mode = 4 → (s.timer n).armed = true → (s.timer n).counting = true → (s.timer n).stop = 7 →
      (t.timer n).armed = false ∧ (t.timer n).req = .measured ∧ (t.timer n).count = (s.timer n).count ∧
      (t.timer n).latchReq.counting = false ∧
      (t.timer n).latchReq.latch = some ((s.timer n).count, false, decide ((s.timer n).count = 0)))

/-- R270, R272, R274, R95: a WRAP event sets its flag, returns COUNT and takes the buffered PERIOD, but none comes on an hc that
starts the timer or commits its COUNT (R99, log entry 10); a capture is installed in
CAP with CAPN and its flag, OVR where CAPN was 1, and LSTALE where it changes a shadowed value; in Measure mode the first
CSRC event of an armed timer starts it at 0, but leaves a COUNT committed on that hc (R99), and a STOP event ends it with its
hc, with ORDER where it was not started. Otherwise nothing happens. Model's readings: log entries 2, 10, 15. -/
def Obligations.TimerEvents : Prop :=
  (∀ (n : Nat) (s : State), 6 ≤ n ∨ s.timerFrozen n = true ∨ (s.timer n).fresh = true ∨ (s.timer n).stay = true ∨ (s.timer n).step.2 = false →
    exec (.timerWrap n) s = .next s) ∧
  (∀ (n : Nat) (s : State), n < 6 → s.timerFrozen n = false → (s.timer n).fresh = false → (s.timer n).stay = false → (s.timer ((n + 1) % 6)).clk ≠ 5 →
    ((s.timer n).mode = 1 ∧ (s.timer n).count = (s.timer n).p ∨ (s.timer n).mode = 2 ∧ (s.timer n).count = 0 ∨
      (s.timer n).mode = 3 ∧ (s.timer n).down = true ∧ (s.timer n).count ≤ 1) →
    ∃ t, exec (.timerWrap n) s = .next t ∧ t = { s with regs := t.regs, flagged := t.flagged, tm := t.tm } ∧
      t.reg 0x2803 = s.reg 0x2803 ||| w16 (2 ^ (6 + n)) ∧ s.regsKept t [0x2803] ∧
      (t.timer n).period = (s.timer n).perBuf ∧ (t.timer n).ctrl = (s.timer n).ctrl ∧
      ((s.timer n).mode = 1 ∨ (s.timer n).mode = 3 → (t.timer n).count = 0) ∧
      ((s.timer n).mode = 2 → (t.timer n).count = if (s.timer n).perBuf = 0 then 1 else (s.timer n).perBuf) ∧
      ((s.timer n).mode = 3 → (t.timer n).down = false) ∧ (∀ m, m ≠ n → m ≠ (n + 1) % 6 → t.timer m = s.timer m)) ∧
  (∀ (n : Nat) (s : State), (s.timer n).latch = none → exec (.timerCapture n) s = .next s) ∧
  (∀ (n v : Nat) (o r : Bool) (s : State), n < 6 → (s.timer n).latch = some (v, o, r) → ∃ t, exec (.timerCapture n) s = .next t ∧
    t = { s with regs := t.regs, flagged := t.flagged, tm := t.tm } ∧ (∀ m, m ≠ n → t.timer m = s.timer m) ∧
    t.timer n = { s.timer n with cap := v, capn := true, ovr := (s.timer n).ovr || (s.timer n).capn, order := o, res := r, latch := none } ∧
    t.reg 0x2803 = s.reg 0x2803 ||| w16 (2 ^ n) ∧
    t.reg 0x2802 = (if (s.timer n).cap ≠ v ∧ s.shadowed (0x2818 + 16 * n) = true then s.reg 0x2802 ||| 0x8000 else s.reg 0x2802) ∧
    s.regsKept t [0x2802, 0x2803]) ∧
  (∀ (n : Nat) (s u : State), s.countHc = u →
    (6 ≤ n ∨ u.timerFrozen n = true ∨ (u.timer n).mode ≠ 4 ∨ (u.timer n).counting = true ∨
      ((u.timer n).armed = false ∧ (u.timer n).req ≠ .order) → exec (.timerMeasureStart n) s = .next u) ∧
    (n < 6 → u.timerFrozen n = false → (u.timer n).mode = 4 → (u.timer n).armed = true → (u.timer n).counting = false →
      1 ≤ (u.timer n).csrc → (u.timer n).csrc ≤ 8 → ∃ t, exec (.timerMeasureStart n) s = .next t ∧ t = { u with tm := t.tm } ∧
        (t.timer n).counting = true ∧ (t.timer n).count = (if (u.timer n).stay then (u.timer n).count else 0) ∧
        (t.timer n).armed = true ∧ (t.timer n).cap = (u.timer n).cap ∧ ∀ m, m ≠ n → t.timer m = u.timer m)) ∧
  ∀ (n : Nat) (s u : State), s.countHc = u →
    (6 ≤ n ∨ u.timerFrozen n = true ∨ (u.timer n).mode ≠ 4 ∨ (u.timer n).armed = false → exec (.timerMeasureStop n) s = .next u) ∧
    (n < 6 → u.timerFrozen n = false → (u.timer n).mode = 4 → (u.timer n).armed = true → 1 ≤ (u.timer n).stop → (u.timer n).stop ≤ 8 →
      ∃ t, exec (.timerMeasureStop n) s = .next t ∧ t = { u with tm := t.tm } ∧ (∀ m, m ≠ n → t.timer m = u.timer m) ∧
        (t.timer n).cap = (u.timer n).cap ∧
        ((u.timer n).counting = true → (t.timer n).req = .measured ∧ (t.timer n).count = (u.timer n).count ∧
          (t.timer n).armed = false ∧ (t.timer n).latchReq.counting = false) ∧
        ((u.timer n).counting = false → (u.timer n).csrc ≠ (u.timer n).stop → (t.timer n).req = .order ∧ (t.timer n).armed = false) ∧
        ((u.timer n).counting = false → (u.timer n).csrc = (u.timer n).stop → (t.timer n).counting = true ∧
          (t.timer n).count = (if (u.timer n).stay then (u.timer n).count else 0)))

/-- R31, R277, R278, R279, R280: clearing EN drives GAUGE low on that hc and setting it starts a period on the next; a PWM period
picks up v and takes its high time from it; a rising edge in frequency mode picks up v and INC, and a limited frequency sets
CLAMP. A generator that does not run, or runs in the other mode, does neither. Model's readings: log entries 15, 16. -/
def Obligations.GaugeGenerator : Prop :=
  (∀ (en : Bool) (s u : State), s.countHc = u → u.takes 0x2901 → ∃ t, exec (.gaugeEnable en) s = .next t ∧
    t = { u with regs := t.regs, flagged := t.flagged, gg := t.gg } ∧ u.regsKept t [0x2901] ∧ (t.reg 0x2901).getLsbD 0 = en ∧
    (en = false → t.gg = { u.gg with level := false, startAt := none } ∧ (u.pw.phase = .on → t.gaugePin = .low)) ∧
    (en = true → (u.reg 0x2901).getLsbD 0 = false → t.gg.startAt = some (s.now + 1) ∧ t.gg.level = u.gg.level ∧ t.gg.v = u.gg.v)) ∧
  (∀ s : State, s.gaugeRuns = false → exec .gaugePeriod s = .next s ∧ exec .gaugeFreqEdge s = .next s) ∧
  (∀ s : State, s.gaugeRuns = true → (s.reg 0x2901).getLsbD 1 = false → exec .gaugeFreqEdge s = .next s ∧
    ∃ t, exec .gaugePeriod s = .next t ∧ t = { s with regs := t.regs, flagged := t.flagged, gg := t.gg } ∧ t.reg 0x290D = w16 s.gaugeSource ∧
      s.regsKept t [0x290D] ∧ t.gg.v = s.gaugeSource ∧ t.gg.phase = 0 ∧ t.gg.pre = 0 ∧
      t.gg.high = (s.gaugeSource * (max 1 (s.reg 0x2909).toNat + 1) + 32768) / 65535 ∧
      (t.gg.level = true ↔ 0 < t.gg.high) ∧ t.gg.startAt = none) ∧
  ∀ s : State, s.gaugeRuns = true → (s.reg 0x2901).getLsbD 1 = true → exec .gaugePeriod s = .next s ∧
    ∃ t, exec .gaugeFreqEdge s = .next t ∧ t = { s with regs := t.regs, flagged := t.flagged, gg := t.gg } ∧ t.reg 0x290D = w16 s.gaugeSource ∧
      t.gg.v = s.gaugeSource ∧ t.gg.level = true ∧ s.regsKept t [0x290D, 0x2903] ∧
      t.gg.inc = (roundDiv (max 10 (min (10 * ((s.reg 0x290B).toNat + s.gaugeSource * (s.reg 0x290C).toNat / 65536)) 200000) * 2 ^ 24 : Nat)
        (s.clk.decl * 1000)).toNat ∧
      t.reg 0x2903 = (if 10 ≤ s.gaugeFreq s.gaugeSource ∧ s.gaugeFreq s.gaugeSource ≤ 200000 then s.reg 0x2903 else s.reg 0x2903 ||| 1)

/-- R1, R9, R40, R46, R56, R57, R62, R64, R70, R77, R121, R175, R240, R242, R243, R245, R250, and log entry 1 (DESIGN CHOICE): on an
empty queue a step is one period of the block's clock. Where a measured value is awaited nothing moves; otherwise an hc that
nothing is due on ends and the next begins, its slot counting h unless it waits or is paused, and a CMD reset takes place 16 hc
after its write; without HCLK a fast-ticker period passes and the absence is counted. In a device turn a frame starts where the
one before has ended: the first response ready at T + 9, else the copy that a replay names, else the oldest report while a
credit is left, each only where it and an END fit the window, and END with its content otherwise; where a frame ends, a response
frees its tag and leaves its copy, a report frees its entry and leaves its copy, and END ends the turn. A DORMANT exit that
waited for a burst begins at its end: the model's reading (log entry 51), as is that END is sent where the next frame does not
fit and what its MORE counts (log entry 57). -/
def Obligations.IdleStepIsClock : Prop :=
  (∀ s : State, s.pending = [] → s.hcDriven = true → s.tb.counted = true → s.agenda = [] → s.turnDue = false → s.rq.snapDue = false →
    (s.awaits = true → step s = .next s) ∧
    (s.awaits = false → ∃ t, step s = .next t ∧ t.now = s.now + 1 ∧ t.ft = s.ft ∧ t.pending = [] ∧ (s.ms.resetAt = none → t.tb.counted = false) ∧
      (∀ r, s.ms.resetAt = some r → r ≤ s.now + 1 → (∀ b, s.pw.lastReset = some (s.now + 1, s.ft, b) → 5 < b) →
        t.reg 0x020E = 32 ∧ t.pw.phase = .resetCircuit ∧ t.ms.mode = .startup ∧ t.link = State.reset.link ∧ t.rq = State.reset.rq) ∧
      (s.slotRuns = true → s.scan.paused = false → s.ms.resetAt = none → t.scan.h = s.scan.h + 1 ∧ t.scan.slot = s.scan.slot) ∧
      (s.slotRuns = true → s.scan.paused = true → s.ms.resetAt = none → t.scan.h = s.scan.h ∧
        t.scan.pauseCount = s.scan.pauseCount + 1))) ∧
  (∀ (s : State) (u : Turn), s.pending = [] → s.hcDriven = true → s.tb.counted = true → s.agenda = [] → s.link.turn = some u → u.next = s.now →
    ∃ d q rsp rep, step s = .next { s with rq := q, link := { s.link with
        sent := s.link.sent ++ [d], turn := some { u with next := d.last + 1, done := false }, ddrv := (s.reg 0x0121).toNat % 4 } } ∧
      rsp = s.link.resp.find? (fun (r : Resp) => r.ready.any (fun h => decide (h ≤ u.start + 9))) ∧
      rep = s.rq.replay.bind (fun x => s.rq.copies.find? (fun c => c.seqWord == w16 x.1 && c.epochWord == w16 x.2)) ∧
      d.first = s.now ∧ d.last + 1 = s.now + 72 + 16 * d.payload.length ∧
      (∀ r, rsp = some r → s.now + 72 + 16 * r.payload.length + 103 ≤ u.limit → q = s.rq ∧ d.h1 = r.h1 ∧ d.payload = r.payload ∧
        d.h0 = respH0 r.rcode r.resent r.tag r.payload.length) ∧
      (∀ c, rsp = none → rep = some c → s.now + 72 + 16 * c.payload.length + 103 ≤ u.limit → q = s.rq ∧ d.h0 = c.h0 ||| 0x0800 ∧
        d.h1 = c.h1 ∧ d.payload = c.payload) ∧
      (∀ r l, rsp = none → rep = none → s.rq.entries = r :: l → 1 ≤ s.rq.cout → s.now + 72 + 16 * r.payload.length + 103 ≤ u.limit →
        q = { s.rq with entries := l, sending := some r, cout := s.rq.cout - 1, rsent := (s.rq.rsent + 1) % 2 ^ 32 } ∧ d.h1 = r.h1 ∧
        d.payload = r.payload ∧ d.h0 = respH0 5 false 0 r.payload.length) ∧
      ((∀ r, rsp = some r → u.limit < s.now + 72 + 16 * r.payload.length + 103) →
        (∀ c, rsp = none → rep = some c → u.limit < s.now + 72 + 16 * c.payload.length + 103) →
        (∀ r l, rsp = none → rep = none → s.rq.entries = r :: l → s.rq.cout = 0 ∨ u.limit < s.now + 72 + 16 * r.payload.length + 103) →
        q = s.rq ∧ d.h0 = 0x6002 ∧ d.h1 = 0 ∧ d.payload = [w16 (s.link.wacc + 256 * s.outst), w16 (s.wfree +
          32 * b2n (s.link.resp.any (fun (r : Resp) => r.ready.any (fun h => decide (h ≤ s.now))) || s.rq.replay.isSome ||
            (decide (1 ≤ s.rq.cout) && !s.rq.entries.isEmpty)) +
          64 * b2n (decide (s.rq.cout = 0) && !s.rq.entries.isEmpty))])) ∧
  (∀ (s : State) (u : Turn) (d : DevFrame), s.pending = [] → s.hcDriven = true → s.tb.counted = true → s.agenda = [] →
    s.link.turn = some u → u.done = false → u.next = s.now + 1 → s.link.sent.getLast? = some d → ∃ t, step s = .next t ∧
      (d.h0.toNat / 4096 = 6 → t.link = { s.link with turn := none, turnEnd := s.now + 9, attnFrom := s.now + 73, dterm := (s.reg 0x0121).getLsbD 2 } ∧
        t = { s with link := t.link, agenda := [(s.now + 73, Instr.attnReassert)] }) ∧
      (d.h0.toNat / 4096 ≠ 6 → t.link.turn = some { u with done := true } ∧ t.link.sent = s.link.sent) ∧
      (d.h0.toNat / 4096 = 5 → d.h0.getLsbD 11 = false → t.rq.copies = (d :: s.rq.copies).take 32 ∧ t.rq.sending = none ∧ t.link.resp = s.link.resp) ∧
      (d.h0.toNat / 4096 = 5 → d.h0.getLsbD 11 = true →
        t = { s with link := { s.link with turn := some { u with done := true } }, rq := { s.rq with replay := t.rq.replay } } ∧
        (s.rq.replay = some (d.seqWord.toNat, d.epochWord.toNat) → t.rq.replay =
          (copyAfter s.rq.copies (d.seqWord.toNat, d.epochWord.toNat)).map (fun c => (c.seqWord.toNat, c.epochWord.toNat))) ∧
        (s.rq.replay ≠ some (d.seqWord.toNat, d.epochWord.toNat) → t.rq = s.rq)) ∧
      (∀ (l : List Resp) (r : Resp) (m : List Resp), d.h0.toNat / 4096 ≠ 5 → d.h0.toNat / 4096 ≠ 6 → s.link.resp = l ++ r :: m →
        (∀ x ∈ l, x.ready.any (fun h => decide (h ≤ u.start + 9)) = false) → r.ready.any (fun h => decide (h ≤ u.start + 9)) = true →
        t.link.resp = l ++ m ∧ t = { s with link := t.link } ∧
        (r.resent = false → r.rcode = 1 ∨ r.rcode = 2 → getKey r.tag t.link.retained = some d) ∧
        (r.resent = true ∨ (r.rcode ≠ 1 ∧ r.rcode ≠ 2) → t.link.retained = s.link.retained))) ∧
  (∀ s : State, s.pending = [] → s.hcDriven = true → s.tb.counted = false → s.tb.run = true → s.clk.decl ≠ 0 →
    ∃ t, step s = .next t ∧ t.now = s.now ∧ t.tb.counted = true ∧ t.tb.hcpos = s.tb.hcpos + 1 ∧
      t.tb.tsc = (s.tb.tsc + s.hcTicks) % 2 ^ 48 ∧ t.pending = []) ∧
  (∀ s : State, s.pending = [] → s.hcDriven = false → s.cycleDue = true → step s = .next s) ∧
  (∀ s : State, s.pending = [] → s.hcDriven = false → s.cycleDue = false → s.sk.exitDue = true → s.ms.mode = .dormant →
    s.ms.exit = .waitClock → s.sk.cyc = none → s.sk.burstEnd ≤ s.ft + 1 → ∃ t, step s = .next t ∧ t.ft = s.ft + 1 ∧ t.now = s.now ∧
      t.ms.exit = .relock ∧ t.clk.relock = some .dormantExit ∧ t.sk.exitDue = false ∧
      t.ms.age = min 65535 ((s.ft + 1 - s.ms.ageFrom) / 32) ∧ t.rq = s.rq ∧ s.bytesKept t) ∧
  ∀ s : State, s.pending = [] → s.hcDriven = false → s.cycleDue = false → s.sk.exitDue = false →
    ∃ t, step s = .next t ∧ t.ft = s.ft + 1 ∧ t.now = s.now ∧ t.tb = s.tb ∧ t.clk.absence = s.clk.absence + b2n s.absent ∧ t.rq = s.rq ∧ t.tr = s.tr ∧ s.bytesKept t

/-- R4, R87, R91, R111, R121, R247: what reset leaves: start-up with nothing measured or declared, no clock, no tag, no posted
word, no page unlocked, no report and no credit, an empty queue of commands, the registers at their table values, the
retained bits at their reset values, every page locked, the Shed erased (the values the spec does not state are the model's:
log entries 5, 6 and 10). -/
def Obligations.ResetValues : Prop :=
  State.reset.pending = [] ∧ State.reset.ms.mode = .startup ∧ State.reset.pw.phase = .qualifying ∧ State.reset.clk.seen = false ∧
    State.reset.clk.lock = false ∧ State.reset.clk.decl = 0 ∧ State.reset.tb.run = false ∧ State.reset.tb.tsc = 0 ∧
    State.reset.tb.hcpos = 0 ∧ State.reset.link.wbuf = [] ∧ State.reset.outTags = [] ∧ State.reset.link.unlocked = [] ∧
    State.reset.link.attn = false ∧ State.reset.rq.cout = 0 ∧ State.reset.rq.entries = [] ∧ State.reset.rq.seqNext = 0 ∧
    State.reset.tr.contacts = [] ∧ State.reset.ms.refRdy = false ∧ State.reset.scan.slot = none ∧ State.reset.inj.phase = .idle ∧
    (∀ n, n < 6 → (State.reset.timer n).mode = 0 ∧ (State.reset.timer n).count = 0) ∧
    (∀ a, State.reset.reg a = resetWord a) ∧ (∀ a, memGet State.reset.sh.mem a = 0xFF)

/-- R65, R68, R239, R243: the invariant of the machine holds at reset. -/
def Obligations.ResetKeepsForm : Prop := State.reset.Inv

/-- R65, R68, R239, R243: every step keeps the invariant: register files and memories in canonical form, at most 16 posted
words, eight notices and 64 occupied entries, credits at most 65,535. -/
def Obligations.StepKeepsInvariant : Prop := ∀ s t : State, step s = .next t → s.Inv → t.Inv

/-- R318, R325, and log entries 1, 3 and 4 (the model's choices): no command moves the clock, touches the queue of commands or
writes the factory area, and only the end of a page program changes a stored byte of the Shed (a reset that interrupts one
damages its page besides, R328: that mark is no stored byte, see PageProgramStores). Every command completes. -/
def Obligations.CommandsKeepClockAndShed : Prop :=
  ∀ (i : Instr) (s : State), ∃ t, exec i s = .next t ∧ t.now = s.now ∧ t.ft = s.ft ∧ t.pending = s.pending ∧ t.fac = s.fac ∧
    (i ≠ .shedPageProgramDone → ∀ a, memGet t.sh.mem a = memGet s.sh.mem a)
end

