-- ==== Sys2Proof/Laws/State.lean ====
section
/-! SUPPORT. What each shared update of State leaves: one lemma for each update and field, so that no proof unfolds a
record update. -/

namespace Sys2Proof
namespace Machine

@[simp] theorem State.setReg_pending (s : State) (a : Nat) (v : Word) : (s.setReg a v).pending = s.pending := rfl
@[simp] theorem State.setReg_agenda (s : State) (a : Nat) (v : Word) : (s.setReg a v).agenda = s.agenda := rfl
@[simp] theorem State.setReg_now (s : State) (a : Nat) (v : Word) : (s.setReg a v).now = s.now := rfl
@[simp] theorem State.setReg_ft (s : State) (a : Nat) (v : Word) : (s.setReg a v).ft = s.ft := rfl
@[simp] theorem State.setReg_free (s : State) (a : Nat) (v : Word) : (s.setReg a v).free = s.free := rfl
@[simp] theorem State.setReg_regs (s : State) (a : Nat) (v : Word) : (s.setReg a v).regs = s.regs.set a v := rfl
@[simp] theorem State.setReg_force (s : State) (a : Nat) (v : Word) : (s.setReg a v).force = s.force := rfl
@[simp] theorem State.setReg_flagged (s : State) (a : Nat) (v : Word) : (s.setReg a v).flagged = s.flagged := rfl
@[simp] theorem State.setReg_pw (s : State) (a : Nat) (v : Word) : (s.setReg a v).pw = s.pw := rfl
@[simp] theorem State.setReg_clk (s : State) (a : Nat) (v : Word) : (s.setReg a v).clk = s.clk := rfl
@[simp] theorem State.setReg_tb (s : State) (a : Nat) (v : Word) : (s.setReg a v).tb = s.tb := rfl
@[simp] theorem State.setReg_ms (s : State) (a : Nat) (v : Word) : (s.setReg a v).ms = s.ms := rfl
@[simp] theorem State.setReg_link (s : State) (a : Nat) (v : Word) : (s.setReg a v).link = s.link := rfl
@[simp] theorem State.setReg_rq (s : State) (a : Nat) (v : Word) : (s.setReg a v).rq = s.rq := rfl
@[simp] theorem State.setReg_scan (s : State) (a : Nat) (v : Word) : (s.setReg a v).scan = s.scan := rfl
@[simp] theorem State.setReg_inj (s : State) (a : Nat) (v : Word) : (s.setReg a v).inj = s.inj := rfl
@[simp] theorem State.setReg_tone (s : State) (a : Nat) (v : Word) : (s.setReg a v).tone = s.tone := rfl
@[simp] theorem State.setReg_sv (s : State) (a : Nat) (v : Word) : (s.setReg a v).sv = s.sv := rfl
@[simp] theorem State.setReg_cl (s : State) (a : Nat) (v : Word) : (s.setReg a v).cl = s.cl := rfl
@[simp] theorem State.setReg_tr (s : State) (a : Nat) (v : Word) : (s.setReg a v).tr = s.tr := rfl
@[simp] theorem State.setReg_sk (s : State) (a : Nat) (v : Word) : (s.setReg a v).sk = s.sk := rfl
@[simp] theorem State.setReg_tm (s : State) (a : Nat) (v : Word) : (s.setReg a v).tm = s.tm := rfl
@[simp] theorem State.setReg_gg (s : State) (a : Nat) (v : Word) : (s.setReg a v).gg = s.gg := rfl
@[simp] theorem State.setReg_ca (s : State) (a : Nat) (v : Word) : (s.setReg a v).ca = s.ca := rfl
@[simp] theorem State.setReg_dg (s : State) (a : Nat) (v : Word) : (s.setReg a v).dg = s.dg := rfl
@[simp] theorem State.setReg_sh (s : State) (a : Nat) (v : Word) : (s.setReg a v).sh = s.sh := rfl
@[simp] theorem State.setReg_fac (s : State) (a : Nat) (v : Word) : (s.setReg a v).fac = s.fac := rfl
@[simp] theorem State.setReg_core (s : State) (a : Nat) (v : Word) : (s.setReg a v).core = s.core := rfl

@[simp] theorem State.setFlags_pending (s : State) (page : Nat) (bits : Word) : (s.setFlags page bits).pending = s.pending := rfl
@[simp] theorem State.setFlags_agenda (s : State) (page : Nat) (bits : Word) : (s.setFlags page bits).agenda = s.agenda := rfl
@[simp] theorem State.setFlags_now (s : State) (page : Nat) (bits : Word) : (s.setFlags page bits).now = s.now := rfl
@[simp] theorem State.setFlags_ft (s : State) (page : Nat) (bits : Word) : (s.setFlags page bits).ft = s.ft := rfl
@[simp] theorem State.setFlags_free (s : State) (page : Nat) (bits : Word) : (s.setFlags page bits).free = s.free := rfl
@[simp] theorem State.setFlags_regs (s : State) (page : Nat) (bits : Word) : (s.setFlags page bits).regs = s.regs.set (page * 256 + 3) (s.reg (page * 256 + 3) ||| bits) := rfl
@[simp] theorem State.setFlags_force (s : State) (page : Nat) (bits : Word) : (s.setFlags page bits).force = s.force := rfl
@[simp] theorem State.setFlags_flagged (s : State) (page : Nat) (bits : Word) : (s.setFlags page bits).flagged = (page, bits) :: s.flagged := rfl
@[simp] theorem State.setFlags_pw (s : State) (page : Nat) (bits : Word) : (s.setFlags page bits).pw = s.pw := rfl
@[simp] theorem State.setFlags_clk (s : State) (page : Nat) (bits : Word) : (s.setFlags page bits).clk = s.clk := rfl
@[simp] theorem State.setFlags_tb (s : State) (page : Nat) (bits : Word) : (s.setFlags page bits).tb = s.tb := rfl
@[simp] theorem State.setFlags_ms (s : State) (page : Nat) (bits : Word) : (s.setFlags page bits).ms = s.ms := rfl
@[simp] theorem State.setFlags_link (s : State) (page : Nat) (bits : Word) : (s.setFlags page bits).link = s.link := rfl
@[simp] theorem State.setFlags_rq (s : State) (page : Nat) (bits : Word) : (s.setFlags page bits).rq = s.rq := rfl
@[simp] theorem State.setFlags_scan (s : State) (page : Nat) (bits : Word) : (s.setFlags page bits).scan = s.scan := rfl
@[simp] theorem State.setFlags_inj (s : State) (page : Nat) (bits : Word) : (s.setFlags page bits).inj = s.inj := rfl
@[simp] theorem State.setFlags_tone (s : State) (page : Nat) (bits : Word) : (s.setFlags page bits).tone = s.tone := rfl
@[simp] theorem State.setFlags_sv (s : State) (page : Nat) (bits : Word) : (s.setFlags page bits).sv = s.sv := rfl
@[simp] theorem State.setFlags_cl (s : State) (page : Nat) (bits : Word) : (s.setFlags page bits).cl = s.cl := rfl
@[simp] theorem State.setFlags_tr (s : State) (page : Nat) (bits : Word) : (s.setFlags page bits).tr = s.tr := rfl
@[simp] theorem State.setFlags_sk (s : State) (page : Nat) (bits : Word) : (s.setFlags page bits).sk = s.sk := rfl
@[simp] theorem State.setFlags_tm (s : State) (page : Nat) (bits : Word) : (s.setFlags page bits).tm = s.tm := rfl
@[simp] theorem State.setFlags_gg (s : State) (page : Nat) (bits : Word) : (s.setFlags page bits).gg = s.gg := rfl
@[simp] theorem State.setFlags_ca (s : State) (page : Nat) (bits : Word) : (s.setFlags page bits).ca = s.ca := rfl
@[simp] theorem State.setFlags_dg (s : State) (page : Nat) (bits : Word) : (s.setFlags page bits).dg = s.dg := rfl
@[simp] theorem State.setFlags_sh (s : State) (page : Nat) (bits : Word) : (s.setFlags page bits).sh = s.sh := rfl
@[simp] theorem State.setFlags_fac (s : State) (page : Nat) (bits : Word) : (s.setFlags page bits).fac = s.fac := rfl
@[simp] theorem State.setFlags_core (s : State) (page : Nat) (bits : Word) : (s.setFlags page bits).core = s.core := rfl

@[simp] theorem State.setFlag_pending (s : State) (page bit : Nat) : (s.setFlag page bit).pending = s.pending := rfl
@[simp] theorem State.setFlag_agenda (s : State) (page bit : Nat) : (s.setFlag page bit).agenda = s.agenda := rfl
@[simp] theorem State.setFlag_now (s : State) (page bit : Nat) : (s.setFlag page bit).now = s.now := rfl
@[simp] theorem State.setFlag_ft (s : State) (page bit : Nat) : (s.setFlag page bit).ft = s.ft := rfl
@[simp] theorem State.setFlag_free (s : State) (page bit : Nat) : (s.setFlag page bit).free = s.free := rfl
@[simp] theorem State.setFlag_regs (s : State) (page bit : Nat) : (s.setFlag page bit).regs = s.regs.set (page * 256 + 3) (s.reg (page * 256 + 3) ||| w16 (2 ^ bit)) := rfl
@[simp] theorem State.setFlag_force (s : State) (page bit : Nat) : (s.setFlag page bit).force = s.force := rfl
@[simp] theorem State.setFlag_flagged (s : State) (page bit : Nat) : (s.setFlag page bit).flagged = (page, w16 (2 ^ bit)) :: s.flagged := rfl
@[simp] theorem State.setFlag_pw (s : State) (page bit : Nat) : (s.setFlag page bit).pw = s.pw := rfl
@[simp] theorem State.setFlag_clk (s : State) (page bit : Nat) : (s.setFlag page bit).clk = s.clk := rfl
@[simp] theorem State.setFlag_tb (s : State) (page bit : Nat) : (s.setFlag page bit).tb = s.tb := rfl
@[simp] theorem State.setFlag_ms (s : State) (page bit : Nat) : (s.setFlag page bit).ms = s.ms := rfl
@[simp] theorem State.setFlag_link (s : State) (page bit : Nat) : (s.setFlag page bit).link = s.link := rfl
@[simp] theorem State.setFlag_rq (s : State) (page bit : Nat) : (s.setFlag page bit).rq = s.rq := rfl
@[simp] theorem State.setFlag_scan (s : State) (page bit : Nat) : (s.setFlag page bit).scan = s.scan := rfl
@[simp] theorem State.setFlag_inj (s : State) (page bit : Nat) : (s.setFlag page bit).inj = s.inj := rfl
@[simp] theorem State.setFlag_tone (s : State) (page bit : Nat) : (s.setFlag page bit).tone = s.tone := rfl
@[simp] theorem State.setFlag_sv (s : State) (page bit : Nat) : (s.setFlag page bit).sv = s.sv := rfl
@[simp] theorem State.setFlag_cl (s : State) (page bit : Nat) : (s.setFlag page bit).cl = s.cl := rfl
@[simp] theorem State.setFlag_tr (s : State) (page bit : Nat) : (s.setFlag page bit).tr = s.tr := rfl
@[simp] theorem State.setFlag_sk (s : State) (page bit : Nat) : (s.setFlag page bit).sk = s.sk := rfl
@[simp] theorem State.setFlag_tm (s : State) (page bit : Nat) : (s.setFlag page bit).tm = s.tm := rfl
@[simp] theorem State.setFlag_gg (s : State) (page bit : Nat) : (s.setFlag page bit).gg = s.gg := rfl
@[simp] theorem State.setFlag_ca (s : State) (page bit : Nat) : (s.setFlag page bit).ca = s.ca := rfl
@[simp] theorem State.setFlag_dg (s : State) (page bit : Nat) : (s.setFlag page bit).dg = s.dg := rfl
@[simp] theorem State.setFlag_sh (s : State) (page bit : Nat) : (s.setFlag page bit).sh = s.sh := rfl
@[simp] theorem State.setFlag_fac (s : State) (page bit : Nat) : (s.setFlag page bit).fac = s.fac := rfl
@[simp] theorem State.setFlag_core (s : State) (page bit : Nat) : (s.setFlag page bit).core = s.core := rfl

@[simp] theorem State.setFlagIf_pending (s : State) (c : Bool) (page bit : Nat) : (s.setFlagIf c page bit).pending = s.pending := by unfold State.setFlagIf; split <;> rfl
@[simp] theorem State.setFlagIf_agenda (s : State) (c : Bool) (page bit : Nat) : (s.setFlagIf c page bit).agenda = s.agenda := by unfold State.setFlagIf; split <;> rfl
@[simp] theorem State.setFlagIf_now (s : State) (c : Bool) (page bit : Nat) : (s.setFlagIf c page bit).now = s.now := by unfold State.setFlagIf; split <;> rfl
@[simp] theorem State.setFlagIf_ft (s : State) (c : Bool) (page bit : Nat) : (s.setFlagIf c page bit).ft = s.ft := by unfold State.setFlagIf; split <;> rfl
@[simp] theorem State.setFlagIf_free (s : State) (c : Bool) (page bit : Nat) : (s.setFlagIf c page bit).free = s.free := by unfold State.setFlagIf; split <;> rfl
@[simp] theorem State.setFlagIf_regs (s : State) (c : Bool) (page bit : Nat) : (s.setFlagIf c page bit).regs = if c then (s.setFlag page bit).regs else s.regs := by cases c <;> rfl
@[simp] theorem State.setFlagIf_force (s : State) (c : Bool) (page bit : Nat) : (s.setFlagIf c page bit).force = s.force := by unfold State.setFlagIf; split <;> rfl
@[simp] theorem State.setFlagIf_flagged (s : State) (c : Bool) (page bit : Nat) :
    (s.setFlagIf c page bit).flagged = if c then (page, w16 (2 ^ bit)) :: s.flagged else s.flagged := by unfold State.setFlagIf; split <;> rfl
@[simp] theorem State.setFlagIf_pw (s : State) (c : Bool) (page bit : Nat) : (s.setFlagIf c page bit).pw = s.pw := by unfold State.setFlagIf; split <;> rfl
@[simp] theorem State.setFlagIf_clk (s : State) (c : Bool) (page bit : Nat) : (s.setFlagIf c page bit).clk = s.clk := by unfold State.setFlagIf; split <;> rfl
@[simp] theorem State.setFlagIf_tb (s : State) (c : Bool) (page bit : Nat) : (s.setFlagIf c page bit).tb = s.tb := by unfold State.setFlagIf; split <;> rfl
@[simp] theorem State.setFlagIf_ms (s : State) (c : Bool) (page bit : Nat) : (s.setFlagIf c page bit).ms = s.ms := by unfold State.setFlagIf; split <;> rfl
@[simp] theorem State.setFlagIf_link (s : State) (c : Bool) (page bit : Nat) : (s.setFlagIf c page bit).link = s.link := by unfold State.setFlagIf; split <;> rfl
@[simp] theorem State.setFlagIf_rq (s : State) (c : Bool) (page bit : Nat) : (s.setFlagIf c page bit).rq = s.rq := by unfold State.setFlagIf; split <;> rfl
@[simp] theorem State.setFlagIf_scan (s : State) (c : Bool) (page bit : Nat) : (s.setFlagIf c page bit).scan = s.scan := by unfold State.setFlagIf; split <;> rfl
@[simp] theorem State.setFlagIf_inj (s : State) (c : Bool) (page bit : Nat) : (s.setFlagIf c page bit).inj = s.inj := by unfold State.setFlagIf; split <;> rfl
@[simp] theorem State.setFlagIf_tone (s : State) (c : Bool) (page bit : Nat) : (s.setFlagIf c page bit).tone = s.tone := by unfold State.setFlagIf; split <;> rfl
@[simp] theorem State.setFlagIf_sv (s : State) (c : Bool) (page bit : Nat) : (s.setFlagIf c page bit).sv = s.sv := by unfold State.setFlagIf; split <;> rfl
@[simp] theorem State.setFlagIf_cl (s : State) (c : Bool) (page bit : Nat) : (s.setFlagIf c page bit).cl = s.cl := by unfold State.setFlagIf; split <;> rfl
@[simp] theorem State.setFlagIf_tr (s : State) (c : Bool) (page bit : Nat) : (s.setFlagIf c page bit).tr = s.tr := by unfold State.setFlagIf; split <;> rfl
@[simp] theorem State.setFlagIf_sk (s : State) (c : Bool) (page bit : Nat) : (s.setFlagIf c page bit).sk = s.sk := by unfold State.setFlagIf; split <;> rfl
@[simp] theorem State.setFlagIf_tm (s : State) (c : Bool) (page bit : Nat) : (s.setFlagIf c page bit).tm = s.tm := by unfold State.setFlagIf; split <;> rfl
@[simp] theorem State.setFlagIf_gg (s : State) (c : Bool) (page bit : Nat) : (s.setFlagIf c page bit).gg = s.gg := by unfold State.setFlagIf; split <;> rfl
@[simp] theorem State.setFlagIf_ca (s : State) (c : Bool) (page bit : Nat) : (s.setFlagIf c page bit).ca = s.ca := by unfold State.setFlagIf; split <;> rfl
@[simp] theorem State.setFlagIf_dg (s : State) (c : Bool) (page bit : Nat) : (s.setFlagIf c page bit).dg = s.dg := by unfold State.setFlagIf; split <;> rfl
@[simp] theorem State.setFlagIf_sh (s : State) (c : Bool) (page bit : Nat) : (s.setFlagIf c page bit).sh = s.sh := by unfold State.setFlagIf; split <;> rfl
@[simp] theorem State.setFlagIf_fac (s : State) (c : Bool) (page bit : Nat) : (s.setFlagIf c page bit).fac = s.fac := by unfold State.setFlagIf; split <;> rfl
@[simp] theorem State.setFlagIf_core (s : State) (c : Bool) (page bit : Nat) : (s.setFlagIf c page bit).core = s.core := by unfold State.setFlagIf; split <;> rfl

@[simp] theorem State.addSat_pending (s : State) (a n : Nat) : (s.addSat a n).pending = s.pending := rfl
@[simp] theorem State.addSat_agenda (s : State) (a n : Nat) : (s.addSat a n).agenda = s.agenda := rfl
@[simp] theorem State.addSat_now (s : State) (a n : Nat) : (s.addSat a n).now = s.now := rfl
@[simp] theorem State.addSat_ft (s : State) (a n : Nat) : (s.addSat a n).ft = s.ft := rfl
@[simp] theorem State.addSat_free (s : State) (a n : Nat) : (s.addSat a n).free = s.free := rfl
@[simp] theorem State.addSat_regs (s : State) (a n : Nat) : (s.addSat a n).regs = s.regs.set a (w16 (sat16 ((s.reg a).toNat + n))) := rfl
@[simp] theorem State.addSat_force (s : State) (a n : Nat) : (s.addSat a n).force = s.force := rfl
@[simp] theorem State.addSat_flagged (s : State) (a n : Nat) : (s.addSat a n).flagged = s.flagged := rfl
@[simp] theorem State.addSat_pw (s : State) (a n : Nat) : (s.addSat a n).pw = s.pw := rfl
@[simp] theorem State.addSat_clk (s : State) (a n : Nat) : (s.addSat a n).clk = s.clk := rfl
@[simp] theorem State.addSat_tb (s : State) (a n : Nat) : (s.addSat a n).tb = s.tb := rfl
@[simp] theorem State.addSat_ms (s : State) (a n : Nat) : (s.addSat a n).ms = s.ms := rfl
@[simp] theorem State.addSat_link (s : State) (a n : Nat) : (s.addSat a n).link = s.link := rfl
@[simp] theorem State.addSat_rq (s : State) (a n : Nat) : (s.addSat a n).rq = s.rq := rfl
@[simp] theorem State.addSat_scan (s : State) (a n : Nat) : (s.addSat a n).scan = s.scan := rfl
@[simp] theorem State.addSat_inj (s : State) (a n : Nat) : (s.addSat a n).inj = s.inj := rfl
@[simp] theorem State.addSat_tone (s : State) (a n : Nat) : (s.addSat a n).tone = s.tone := rfl
@[simp] theorem State.addSat_sv (s : State) (a n : Nat) : (s.addSat a n).sv = s.sv := rfl
@[simp] theorem State.addSat_cl (s : State) (a n : Nat) : (s.addSat a n).cl = s.cl := rfl
@[simp] theorem State.addSat_tr (s : State) (a n : Nat) : (s.addSat a n).tr = s.tr := rfl
@[simp] theorem State.addSat_sk (s : State) (a n : Nat) : (s.addSat a n).sk = s.sk := rfl
@[simp] theorem State.addSat_tm (s : State) (a n : Nat) : (s.addSat a n).tm = s.tm := rfl
@[simp] theorem State.addSat_gg (s : State) (a n : Nat) : (s.addSat a n).gg = s.gg := rfl
@[simp] theorem State.addSat_ca (s : State) (a n : Nat) : (s.addSat a n).ca = s.ca := rfl
@[simp] theorem State.addSat_dg (s : State) (a n : Nat) : (s.addSat a n).dg = s.dg := rfl
@[simp] theorem State.addSat_sh (s : State) (a n : Nat) : (s.addSat a n).sh = s.sh := rfl
@[simp] theorem State.addSat_fac (s : State) (a n : Nat) : (s.addSat a n).fac = s.fac := rfl
@[simp] theorem State.addSat_core (s : State) (a n : Nat) : (s.addSat a n).core = s.core := rfl

@[simp] theorem State.addSat8_pending (s : State) (a : Nat) : (s.addSat8 a).pending = s.pending := rfl
@[simp] theorem State.addSat8_agenda (s : State) (a : Nat) : (s.addSat8 a).agenda = s.agenda := rfl
@[simp] theorem State.addSat8_now (s : State) (a : Nat) : (s.addSat8 a).now = s.now := rfl
@[simp] theorem State.addSat8_ft (s : State) (a : Nat) : (s.addSat8 a).ft = s.ft := rfl
@[simp] theorem State.addSat8_free (s : State) (a : Nat) : (s.addSat8 a).free = s.free := rfl
@[simp] theorem State.addSat8_regs (s : State) (a : Nat) : (s.addSat8 a).regs = s.regs.set a (w16 (min 255 ((s.reg a).toNat + 1))) := rfl
@[simp] theorem State.addSat8_force (s : State) (a : Nat) : (s.addSat8 a).force = s.force := rfl
@[simp] theorem State.addSat8_flagged (s : State) (a : Nat) : (s.addSat8 a).flagged = s.flagged := rfl
@[simp] theorem State.addSat8_pw (s : State) (a : Nat) : (s.addSat8 a).pw = s.pw := rfl
@[simp] theorem State.addSat8_clk (s : State) (a : Nat) : (s.addSat8 a).clk = s.clk := rfl
@[simp] theorem State.addSat8_tb (s : State) (a : Nat) : (s.addSat8 a).tb = s.tb := rfl
@[simp] theorem State.addSat8_ms (s : State) (a : Nat) : (s.addSat8 a).ms = s.ms := rfl
@[simp] theorem State.addSat8_link (s : State) (a : Nat) : (s.addSat8 a).link = s.link := rfl
@[simp] theorem State.addSat8_rq (s : State) (a : Nat) : (s.addSat8 a).rq = s.rq := rfl
@[simp] theorem State.addSat8_scan (s : State) (a : Nat) : (s.addSat8 a).scan = s.scan := rfl
@[simp] theorem State.addSat8_inj (s : State) (a : Nat) : (s.addSat8 a).inj = s.inj := rfl
@[simp] theorem State.addSat8_tone (s : State) (a : Nat) : (s.addSat8 a).tone = s.tone := rfl
@[simp] theorem State.addSat8_sv (s : State) (a : Nat) : (s.addSat8 a).sv = s.sv := rfl
@[simp] theorem State.addSat8_cl (s : State) (a : Nat) : (s.addSat8 a).cl = s.cl := rfl
@[simp] theorem State.addSat8_tr (s : State) (a : Nat) : (s.addSat8 a).tr = s.tr := rfl
@[simp] theorem State.addSat8_sk (s : State) (a : Nat) : (s.addSat8 a).sk = s.sk := rfl
@[simp] theorem State.addSat8_tm (s : State) (a : Nat) : (s.addSat8 a).tm = s.tm := rfl
@[simp] theorem State.addSat8_gg (s : State) (a : Nat) : (s.addSat8 a).gg = s.gg := rfl
@[simp] theorem State.addSat8_ca (s : State) (a : Nat) : (s.addSat8 a).ca = s.ca := rfl
@[simp] theorem State.addSat8_dg (s : State) (a : Nat) : (s.addSat8 a).dg = s.dg := rfl
@[simp] theorem State.addSat8_sh (s : State) (a : Nat) : (s.addSat8 a).sh = s.sh := rfl
@[simp] theorem State.addSat8_fac (s : State) (a : Nat) : (s.addSat8 a).fac = s.fac := rfl
@[simp] theorem State.addSat8_core (s : State) (a : Nat) : (s.addSat8 a).core = s.core := rfl

@[simp] theorem State.draw_pending (s : State) : (s.draw).pending = s.pending := rfl
@[simp] theorem State.draw_agenda (s : State) : (s.draw).agenda = s.agenda := rfl
@[simp] theorem State.draw_now (s : State) : (s.draw).now = s.now := rfl
@[simp] theorem State.draw_ft (s : State) : (s.draw).ft = s.ft := rfl
@[simp] theorem State.draw_free (s : State) : (s.draw).free = s.free + 1 := rfl
@[simp] theorem State.draw_regs (s : State) : (s.draw).regs = s.regs := rfl
@[simp] theorem State.draw_force (s : State) : (s.draw).force = s.force := rfl
@[simp] theorem State.draw_flagged (s : State) : (s.draw).flagged = s.flagged := rfl
@[simp] theorem State.draw_pw (s : State) : (s.draw).pw = s.pw := rfl
@[simp] theorem State.draw_clk (s : State) : (s.draw).clk = s.clk := rfl
@[simp] theorem State.draw_tb (s : State) : (s.draw).tb = s.tb := rfl
@[simp] theorem State.draw_ms (s : State) : (s.draw).ms = s.ms := rfl
@[simp] theorem State.draw_link (s : State) : (s.draw).link = s.link := rfl
@[simp] theorem State.draw_rq (s : State) : (s.draw).rq = s.rq := rfl
@[simp] theorem State.draw_scan (s : State) : (s.draw).scan = s.scan := rfl
@[simp] theorem State.draw_inj (s : State) : (s.draw).inj = s.inj := rfl
@[simp] theorem State.draw_tone (s : State) : (s.draw).tone = s.tone := rfl
@[simp] theorem State.draw_sv (s : State) : (s.draw).sv = s.sv := rfl
@[simp] theorem State.draw_cl (s : State) : (s.draw).cl = s.cl := rfl
@[simp] theorem State.draw_tr (s : State) : (s.draw).tr = s.tr := rfl
@[simp] theorem State.draw_sk (s : State) : (s.draw).sk = s.sk := rfl
@[simp] theorem State.draw_tm (s : State) : (s.draw).tm = s.tm := rfl
@[simp] theorem State.draw_gg (s : State) : (s.draw).gg = s.gg := rfl
@[simp] theorem State.draw_ca (s : State) : (s.draw).ca = s.ca := rfl
@[simp] theorem State.draw_dg (s : State) : (s.draw).dg = s.dg := rfl
@[simp] theorem State.draw_sh (s : State) : (s.draw).sh = s.sh := rfl
@[simp] theorem State.draw_fac (s : State) : (s.draw).fac = s.fac := rfl
@[simp] theorem State.draw_core (s : State) : (s.draw).core = s.core := rfl

@[simp] theorem State.after_pending (s : State) (n : Nat) (i : Instr) : (s.after n i).pending = s.pending := rfl
@[simp] theorem State.after_agenda (s : State) (n : Nat) (i : Instr) : (s.after n i).agenda = s.agenda ++ [(s.now + n, i)] := rfl
@[simp] theorem State.after_now (s : State) (n : Nat) (i : Instr) : (s.after n i).now = s.now := rfl
@[simp] theorem State.after_ft (s : State) (n : Nat) (i : Instr) : (s.after n i).ft = s.ft := rfl
@[simp] theorem State.after_free (s : State) (n : Nat) (i : Instr) : (s.after n i).free = s.free := rfl
@[simp] theorem State.after_regs (s : State) (n : Nat) (i : Instr) : (s.after n i).regs = s.regs := rfl
@[simp] theorem State.after_force (s : State) (n : Nat) (i : Instr) : (s.after n i).force = s.force := rfl
@[simp] theorem State.after_flagged (s : State) (n : Nat) (i : Instr) : (s.after n i).flagged = s.flagged := rfl
@[simp] theorem State.after_pw (s : State) (n : Nat) (i : Instr) : (s.after n i).pw = s.pw := rfl
@[simp] theorem State.after_clk (s : State) (n : Nat) (i : Instr) : (s.after n i).clk = s.clk := rfl
@[simp] theorem State.after_tb (s : State) (n : Nat) (i : Instr) : (s.after n i).tb = s.tb := rfl
@[simp] theorem State.after_ms (s : State) (n : Nat) (i : Instr) : (s.after n i).ms = s.ms := rfl
@[simp] theorem State.after_link (s : State) (n : Nat) (i : Instr) : (s.after n i).link = s.link := rfl
@[simp] theorem State.after_rq (s : State) (n : Nat) (i : Instr) : (s.after n i).rq = s.rq := rfl
@[simp] theorem State.after_scan (s : State) (n : Nat) (i : Instr) : (s.after n i).scan = s.scan := rfl
@[simp] theorem State.after_inj (s : State) (n : Nat) (i : Instr) : (s.after n i).inj = s.inj := rfl
@[simp] theorem State.after_tone (s : State) (n : Nat) (i : Instr) : (s.after n i).tone = s.tone := rfl
@[simp] theorem State.after_sv (s : State) (n : Nat) (i : Instr) : (s.after n i).sv = s.sv := rfl
@[simp] theorem State.after_cl (s : State) (n : Nat) (i : Instr) : (s.after n i).cl = s.cl := rfl
@[simp] theorem State.after_tr (s : State) (n : Nat) (i : Instr) : (s.after n i).tr = s.tr := rfl
@[simp] theorem State.after_sk (s : State) (n : Nat) (i : Instr) : (s.after n i).sk = s.sk := rfl
@[simp] theorem State.after_tm (s : State) (n : Nat) (i : Instr) : (s.after n i).tm = s.tm := rfl
@[simp] theorem State.after_gg (s : State) (n : Nat) (i : Instr) : (s.after n i).gg = s.gg := rfl
@[simp] theorem State.after_ca (s : State) (n : Nat) (i : Instr) : (s.after n i).ca = s.ca := rfl
@[simp] theorem State.after_dg (s : State) (n : Nat) (i : Instr) : (s.after n i).dg = s.dg := rfl
@[simp] theorem State.after_sh (s : State) (n : Nat) (i : Instr) : (s.after n i).sh = s.sh := rfl
@[simp] theorem State.after_fac (s : State) (n : Nat) (i : Instr) : (s.after n i).fac = s.fac := rfl
@[simp] theorem State.after_core (s : State) (n : Nat) (i : Instr) : (s.after n i).core = s.core := rfl

@[simp] theorem State.unschedule_pending (s : State) (p : Instr → Bool) : (s.unschedule p).pending = s.pending := rfl
@[simp] theorem State.unschedule_agenda (s : State) (p : Instr → Bool) : (s.unschedule p).agenda = s.agenda.filter (fun e => !p e.2) := rfl
@[simp] theorem State.unschedule_now (s : State) (p : Instr → Bool) : (s.unschedule p).now = s.now := rfl
@[simp] theorem State.unschedule_ft (s : State) (p : Instr → Bool) : (s.unschedule p).ft = s.ft := rfl
@[simp] theorem State.unschedule_free (s : State) (p : Instr → Bool) : (s.unschedule p).free = s.free := rfl
@[simp] theorem State.unschedule_regs (s : State) (p : Instr → Bool) : (s.unschedule p).regs = s.regs := rfl
@[simp] theorem State.unschedule_force (s : State) (p : Instr → Bool) : (s.unschedule p).force = s.force := rfl
@[simp] theorem State.unschedule_flagged (s : State) (p : Instr → Bool) : (s.unschedule p).flagged = s.flagged := rfl
@[simp] theorem State.unschedule_pw (s : State) (p : Instr → Bool) : (s.unschedule p).pw = s.pw := rfl
@[simp] theorem State.unschedule_clk (s : State) (p : Instr → Bool) : (s.unschedule p).clk = s.clk := rfl
@[simp] theorem State.unschedule_tb (s : State) (p : Instr → Bool) : (s.unschedule p).tb = s.tb := rfl
@[simp] theorem State.unschedule_ms (s : State) (p : Instr → Bool) : (s.unschedule p).ms = s.ms := rfl
@[simp] theorem State.unschedule_link (s : State) (p : Instr → Bool) : (s.unschedule p).link = s.link := rfl
@[simp] theorem State.unschedule_rq (s : State) (p : Instr → Bool) : (s.unschedule p).rq = s.rq := rfl
@[simp] theorem State.unschedule_scan (s : State) (p : Instr → Bool) : (s.unschedule p).scan = s.scan := rfl
@[simp] theorem State.unschedule_inj (s : State) (p : Instr → Bool) : (s.unschedule p).inj = s.inj := rfl
@[simp] theorem State.unschedule_tone (s : State) (p : Instr → Bool) : (s.unschedule p).tone = s.tone := rfl
@[simp] theorem State.unschedule_sv (s : State) (p : Instr → Bool) : (s.unschedule p).sv = s.sv := rfl
@[simp] theorem State.unschedule_cl (s : State) (p : Instr → Bool) : (s.unschedule p).cl = s.cl := rfl
@[simp] theorem State.unschedule_tr (s : State) (p : Instr → Bool) : (s.unschedule p).tr = s.tr := rfl
@[simp] theorem State.unschedule_sk (s : State) (p : Instr → Bool) : (s.unschedule p).sk = s.sk := rfl
@[simp] theorem State.unschedule_tm (s : State) (p : Instr → Bool) : (s.unschedule p).tm = s.tm := rfl
@[simp] theorem State.unschedule_gg (s : State) (p : Instr → Bool) : (s.unschedule p).gg = s.gg := rfl
@[simp] theorem State.unschedule_ca (s : State) (p : Instr → Bool) : (s.unschedule p).ca = s.ca := rfl
@[simp] theorem State.unschedule_dg (s : State) (p : Instr → Bool) : (s.unschedule p).dg = s.dg := rfl
@[simp] theorem State.unschedule_sh (s : State) (p : Instr → Bool) : (s.unschedule p).sh = s.sh := rfl
@[simp] theorem State.unschedule_fac (s : State) (p : Instr → Bool) : (s.unschedule p).fac = s.fac := rfl
@[simp] theorem State.unschedule_core (s : State) (p : Instr → Bool) : (s.unschedule p).core = s.core := rfl

@[simp] theorem State.staleIf_pending (s : State) (base : Nat) (c : Bool) : (s.staleIf base c).pending = s.pending := by unfold State.staleIf; split <;> rfl
@[simp] theorem State.staleIf_agenda (s : State) (base : Nat) (c : Bool) : (s.staleIf base c).agenda = s.agenda := by unfold State.staleIf; split <;> rfl
@[simp] theorem State.staleIf_now (s : State) (base : Nat) (c : Bool) : (s.staleIf base c).now = s.now := by unfold State.staleIf; split <;> rfl
@[simp] theorem State.staleIf_ft (s : State) (base : Nat) (c : Bool) : (s.staleIf base c).ft = s.ft := by unfold State.staleIf; split <;> rfl
@[simp] theorem State.staleIf_free (s : State) (base : Nat) (c : Bool) : (s.staleIf base c).free = s.free := by unfold State.staleIf; split <;> rfl
@[simp] theorem State.staleIf_force (s : State) (base : Nat) (c : Bool) : (s.staleIf base c).force = s.force := by unfold State.staleIf; split <;> rfl
@[simp] theorem State.staleIf_flagged (s : State) (base : Nat) (c : Bool) : (s.staleIf base c).flagged = s.flagged := by unfold State.staleIf; split <;> rfl
@[simp] theorem State.staleIf_pw (s : State) (base : Nat) (c : Bool) : (s.staleIf base c).pw = s.pw := by unfold State.staleIf; split <;> rfl
@[simp] theorem State.staleIf_clk (s : State) (base : Nat) (c : Bool) : (s.staleIf base c).clk = s.clk := by unfold State.staleIf; split <;> rfl
@[simp] theorem State.staleIf_tb (s : State) (base : Nat) (c : Bool) : (s.staleIf base c).tb = s.tb := by unfold State.staleIf; split <;> rfl
@[simp] theorem State.staleIf_ms (s : State) (base : Nat) (c : Bool) : (s.staleIf base c).ms = s.ms := by unfold State.staleIf; split <;> rfl
@[simp] theorem State.staleIf_link (s : State) (base : Nat) (c : Bool) : (s.staleIf base c).link = s.link := by unfold State.staleIf; split <;> rfl
@[simp] theorem State.staleIf_rq (s : State) (base : Nat) (c : Bool) : (s.staleIf base c).rq = s.rq := by unfold State.staleIf; split <;> rfl
@[simp] theorem State.staleIf_scan (s : State) (base : Nat) (c : Bool) : (s.staleIf base c).scan = s.scan := by unfold State.staleIf; split <;> rfl
@[simp] theorem State.staleIf_inj (s : State) (base : Nat) (c : Bool) : (s.staleIf base c).inj = s.inj := by unfold State.staleIf; split <;> rfl
@[simp] theorem State.staleIf_tone (s : State) (base : Nat) (c : Bool) : (s.staleIf base c).tone = s.tone := by unfold State.staleIf; split <;> rfl
@[simp] theorem State.staleIf_sv (s : State) (base : Nat) (c : Bool) : (s.staleIf base c).sv = s.sv := by unfold State.staleIf; split <;> rfl
@[simp] theorem State.staleIf_cl (s : State) (base : Nat) (c : Bool) : (s.staleIf base c).cl = s.cl := by unfold State.staleIf; split <;> rfl
@[simp] theorem State.staleIf_tr (s : State) (base : Nat) (c : Bool) : (s.staleIf base c).tr = s.tr := by unfold State.staleIf; split <;> rfl
@[simp] theorem State.staleIf_sk (s : State) (base : Nat) (c : Bool) : (s.staleIf base c).sk = s.sk := by unfold State.staleIf; split <;> rfl
@[simp] theorem State.staleIf_tm (s : State) (base : Nat) (c : Bool) : (s.staleIf base c).tm = s.tm := by unfold State.staleIf; split <;> rfl
@[simp] theorem State.staleIf_gg (s : State) (base : Nat) (c : Bool) : (s.staleIf base c).gg = s.gg := by unfold State.staleIf; split <;> rfl
@[simp] theorem State.staleIf_ca (s : State) (base : Nat) (c : Bool) : (s.staleIf base c).ca = s.ca := by unfold State.staleIf; split <;> rfl
@[simp] theorem State.staleIf_dg (s : State) (base : Nat) (c : Bool) : (s.staleIf base c).dg = s.dg := by unfold State.staleIf; split <;> rfl
@[simp] theorem State.staleIf_sh (s : State) (base : Nat) (c : Bool) : (s.staleIf base c).sh = s.sh := by unfold State.staleIf; split <;> rfl
@[simp] theorem State.staleIf_fac (s : State) (base : Nat) (c : Bool) : (s.staleIf base c).fac = s.fac := by unfold State.staleIf; split <;> rfl
@[simp] theorem State.staleIf_core (s : State) (base : Nat) (c : Bool) : (s.staleIf base c).core = s.core := by unfold State.staleIf; split <;> rfl

@[simp] theorem State.setWide_pending (s : State) (base n v : Nat) : (s.setWide base n v).pending = s.pending := State.staleIf_pending ..
@[simp] theorem State.setWide_agenda (s : State) (base n v : Nat) : (s.setWide base n v).agenda = s.agenda := State.staleIf_agenda ..
@[simp] theorem State.setWide_now (s : State) (base n v : Nat) : (s.setWide base n v).now = s.now := State.staleIf_now ..
@[simp] theorem State.setWide_ft (s : State) (base n v : Nat) : (s.setWide base n v).ft = s.ft := State.staleIf_ft ..
@[simp] theorem State.setWide_free (s : State) (base n v : Nat) : (s.setWide base n v).free = s.free := State.staleIf_free ..
@[simp] theorem State.setWide_force (s : State) (base n v : Nat) : (s.setWide base n v).force = s.force := State.staleIf_force ..
@[simp] theorem State.setWide_flagged (s : State) (base n v : Nat) : (s.setWide base n v).flagged = s.flagged := State.staleIf_flagged ..
@[simp] theorem State.setWide_pw (s : State) (base n v : Nat) : (s.setWide base n v).pw = s.pw := State.staleIf_pw ..
@[simp] theorem State.setWide_clk (s : State) (base n v : Nat) : (s.setWide base n v).clk = s.clk := State.staleIf_clk ..
@[simp] theorem State.setWide_tb (s : State) (base n v : Nat) : (s.setWide base n v).tb = s.tb := State.staleIf_tb ..
@[simp] theorem State.setWide_ms (s : State) (base n v : Nat) : (s.setWide base n v).ms = s.ms := State.staleIf_ms ..
@[simp] theorem State.setWide_link (s : State) (base n v : Nat) : (s.setWide base n v).link = s.link := State.staleIf_link ..
@[simp] theorem State.setWide_rq (s : State) (base n v : Nat) : (s.setWide base n v).rq = s.rq := State.staleIf_rq ..
@[simp] theorem State.setWide_scan (s : State) (base n v : Nat) : (s.setWide base n v).scan = s.scan := State.staleIf_scan ..
@[simp] theorem State.setWide_inj (s : State) (base n v : Nat) : (s.setWide base n v).inj = s.inj := State.staleIf_inj ..
@[simp] theorem State.setWide_tone (s : State) (base n v : Nat) : (s.setWide base n v).tone = s.tone := State.staleIf_tone ..
@[simp] theorem State.setWide_sv (s : State) (base n v : Nat) : (s.setWide base n v).sv = s.sv := State.staleIf_sv ..
@[simp] theorem State.setWide_cl (s : State) (base n v : Nat) : (s.setWide base n v).cl = s.cl := State.staleIf_cl ..
@[simp] theorem State.setWide_tr (s : State) (base n v : Nat) : (s.setWide base n v).tr = s.tr := State.staleIf_tr ..
@[simp] theorem State.setWide_sk (s : State) (base n v : Nat) : (s.setWide base n v).sk = s.sk := State.staleIf_sk ..
@[simp] theorem State.setWide_tm (s : State) (base n v : Nat) : (s.setWide base n v).tm = s.tm := State.staleIf_tm ..
@[simp] theorem State.setWide_gg (s : State) (base n v : Nat) : (s.setWide base n v).gg = s.gg := State.staleIf_gg ..
@[simp] theorem State.setWide_ca (s : State) (base n v : Nat) : (s.setWide base n v).ca = s.ca := State.staleIf_ca ..
@[simp] theorem State.setWide_dg (s : State) (base n v : Nat) : (s.setWide base n v).dg = s.dg := State.staleIf_dg ..
@[simp] theorem State.setWide_sh (s : State) (base n v : Nat) : (s.setWide base n v).sh = s.sh := State.staleIf_sh ..
@[simp] theorem State.setWide_fac (s : State) (base n v : Nat) : (s.setWide base n v).fac = s.fac := State.staleIf_fac ..
@[simp] theorem State.setWide_core (s : State) (base n v : Nat) : (s.setWide base n v).core = s.core := State.staleIf_core ..

@[simp] theorem State.setTimer_pending (s : State) (t : Nat) (x : Timer) : (s.setTimer t x).pending = s.pending := rfl
@[simp] theorem State.setTimer_agenda (s : State) (t : Nat) (x : Timer) : (s.setTimer t x).agenda = s.agenda := rfl
@[simp] theorem State.setTimer_now (s : State) (t : Nat) (x : Timer) : (s.setTimer t x).now = s.now := rfl
@[simp] theorem State.setTimer_ft (s : State) (t : Nat) (x : Timer) : (s.setTimer t x).ft = s.ft := rfl
@[simp] theorem State.setTimer_free (s : State) (t : Nat) (x : Timer) : (s.setTimer t x).free = s.free := rfl
@[simp] theorem State.setTimer_regs (s : State) (t : Nat) (x : Timer) : (s.setTimer t x).regs = s.regs := rfl
@[simp] theorem State.setTimer_force (s : State) (t : Nat) (x : Timer) : (s.setTimer t x).force = s.force := rfl
@[simp] theorem State.setTimer_flagged (s : State) (t : Nat) (x : Timer) : (s.setTimer t x).flagged = s.flagged := rfl
@[simp] theorem State.setTimer_pw (s : State) (t : Nat) (x : Timer) : (s.setTimer t x).pw = s.pw := rfl
@[simp] theorem State.setTimer_clk (s : State) (t : Nat) (x : Timer) : (s.setTimer t x).clk = s.clk := rfl
@[simp] theorem State.setTimer_tb (s : State) (t : Nat) (x : Timer) : (s.setTimer t x).tb = s.tb := rfl
@[simp] theorem State.setTimer_ms (s : State) (t : Nat) (x : Timer) : (s.setTimer t x).ms = s.ms := rfl
@[simp] theorem State.setTimer_link (s : State) (t : Nat) (x : Timer) : (s.setTimer t x).link = s.link := rfl
@[simp] theorem State.setTimer_rq (s : State) (t : Nat) (x : Timer) : (s.setTimer t x).rq = s.rq := rfl
@[simp] theorem State.setTimer_scan (s : State) (t : Nat) (x : Timer) : (s.setTimer t x).scan = s.scan := rfl
@[simp] theorem State.setTimer_inj (s : State) (t : Nat) (x : Timer) : (s.setTimer t x).inj = s.inj := rfl
@[simp] theorem State.setTimer_tone (s : State) (t : Nat) (x : Timer) : (s.setTimer t x).tone = s.tone := rfl
@[simp] theorem State.setTimer_sv (s : State) (t : Nat) (x : Timer) : (s.setTimer t x).sv = s.sv := rfl
@[simp] theorem State.setTimer_cl (s : State) (t : Nat) (x : Timer) : (s.setTimer t x).cl = s.cl := rfl
@[simp] theorem State.setTimer_tr (s : State) (t : Nat) (x : Timer) : (s.setTimer t x).tr = s.tr := rfl
@[simp] theorem State.setTimer_sk (s : State) (t : Nat) (x : Timer) : (s.setTimer t x).sk = s.sk := rfl
@[simp] theorem State.setTimer_tm (s : State) (t : Nat) (x : Timer) : (s.setTimer t x).tm = s.tm.setIfInBounds t x := rfl
@[simp] theorem State.setTimer_gg (s : State) (t : Nat) (x : Timer) : (s.setTimer t x).gg = s.gg := rfl
@[simp] theorem State.setTimer_ca (s : State) (t : Nat) (x : Timer) : (s.setTimer t x).ca = s.ca := rfl
@[simp] theorem State.setTimer_dg (s : State) (t : Nat) (x : Timer) : (s.setTimer t x).dg = s.dg := rfl
@[simp] theorem State.setTimer_sh (s : State) (t : Nat) (x : Timer) : (s.setTimer t x).sh = s.sh := rfl
@[simp] theorem State.setTimer_fac (s : State) (t : Nat) (x : Timer) : (s.setTimer t x).fac = s.fac := rfl
@[simp] theorem State.setTimer_core (s : State) (t : Nat) (x : Timer) : (s.setTimer t x).core = s.core := rfl

@[simp] theorem State.installCap_pending (s : State) (t v : Nat) (order res : Bool) : (s.installCap t v order res).pending = s.pending := State.staleIf_pending ..
@[simp] theorem State.installCap_agenda (s : State) (t v : Nat) (order res : Bool) : (s.installCap t v order res).agenda = s.agenda := State.staleIf_agenda ..
@[simp] theorem State.installCap_now (s : State) (t v : Nat) (order res : Bool) : (s.installCap t v order res).now = s.now := State.staleIf_now ..
@[simp] theorem State.installCap_ft (s : State) (t v : Nat) (order res : Bool) : (s.installCap t v order res).ft = s.ft := State.staleIf_ft ..
@[simp] theorem State.installCap_free (s : State) (t v : Nat) (order res : Bool) : (s.installCap t v order res).free = s.free := State.staleIf_free ..
@[simp] theorem State.installCap_force (s : State) (t v : Nat) (order res : Bool) : (s.installCap t v order res).force = s.force := State.staleIf_force ..
@[simp] theorem State.installCap_flagged (s : State) (t v : Nat) (order res : Bool) :
    (s.installCap t v order res).flagged = (0x28, w16 (2 ^ t)) :: s.flagged := congrArg (List.cons _) (State.staleIf_flagged ..)
@[simp] theorem State.installCap_pw (s : State) (t v : Nat) (order res : Bool) : (s.installCap t v order res).pw = s.pw := State.staleIf_pw ..
@[simp] theorem State.installCap_clk (s : State) (t v : Nat) (order res : Bool) : (s.installCap t v order res).clk = s.clk := State.staleIf_clk ..
@[simp] theorem State.installCap_tb (s : State) (t v : Nat) (order res : Bool) : (s.installCap t v order res).tb = s.tb := State.staleIf_tb ..
@[simp] theorem State.installCap_ms (s : State) (t v : Nat) (order res : Bool) : (s.installCap t v order res).ms = s.ms := State.staleIf_ms ..
@[simp] theorem State.installCap_link (s : State) (t v : Nat) (order res : Bool) : (s.installCap t v order res).link = s.link := State.staleIf_link ..
@[simp] theorem State.installCap_rq (s : State) (t v : Nat) (order res : Bool) : (s.installCap t v order res).rq = s.rq := State.staleIf_rq ..
@[simp] theorem State.installCap_scan (s : State) (t v : Nat) (order res : Bool) : (s.installCap t v order res).scan = s.scan := State.staleIf_scan ..
@[simp] theorem State.installCap_inj (s : State) (t v : Nat) (order res : Bool) : (s.installCap t v order res).inj = s.inj := State.staleIf_inj ..
@[simp] theorem State.installCap_tone (s : State) (t v : Nat) (order res : Bool) : (s.installCap t v order res).tone = s.tone := State.staleIf_tone ..
@[simp] theorem State.installCap_sv (s : State) (t v : Nat) (order res : Bool) : (s.installCap t v order res).sv = s.sv := State.staleIf_sv ..
@[simp] theorem State.installCap_cl (s : State) (t v : Nat) (order res : Bool) : (s.installCap t v order res).cl = s.cl := State.staleIf_cl ..
@[simp] theorem State.installCap_tr (s : State) (t v : Nat) (order res : Bool) : (s.installCap t v order res).tr = s.tr := State.staleIf_tr ..
@[simp] theorem State.installCap_sk (s : State) (t v : Nat) (order res : Bool) : (s.installCap t v order res).sk = s.sk := State.staleIf_sk ..
@[simp] theorem State.installCap_gg (s : State) (t v : Nat) (order res : Bool) : (s.installCap t v order res).gg = s.gg := State.staleIf_gg ..
@[simp] theorem State.installCap_ca (s : State) (t v : Nat) (order res : Bool) : (s.installCap t v order res).ca = s.ca := State.staleIf_ca ..
@[simp] theorem State.installCap_dg (s : State) (t v : Nat) (order res : Bool) : (s.installCap t v order res).dg = s.dg := State.staleIf_dg ..
@[simp] theorem State.installCap_sh (s : State) (t v : Nat) (order res : Bool) : (s.installCap t v order res).sh = s.sh := State.staleIf_sh ..
@[simp] theorem State.installCap_fac (s : State) (t v : Nat) (order res : Bool) : (s.installCap t v order res).fac = s.fac := State.staleIf_fac ..
@[simp] theorem State.installCap_core (s : State) (t v : Nat) (order res : Bool) : (s.installCap t v order res).core = s.core := State.staleIf_core ..

@[simp] theorem State.replanSoon_pending (s : State) : (s.replanSoon).pending = s.pending := rfl
@[simp] theorem State.replanSoon_agenda (s : State) : (s.replanSoon).agenda = s.agenda := rfl
@[simp] theorem State.replanSoon_now (s : State) : (s.replanSoon).now = s.now := rfl
@[simp] theorem State.replanSoon_ft (s : State) : (s.replanSoon).ft = s.ft := rfl
@[simp] theorem State.replanSoon_free (s : State) : (s.replanSoon).free = s.free := rfl
@[simp] theorem State.replanSoon_regs (s : State) : (s.replanSoon).regs = s.regs := rfl
@[simp] theorem State.replanSoon_force (s : State) : (s.replanSoon).force = s.force := rfl
@[simp] theorem State.replanSoon_flagged (s : State) : (s.replanSoon).flagged = s.flagged := rfl
@[simp] theorem State.replanSoon_pw (s : State) : (s.replanSoon).pw = s.pw := rfl
@[simp] theorem State.replanSoon_clk (s : State) : (s.replanSoon).clk = s.clk := rfl
@[simp] theorem State.replanSoon_tb (s : State) : (s.replanSoon).tb = s.tb := rfl
@[simp] theorem State.replanSoon_ms (s : State) : (s.replanSoon).ms = s.ms := rfl
@[simp] theorem State.replanSoon_link (s : State) : (s.replanSoon).link = s.link := rfl
@[simp] theorem State.replanSoon_rq (s : State) : (s.replanSoon).rq = s.rq := rfl
@[simp] theorem State.replanSoon_scan (s : State) : (s.replanSoon).scan = s.scan := rfl
@[simp] theorem State.replanSoon_inj (s : State) : (s.replanSoon).inj = s.inj := rfl
@[simp] theorem State.replanSoon_tone (s : State) : (s.replanSoon).tone = s.tone := rfl
@[simp] theorem State.replanSoon_sv (s : State) : (s.replanSoon).sv = s.sv := rfl
@[simp] theorem State.replanSoon_cl (s : State) : (s.replanSoon).cl = { s.cl with replanAt := s.cl.replanAt ++ [s.now + 2048] } := rfl
@[simp] theorem State.replanSoon_tr (s : State) : (s.replanSoon).tr = s.tr := rfl
@[simp] theorem State.replanSoon_sk (s : State) : (s.replanSoon).sk = s.sk := rfl
@[simp] theorem State.replanSoon_tm (s : State) : (s.replanSoon).tm = s.tm := rfl
@[simp] theorem State.replanSoon_gg (s : State) : (s.replanSoon).gg = s.gg := rfl
@[simp] theorem State.replanSoon_ca (s : State) : (s.replanSoon).ca = s.ca := rfl
@[simp] theorem State.replanSoon_dg (s : State) : (s.replanSoon).dg = s.dg := rfl
@[simp] theorem State.replanSoon_sh (s : State) : (s.replanSoon).sh = s.sh := rfl
@[simp] theorem State.replanSoon_fac (s : State) : (s.replanSoon).fac = s.fac := rfl
@[simp] theorem State.replanSoon_core (s : State) : (s.replanSoon).core = s.core := rfl

@[simp] theorem State.periodStart_pending (s : State) : (s.periodStart).pending = s.pending := rfl
@[simp] theorem State.periodStart_agenda (s : State) : (s.periodStart).agenda = s.agenda := rfl
@[simp] theorem State.periodStart_now (s : State) : (s.periodStart).now = s.now := rfl
@[simp] theorem State.periodStart_ft (s : State) : (s.periodStart).ft = s.ft := rfl
@[simp] theorem State.periodStart_free (s : State) : (s.periodStart).free = s.free := rfl
@[simp] theorem State.periodStart_regs (s : State) : (s.periodStart).regs = s.regs := rfl
@[simp] theorem State.periodStart_force (s : State) : (s.periodStart).force = s.force := rfl
@[simp] theorem State.periodStart_flagged (s : State) : (s.periodStart).flagged = s.flagged := rfl
@[simp] theorem State.periodStart_pw (s : State) : (s.periodStart).pw = s.pw := rfl
@[simp] theorem State.periodStart_clk (s : State) : (s.periodStart).clk = { s.clk with stops := 0, cum := 0, tripped := false } := rfl
@[simp] theorem State.periodStart_tb (s : State) : (s.periodStart).tb = s.tb := rfl
@[simp] theorem State.periodStart_ms (s : State) : (s.periodStart).ms = s.ms := rfl
@[simp] theorem State.periodStart_link (s : State) : (s.periodStart).link = s.link := rfl
@[simp] theorem State.periodStart_rq (s : State) : (s.periodStart).rq = s.rq := rfl
@[simp] theorem State.periodStart_scan (s : State) : (s.periodStart).scan = s.scan := rfl
@[simp] theorem State.periodStart_inj (s : State) : (s.periodStart).inj = s.inj := rfl
@[simp] theorem State.periodStart_tone (s : State) : (s.periodStart).tone = s.tone := rfl
@[simp] theorem State.periodStart_sv (s : State) : (s.periodStart).sv = s.sv := rfl
@[simp] theorem State.periodStart_cl (s : State) : (s.periodStart).cl = s.cl := rfl
@[simp] theorem State.periodStart_tr (s : State) : (s.periodStart).tr = s.tr := rfl
@[simp] theorem State.periodStart_sk (s : State) : (s.periodStart).sk = s.sk := rfl
@[simp] theorem State.periodStart_tm (s : State) : (s.periodStart).tm = s.tm := rfl
@[simp] theorem State.periodStart_gg (s : State) : (s.periodStart).gg = s.gg := rfl
@[simp] theorem State.periodStart_ca (s : State) : (s.periodStart).ca = s.ca := rfl
@[simp] theorem State.periodStart_dg (s : State) : (s.periodStart).dg = s.dg := rfl
@[simp] theorem State.periodStart_sh (s : State) : (s.periodStart).sh = s.sh := rfl
@[simp] theorem State.periodStart_fac (s : State) : (s.periodStart).fac = s.fac := rfl
@[simp] theorem State.periodStart_core (s : State) : (s.periodStart).core = s.core := rfl

@[simp] theorem State.noteInj_pending (s : State) (e : Nat) (a r : Bool) : (s.noteInj e a r).pending = s.pending := rfl
@[simp] theorem State.noteInj_agenda (s : State) (e : Nat) (a r : Bool) : (s.noteInj e a r).agenda = s.agenda := rfl
@[simp] theorem State.noteInj_now (s : State) (e : Nat) (a r : Bool) : (s.noteInj e a r).now = s.now := rfl
@[simp] theorem State.noteInj_ft (s : State) (e : Nat) (a r : Bool) : (s.noteInj e a r).ft = s.ft := rfl
@[simp] theorem State.noteInj_free (s : State) (e : Nat) (a r : Bool) : (s.noteInj e a r).free = s.free := rfl
@[simp] theorem State.noteInj_regs (s : State) (e : Nat) (a r : Bool) : (s.noteInj e a r).regs = s.regs.set 0x210C ((s.reg 0x210C &&& 3) ||| w16 (4 * e + 32 * b2n a + 64 * b2n r)) := rfl
@[simp] theorem State.noteInj_force (s : State) (e : Nat) (a r : Bool) : (s.noteInj e a r).force = s.force := rfl
@[simp] theorem State.noteInj_flagged (s : State) (e : Nat) (a r : Bool) : (s.noteInj e a r).flagged = s.flagged := rfl
@[simp] theorem State.noteInj_pw (s : State) (e : Nat) (a r : Bool) : (s.noteInj e a r).pw = s.pw := rfl
@[simp] theorem State.noteInj_clk (s : State) (e : Nat) (a r : Bool) : (s.noteInj e a r).clk = s.clk := rfl
@[simp] theorem State.noteInj_tb (s : State) (e : Nat) (a r : Bool) : (s.noteInj e a r).tb = s.tb := rfl
@[simp] theorem State.noteInj_ms (s : State) (e : Nat) (a r : Bool) : (s.noteInj e a r).ms = s.ms := rfl
@[simp] theorem State.noteInj_link (s : State) (e : Nat) (a r : Bool) : (s.noteInj e a r).link = s.link := rfl
@[simp] theorem State.noteInj_rq (s : State) (e : Nat) (a r : Bool) : (s.noteInj e a r).rq = s.rq := rfl
@[simp] theorem State.noteInj_scan (s : State) (e : Nat) (a r : Bool) : (s.noteInj e a r).scan = s.scan := rfl
@[simp] theorem State.noteInj_inj (s : State) (e : Nat) (a r : Bool) : (s.noteInj e a r).inj = s.inj := rfl
@[simp] theorem State.noteInj_tone (s : State) (e : Nat) (a r : Bool) : (s.noteInj e a r).tone = s.tone := rfl
@[simp] theorem State.noteInj_sv (s : State) (e : Nat) (a r : Bool) : (s.noteInj e a r).sv = s.sv := rfl
@[simp] theorem State.noteInj_cl (s : State) (e : Nat) (a r : Bool) : (s.noteInj e a r).cl = s.cl := rfl
@[simp] theorem State.noteInj_tr (s : State) (e : Nat) (a r : Bool) : (s.noteInj e a r).tr = s.tr := rfl
@[simp] theorem State.noteInj_sk (s : State) (e : Nat) (a r : Bool) : (s.noteInj e a r).sk = s.sk := rfl
@[simp] theorem State.noteInj_tm (s : State) (e : Nat) (a r : Bool) : (s.noteInj e a r).tm = s.tm := rfl
@[simp] theorem State.noteInj_gg (s : State) (e : Nat) (a r : Bool) : (s.noteInj e a r).gg = s.gg := rfl
@[simp] theorem State.noteInj_ca (s : State) (e : Nat) (a r : Bool) : (s.noteInj e a r).ca = s.ca := rfl
@[simp] theorem State.noteInj_dg (s : State) (e : Nat) (a r : Bool) : (s.noteInj e a r).dg = s.dg := rfl
@[simp] theorem State.noteInj_sh (s : State) (e : Nat) (a r : Bool) : (s.noteInj e a r).sh = s.sh := rfl
@[simp] theorem State.noteInj_fac (s : State) (e : Nat) (a r : Bool) : (s.noteInj e a r).fac = s.fac := rfl
@[simp] theorem State.noteInj_core (s : State) (e : Nat) (a r : Bool) : (s.noteInj e a r).core = s.core := rfl

@[simp] theorem State.emitPause_pending (s : State) (n : Nat) : (s.emitPause n).pending = s.pending := rfl
@[simp] theorem State.emitPause_agenda (s : State) (n : Nat) : (s.emitPause n).agenda = s.agenda := rfl
@[simp] theorem State.emitPause_now (s : State) (n : Nat) : (s.emitPause n).now = s.now := rfl
@[simp] theorem State.emitPause_ft (s : State) (n : Nat) : (s.emitPause n).ft = s.ft := rfl
@[simp] theorem State.emitPause_free (s : State) (n : Nat) : (s.emitPause n).free = s.free := rfl
@[simp] theorem State.emitPause_regs (s : State) (n : Nat) : (s.emitPause n).regs = s.regs.set 0x060C (w16 (sat16 n)) := rfl
@[simp] theorem State.emitPause_force (s : State) (n : Nat) : (s.emitPause n).force = s.force := rfl
@[simp] theorem State.emitPause_flagged (s : State) (n : Nat) : (s.emitPause n).flagged = s.flagged := rfl
@[simp] theorem State.emitPause_pw (s : State) (n : Nat) : (s.emitPause n).pw = s.pw := rfl
@[simp] theorem State.emitPause_clk (s : State) (n : Nat) : (s.emitPause n).clk = s.clk := rfl
@[simp] theorem State.emitPause_tb (s : State) (n : Nat) : (s.emitPause n).tb = s.tb := rfl
@[simp] theorem State.emitPause_ms (s : State) (n : Nat) : (s.emitPause n).ms = s.ms := rfl
@[simp] theorem State.emitPause_link (s : State) (n : Nat) : (s.emitPause n).link = s.link := rfl
@[simp] theorem State.emitPause_rq (s : State) (n : Nat) : (s.emitPause n).rq = s.rq := rfl
@[simp] theorem State.emitPause_scan (s : State) (n : Nat) : (s.emitPause n).scan = s.scan := rfl
@[simp] theorem State.emitPause_inj (s : State) (n : Nat) : (s.emitPause n).inj = s.inj := rfl
@[simp] theorem State.emitPause_tone (s : State) (n : Nat) : (s.emitPause n).tone = s.tone := rfl
@[simp] theorem State.emitPause_sv (s : State) (n : Nat) : (s.emitPause n).sv = s.sv := rfl
@[simp] theorem State.emitPause_cl (s : State) (n : Nat) : (s.emitPause n).cl = s.cl := rfl
@[simp] theorem State.emitPause_tr (s : State) (n : Nat) : (s.emitPause n).tr = s.tr := rfl
@[simp] theorem State.emitPause_sk (s : State) (n : Nat) : (s.emitPause n).sk = s.sk := rfl
@[simp] theorem State.emitPause_tm (s : State) (n : Nat) : (s.emitPause n).tm = s.tm := rfl
@[simp] theorem State.emitPause_gg (s : State) (n : Nat) : (s.emitPause n).gg = s.gg := rfl
@[simp] theorem State.emitPause_ca (s : State) (n : Nat) : (s.emitPause n).ca = s.ca := rfl
@[simp] theorem State.emitPause_dg (s : State) (n : Nat) : (s.emitPause n).dg = s.dg := rfl
@[simp] theorem State.emitPause_sh (s : State) (n : Nat) : (s.emitPause n).sh = s.sh := rfl
@[simp] theorem State.emitPause_fac (s : State) (n : Nat) : (s.emitPause n).fac = s.fac := rfl
@[simp] theorem State.emitPause_core (s : State) (n : Nat) : (s.emitPause n).core = s.core := rfl

@[simp] theorem State.frameTail_pending (s : State) (l : Nat) : (s.frameTail l).pending = s.pending := rfl
@[simp] theorem State.frameTail_agenda (s : State) (l : Nat) : (s.frameTail l).agenda = s.agenda := rfl
@[simp] theorem State.frameTail_now (s : State) (l : Nat) : (s.frameTail l).now = s.now := rfl
@[simp] theorem State.frameTail_ft (s : State) (l : Nat) : (s.frameTail l).ft = s.ft := rfl
@[simp] theorem State.frameTail_free (s : State) (l : Nat) : (s.frameTail l).free = s.free := rfl
@[simp] theorem State.frameTail_regs (s : State) (l : Nat) : (s.frameTail l).regs = s.regs := rfl
@[simp] theorem State.frameTail_force (s : State) (l : Nat) : (s.frameTail l).force = s.force := rfl
@[simp] theorem State.frameTail_flagged (s : State) (l : Nat) : (s.frameTail l).flagged = s.flagged := rfl
@[simp] theorem State.frameTail_pw (s : State) (l : Nat) : (s.frameTail l).pw = s.pw := rfl
@[simp] theorem State.frameTail_clk (s : State) (l : Nat) : (s.frameTail l).clk = s.clk := rfl
@[simp] theorem State.frameTail_tb (s : State) (l : Nat) : (s.frameTail l).tb = s.tb := rfl
@[simp] theorem State.frameTail_ms (s : State) (l : Nat) : (s.frameTail l).ms = s.ms := rfl
@[simp] theorem State.frameTail_link (s : State) (l : Nat) : (s.frameTail l).link = s.link := rfl
@[simp] theorem State.frameTail_rq (s : State) (l : Nat) : (s.frameTail l).rq = s.rq := rfl
@[simp] theorem State.frameTail_inj (s : State) (l : Nat) : (s.frameTail l).inj = s.inj := rfl
@[simp] theorem State.frameTail_tone (s : State) (l : Nat) : (s.frameTail l).tone = s.tone := rfl
@[simp] theorem State.frameTail_sv (s : State) (l : Nat) : (s.frameTail l).sv = s.sv := rfl
@[simp] theorem State.frameTail_cl (s : State) (l : Nat) : (s.frameTail l).cl = s.cl := rfl
@[simp] theorem State.frameTail_tr (s : State) (l : Nat) : (s.frameTail l).tr = s.tr := rfl
@[simp] theorem State.frameTail_sk (s : State) (l : Nat) : (s.frameTail l).sk = s.sk := rfl
@[simp] theorem State.frameTail_tm (s : State) (l : Nat) : (s.frameTail l).tm = s.tm := rfl
@[simp] theorem State.frameTail_gg (s : State) (l : Nat) : (s.frameTail l).gg = s.gg := rfl
@[simp] theorem State.frameTail_ca (s : State) (l : Nat) : (s.frameTail l).ca = s.ca := rfl
@[simp] theorem State.frameTail_dg (s : State) (l : Nat) : (s.frameTail l).dg = s.dg := rfl
@[simp] theorem State.frameTail_sh (s : State) (l : Nat) : (s.frameTail l).sh = s.sh := rfl
@[simp] theorem State.frameTail_fac (s : State) (l : Nat) : (s.frameTail l).fac = s.fac := rfl
@[simp] theorem State.frameTail_core (s : State) (l : Nat) : (s.frameTail l).core = s.core := rfl

@[simp] theorem State.setMap_pending (s : State) (b v : Nat) : (s.setMap b v).pending = s.pending := rfl
@[simp] theorem State.setMap_agenda (s : State) (b v : Nat) : (s.setMap b v).agenda = s.agenda := rfl
@[simp] theorem State.setMap_now (s : State) (b v : Nat) : (s.setMap b v).now = s.now := rfl
@[simp] theorem State.setMap_ft (s : State) (b v : Nat) : (s.setMap b v).ft = s.ft := rfl
@[simp] theorem State.setMap_free (s : State) (b v : Nat) : (s.setMap b v).free = s.free := rfl
@[simp] theorem State.setMap_regs (s : State) (b v : Nat) : (s.setMap b v).regs = s.regs := rfl
@[simp] theorem State.setMap_force (s : State) (b v : Nat) : (s.setMap b v).force = s.force := rfl
@[simp] theorem State.setMap_flagged (s : State) (b v : Nat) : (s.setMap b v).flagged = s.flagged := rfl
@[simp] theorem State.setMap_pw (s : State) (b v : Nat) : (s.setMap b v).pw = s.pw := rfl
@[simp] theorem State.setMap_clk (s : State) (b v : Nat) : (s.setMap b v).clk = s.clk := rfl
@[simp] theorem State.setMap_tb (s : State) (b v : Nat) : (s.setMap b v).tb = s.tb := rfl
@[simp] theorem State.setMap_ms (s : State) (b v : Nat) : (s.setMap b v).ms = s.ms := rfl
@[simp] theorem State.setMap_link (s : State) (b v : Nat) : (s.setMap b v).link = s.link := rfl
@[simp] theorem State.setMap_rq (s : State) (b v : Nat) : (s.setMap b v).rq = s.rq := rfl
@[simp] theorem State.setMap_scan (s : State) (b v : Nat) : (s.setMap b v).scan = s.scan := rfl
@[simp] theorem State.setMap_inj (s : State) (b v : Nat) : (s.setMap b v).inj = s.inj := rfl
@[simp] theorem State.setMap_tone (s : State) (b v : Nat) : (s.setMap b v).tone = s.tone := rfl
@[simp] theorem State.setMap_sv (s : State) (b v : Nat) : (s.setMap b v).sv = s.sv := rfl
@[simp] theorem State.setMap_cl (s : State) (b v : Nat) : (s.setMap b v).cl = { s.cl with map := s.cl.map.set (b - 24) v } := rfl
@[simp] theorem State.setMap_tr (s : State) (b v : Nat) : (s.setMap b v).tr = s.tr := rfl
@[simp] theorem State.setMap_sk (s : State) (b v : Nat) : (s.setMap b v).sk = s.sk := rfl
@[simp] theorem State.setMap_tm (s : State) (b v : Nat) : (s.setMap b v).tm = s.tm := rfl
@[simp] theorem State.setMap_gg (s : State) (b v : Nat) : (s.setMap b v).gg = s.gg := rfl
@[simp] theorem State.setMap_ca (s : State) (b v : Nat) : (s.setMap b v).ca = s.ca := rfl
@[simp] theorem State.setMap_dg (s : State) (b v : Nat) : (s.setMap b v).dg = s.dg := rfl
@[simp] theorem State.setMap_sh (s : State) (b v : Nat) : (s.setMap b v).sh = s.sh := rfl
@[simp] theorem State.setMap_fac (s : State) (b v : Nat) : (s.setMap b v).fac = s.fac := rfl
@[simp] theorem State.setMap_core (s : State) (b v : Nat) : (s.setMap b v).core = s.core := rfl

@[simp] theorem State.vsTake_pending (s : State) : s.vsTake.pending = s.pending := rfl
@[simp] theorem State.vsTake_agenda (s : State) : s.vsTake.agenda = s.agenda := rfl
@[simp] theorem State.vsTake_now (s : State) : s.vsTake.now = s.now := rfl
@[simp] theorem State.vsTake_ft (s : State) : s.vsTake.ft = s.ft := rfl
@[simp] theorem State.vsTake_free (s : State) : s.vsTake.free = s.free := rfl
@[simp] theorem State.vsTake_regs (s : State) : s.vsTake.regs = s.regs := rfl
@[simp] theorem State.vsTake_force (s : State) : s.vsTake.force = s.force := rfl
@[simp] theorem State.vsTake_flagged (s : State) : s.vsTake.flagged = s.flagged := rfl
@[simp] theorem State.vsTake_pw (s : State) : s.vsTake.pw = s.pw := rfl
@[simp] theorem State.vsTake_clk (s : State) : s.vsTake.clk = s.clk := rfl
@[simp] theorem State.vsTake_tb (s : State) : s.vsTake.tb = s.tb := rfl
@[simp] theorem State.vsTake_ms (s : State) : s.vsTake.ms = s.ms := rfl
@[simp] theorem State.vsTake_link (s : State) : s.vsTake.link = s.link := rfl
@[simp] theorem State.vsTake_rq (s : State) : s.vsTake.rq = s.rq := rfl
@[simp] theorem State.vsTake_scan (s : State) : s.vsTake.scan = { s.scan with vsEff := s.scan.vsBall, vsAt := none } := rfl
@[simp] theorem State.vsTake_inj (s : State) : s.vsTake.inj = s.inj := rfl
@[simp] theorem State.vsTake_tone (s : State) : s.vsTake.tone = s.tone := rfl
@[simp] theorem State.vsTake_sv (s : State) : s.vsTake.sv = s.sv := rfl
@[simp] theorem State.vsTake_cl (s : State) : s.vsTake.cl = s.cl := rfl
@[simp] theorem State.vsTake_tr (s : State) : s.vsTake.tr = s.tr := rfl
@[simp] theorem State.vsTake_sk (s : State) : s.vsTake.sk = s.sk := rfl
@[simp] theorem State.vsTake_tm (s : State) : s.vsTake.tm = s.tm := rfl
@[simp] theorem State.vsTake_gg (s : State) : s.vsTake.gg = s.gg := rfl
@[simp] theorem State.vsTake_ca (s : State) : s.vsTake.ca = s.ca := rfl
@[simp] theorem State.vsTake_dg (s : State) : s.vsTake.dg = s.dg := rfl
@[simp] theorem State.vsTake_sh (s : State) : s.vsTake.sh = s.sh := rfl
@[simp] theorem State.vsTake_fac (s : State) : s.vsTake.fac = s.fac := rfl
@[simp] theorem State.vsTake_core (s : State) : s.vsTake.core = s.core := rfl

end Machine
end Sys2Proof
end

