-- ==== Sys2Proof/Laws/Registers.lean ====
section
/-! SUPPORT. Reads of a register after each shared update: the address written reads as written, every other address as
before. -/

namespace Sys2Proof
namespace Machine

theorem Regs.get_put (r : Regs) (a b : Nat) (v : Word) : (r.put a v).get b = if b = a then v else r.get b := by
  induction r with
  | nil => simp [Regs.put, Regs.get, eq_comm]
  | cons e t ih =>
    obtain ⟨c, w⟩ := e
    unfold Regs.put
    split
    · simp only [Regs.get]; by_cases h : b = a
      · simp [h]
      · rw [if_neg (Ne.symm h), if_neg h]
    · split
      · subst a; simp only [Regs.get]; by_cases h : b = c <;> simp [h, eq_comm]
      · simp only [Regs.get, ih]
        by_cases h : b = a <;> by_cases h' : c = b <;> simp_all

theorem Regs.get_drop (r : Regs) (a b : Nat) : (r.drop a).get b = if b = a then resetWord a else r.get b := by
  induction r with
  | nil => simp only [Regs.drop, Regs.get]; split <;> simp_all
  | cons e t ih =>
    obtain ⟨c, w⟩ := e
    unfold Regs.drop
    split
    · subst c; rw [ih]; simp only [Regs.get]; split <;> simp_all [eq_comm]
    · simp only [Regs.get, ih]
      by_cases h : b = a <;> by_cases h' : c = b <;> simp_all

@[simp] theorem Regs.get_set (r : Regs) (a b : Nat) (v : Word) : (r.set a v).get b = if b = a then v else r.get b := by
  unfold Regs.set
  split
  · rw [Regs.get_drop]; split <;> simp_all
  · exact Regs.get_put ..

@[simp] theorem get_regs (s : State) (b : Nat) : Regs.get s.regs b = s.reg b := rfl

@[simp] theorem reg_mk {f0 f1 f2 f3 f4 f5 f6 f7 f8 f9 f10 f11 f12 f13 f14 f15 f16 f17 f18 f19 f20 f21 f22 f23 f24 f25 f26 f27} (b : Nat) :
    State.reg (State.mk f0 f1 f2 f3 f4 f5 f6 f7 f8 f9 f10 f11 f12 f13 f14 f15 f16 f17 f18 f19 f20 f21 f22 f23 f24 f25 f26 f27) b =
      Regs.get f5 b := rfl

@[simp] theorem reg_setReg (s : State) (a b : Nat) (v : Word) : (s.setReg a v).reg b = if b = a then v else s.reg b := Regs.get_set ..

@[simp] theorem reg_setFlags (s : State) (p b : Nat) (v : Word) :
    (s.setFlags p v).reg b = if b = p * 256 + 3 then s.reg b ||| v else s.reg b := by
  show Regs.get (s.regs.set _ _) b = _
  rw [Regs.get_set]; split <;> simp_all

@[simp] theorem reg_setFlag (s : State) (p k b : Nat) :
    (s.setFlag p k).reg b = if b = p * 256 + 3 then s.reg b ||| w16 (2 ^ k) else s.reg b := reg_setFlags ..

@[simp] theorem reg_setFlagIf (s : State) (c : Bool) (p k b : Nat) :
    (s.setFlagIf c p k).reg b = if c ∧ b = p * 256 + 3 then s.reg b ||| w16 (2 ^ k) else s.reg b := by
  unfold State.setFlagIf; cases c <;> simp

@[simp] theorem reg_addSat (s : State) (a n b : Nat) :
    (s.addSat a n).reg b = if b = a then w16 (sat16 ((s.reg a).toNat + n)) else s.reg b := reg_setReg ..

@[simp] theorem reg_noteInj (s : State) (e : Nat) (c d : Bool) (b : Nat) :
    (s.noteInj e c d).reg b =
      if b = 0x210C then (s.reg 0x210C &&& 3) ||| w16 (4 * e + 32 * b2n c + 64 * b2n d) else s.reg b := reg_setReg ..

@[simp] theorem reg_emitPause (s : State) (n b : Nat) :
    (s.emitPause n).reg b = if b = 0x060C then w16 (sat16 n) else s.reg b := reg_setReg ..

@[simp] theorem reg_draw (s : State) (b : Nat) : s.draw.reg b = s.reg b := rfl
@[simp] theorem reg_after (s : State) (n : Nat) (i : Instr) (b : Nat) : (s.after n i).reg b = s.reg b := rfl
@[simp] theorem reg_unschedule (s : State) (p : Instr → Bool) (b : Nat) : (s.unschedule p).reg b = s.reg b := rfl
@[simp] theorem reg_setTimer (s : State) (t : Nat) (x : Timer) (b : Nat) : (s.setTimer t x).reg b = s.reg b := rfl
@[simp] theorem reg_replanSoon (s : State) (b : Nat) : s.replanSoon.reg b = s.reg b := rfl
@[simp] theorem reg_periodStart (s : State) (b : Nat) : s.periodStart.reg b = s.reg b := rfl
@[simp] theorem reg_frameTail (s : State) (l b : Nat) : (s.frameTail l).reg b = s.reg b := rfl

/-- A write of a register's own word leaves every register as it was. -/
theorem reg_setReg_self (s : State) (a b : Nat) : (s.setReg a (s.reg a)).reg b = s.reg b := by
  rw [reg_setReg]; split <;> simp_all

/-- Timer `m` after timer `n` is set. -/
@[simp] theorem timer_setTimer (s : State) (n m : Nat) (x : Timer) :
    (s.setTimer n x).timer m = if m = n ∧ n < 6 then x else s.timer m := by
  have h : s.tm.toArray.size = 6 := s.tm.size_toArray
  unfold State.setTimer State.timer
  simp only [Vector.getD, Vector.toArray_setIfInBounds, Array.getD_eq_getD_getElem?, Array.getElem?_setIfInBounds, h]
  by_cases hm : n = m
  · subst hm; by_cases hn : n < 6 <;> simp [hn, h]
  · simp [hm, Ne.symm hm]

end Machine
end Sys2Proof
end

