-- ==== Sys2Proof/Laws/Keeps.lean ====
section
/-! SUPPORT. What the shared operations keep: the clock, the queue of commands, the factory area, both memories, the posted words, the
responses, the credits, and the form of the register files. One lemma for each operation: if a state keeps these from
`s0`, so does the state after the operation. Here: flags, timers, time, queue, plan, Shed. -/

set_option linter.unusedTactic false
set_option linter.unreachableTactic false
set_option linter.unusedSimpArgs false

namespace Sys2Proof
namespace Machine

theorem Regs.wfFrom_put {r : Regs} {a : Nat} {v : Word} (hv : v ≠ resetWord a) :
    ∀ lo : Option Nat, Regs.wfFrom lo r = true → (∀ l, lo = some l → l < a) → Regs.wfFrom lo (r.put a v) = true := by
  induction r with
  | nil => intro lo _ hl; cases lo <;> simp_all [Regs.put, Regs.wfFrom]
  | cons e t ih =>
    obtain ⟨b, w⟩ := e
    intro lo h hl
    simp only [Regs.wfFrom, Bool.and_eq_true, decide_eq_true_eq] at h
    obtain ⟨⟨h1, h2⟩, h3⟩ := h
    unfold Regs.put
    split
    · cases lo <;> simp_all [Regs.wfFrom]
    · split
      · subst a; cases lo <;> simp_all [Regs.wfFrom]
      · have := ih (some b) h3 (by intro l hl'; cases hl'; omega)
        cases lo <;> simp_all [Regs.wfFrom]

theorem Regs.wfFrom_weaken {r : Regs} : ∀ (lo lo' : Option Nat), Regs.wfFrom lo r = true →
    (∀ l', lo' = some l' → ∃ l, lo = some l ∧ l' ≤ l) → Regs.wfFrom lo' r = true := by
  cases r with
  | nil => intros; rfl
  | cons e t =>
    obtain ⟨b, w⟩ := e
    intro lo lo' h hl
    cases lo' with
    | none => cases lo <;> simp_all [Regs.wfFrom]
    | some l' =>
      obtain ⟨l, rfl, h'⟩ := hl l' rfl
      simp only [Regs.wfFrom, Bool.and_eq_true, decide_eq_true_eq] at h ⊢
      exact ⟨⟨by omega, h.1.2⟩, h.2⟩

theorem Regs.wfFrom_drop {r : Regs} {a : Nat} : ∀ lo : Option Nat, Regs.wfFrom lo r = true →
    Regs.wfFrom lo (r.drop a) = true := by
  induction r with
  | nil => intro lo _; cases lo <;> rfl
  | cons e t ih =>
    obtain ⟨b, w⟩ := e
    intro lo h
    have h0 := h
    simp only [Regs.wfFrom, Bool.and_eq_true, decide_eq_true_eq] at h
    unfold Regs.drop
    split
    · refine Regs.wfFrom_weaken (some b) lo (ih _ h.2) ?_
      intro l' hl'; subst hl'; simp only [decide_eq_true_eq] at h; exact ⟨b, rfl, by omega⟩
    · simp only [Regs.wfFrom, Bool.and_eq_true, decide_eq_true_eq]
      exact ⟨h.1, ih _ h.2⟩

theorem Regs.wf_set {r : Regs} (a : Nat) (v : Word) (h : r.wf = true) : (r.set a v).wf = true := by
  unfold Regs.set
  split
  · exact Regs.wfFrom_drop _ h
  · exact Regs.wfFrom_put ‹_› _ h (by simp)

def wf2 (s : State) : Prop := s.regs.wf = true ∧ s.force.wf = true

structure Keeps (s t : State) : Prop where
  pending : t.pending = s.pending
  now : t.now = s.now
  ft : t.ft = s.ft
  fac : t.fac = s.fac
  mem : t.sh.mem = s.sh.mem
  core : t.core = s.core
  wbuf : t.link.wbuf = s.link.wbuf
  resp : t.link.resp = s.link.resp
  cout : t.rq.cout = s.rq.cout
  used : s.rq.used ≤ 64 → t.rq.used ≤ 64
  wf : wf2 s → wf2 t

theorem Keeps.refl (s : State) : Keeps s s := ⟨rfl, rfl, rfl, rfl, rfl, rfl, rfl, rfl, rfl, id, id⟩
theorem Keeps.trans {s t u : State} (a : Keeps s t) (b : Keeps t u) : Keeps s u :=
  ⟨b.1.trans a.1, b.2.trans a.2, b.3.trans a.3, b.4.trans a.4, b.5.trans a.5, b.6.trans a.6, b.7.trans a.7, b.8.trans a.8, b.9.trans a.9, fun h => b.10 (a.10 h), fun h => b.11 (a.11 h)⟩

theorem Keeps.upd {s0 s : State} {pending : List Instr} {agenda : List (Nat × Instr)} {now : Nat} {ft : Nat} {free : Nat} {regs : Regs} {force : Regs} {flagged : List (Nat × Word)} {pw : Power} {clk : Clock} {tb : TimeBase} {ms : ModeCtl} {link : Link} {rq : Queue} {scan : Scan} {inj : Inject} {tone : Plan} {sv : Sieve} {cl : Cloche} {tr : Trellis} {sk : Scare} {tm : Vector Timer 6} {gg : Gauge} {ca : Cal} {dg : Diag} {sh : Shed} {fac : Factory} {core : List Host.Cell}
    (hs : Keeps s0 s) (hp : pending = s.pending) (hn : now = s.now) (hf : ft = s.ft) (hc : fac = s.fac) (h1 : sh.mem = s.sh.mem)
    (h2 : core = s.core) (h3 : link.wbuf = s.link.wbuf) (h4 : link.resp = s.link.resp) (h5 : rq.cout = s.rq.cout)
    (h6 : rq.entries = s.rq.entries) (h6' : rq.sending = s.rq.sending) (h7 : s.regs.wf = true → s.force.wf = true → regs.wf = true ∧ force.wf = true) :
    Keeps s0 (State.mk pending agenda now ft free regs force flagged pw clk tb ms link rq scan inj tone sv cl tr sk tm gg ca dg sh fac core) :=
  hs.trans ⟨hp, hn, hf, hc, h1, h2, h3, h4, h5, fun h => by simpa [Queue.used, h6, h6'] using h, fun h => h7 h.1 h.2⟩

theorem kept_ite {c : Prop} [Decidable c] {s0 a b : State} (ha : c → Keeps s0 a) (hb : ¬c → Keeps s0 b) :
    Keeps s0 (if c then a else b) := by split <;> simp_all

theorem kept_foldl {α} {f : State → α → State} {l : List α} {s0 s : State} (hs : Keeps s0 s)
    (hf : ∀ s a, Keeps s0 s → Keeps s0 (f s a)) : Keeps s0 (l.foldl f s) := by
  induction l generalizing s with
  | nil => exact hs
  | cons a t ih => exact ih (hf _ _ hs)

theorem kept_ite1 {β} {c : Prop} [Decidable c] {s0 : State} {a b : State × β} (ha : c → Keeps s0 a.1) (hb : ¬c → Keeps s0 b.1) :
    Keeps s0 (if c then a else b).1 := by split <;> simp_all
theorem kept_ite2 {β} {c : Prop} [Decidable c] {s0 : State} {a b : β × State} (ha : c → Keeps s0 a.2) (hb : ¬c → Keeps s0 b.2) :
    Keeps s0 (if c then a else b).2 := by split <;> simp_all
theorem kept_eq1 {β} {s0 s1 : State} {b : β} {e : State × β} (h : e = (s1, b)) (k : Keeps s0 e.1) : Keeps s0 s1 := by subst h; exact k
theorem kept_eq2 {β} {s0 s1 : State} {b : β} {e : β × State} (h : e = (b, s1)) (k : Keeps s0 e.2) : Keeps s0 s1 := by subst h; exact k

theorem kept_setWords (base v : Nat) : ∀ (n : Nat) (r : Regs), r.wf = true → (setWords r base v n).wf = true := by
  intro n; induction n with
  | zero => intro r h; exact h
  | succ n ih => intro r h; exact Regs.wf_set _ _ (ih r h)

theorem kept_State_setReg {s0 s : State} {a : Nat} {v : Word} (hk : Keeps s0 s) : Keeps s0 (State.setReg s a v) := by
  unfold State.setReg
  repeat' (first | with_reducible assumption | (with_reducible first | apply kept_ite | apply kept_ite1 | apply kept_ite2 | apply kept_foldl) | split | (dsimp only; split) | (apply kept_eq1; assumption) | (apply kept_eq2; assumption) | (with_reducible refine Keeps.upd ?_ rfl rfl rfl rfl rfl rfl rfl rfl rfl rfl rfl ?_) | exact fun h g => ⟨h, g⟩ | exact fun h g => ⟨Regs.wf_set _ _ h, g⟩ | exact fun h g => ⟨Regs.wf_set _ _ (Regs.wf_set _ _ h), g⟩ | exact fun h g => ⟨kept_setWords _ _ _ _ h, g⟩ | exact fun h _ => ⟨h, h⟩ | dsimp only | intro _)

theorem kept_State_setFlags {s0 s : State} {page : Nat} {bits : Word} (hk : Keeps s0 s) : Keeps s0 (State.setFlags s page bits) := by
  unfold State.setFlags
  repeat' (first | with_reducible assumption | (with_reducible first | apply kept_State_setReg | apply kept_ite | apply kept_ite1 | apply kept_ite2 | apply kept_foldl) | split | (dsimp only; split) | (apply kept_eq1; assumption) | (apply kept_eq2; assumption) | (with_reducible refine Keeps.upd ?_ rfl rfl rfl rfl rfl rfl rfl rfl rfl rfl rfl ?_) | exact fun h g => ⟨h, g⟩ | exact fun h g => ⟨Regs.wf_set _ _ h, g⟩ | exact fun h g => ⟨Regs.wf_set _ _ (Regs.wf_set _ _ h), g⟩ | exact fun h g => ⟨kept_setWords _ _ _ _ h, g⟩ | exact fun h _ => ⟨h, h⟩ | dsimp only | intro _)

theorem kept_State_setFlag {s0 s : State} {page : Nat} {bit : Nat} (hk : Keeps s0 s) : Keeps s0 (State.setFlag s page bit) := by
  unfold State.setFlag
  repeat' (first | with_reducible assumption | (with_reducible first | apply kept_State_setFlags | apply kept_ite | apply kept_ite1 | apply kept_ite2 | apply kept_foldl) | split | (dsimp only; split) | (apply kept_eq1; assumption) | (apply kept_eq2; assumption) | (with_reducible refine Keeps.upd ?_ rfl rfl rfl rfl rfl rfl rfl rfl rfl rfl rfl ?_) | exact fun h g => ⟨h, g⟩ | exact fun h g => ⟨Regs.wf_set _ _ h, g⟩ | exact fun h g => ⟨Regs.wf_set _ _ (Regs.wf_set _ _ h), g⟩ | exact fun h g => ⟨kept_setWords _ _ _ _ h, g⟩ | exact fun h _ => ⟨h, h⟩ | dsimp only | intro _)

theorem kept_State_setFlagIf {s0 s : State} {c : Bool} {page : Nat} {bit : Nat} (hk : Keeps s0 s) : Keeps s0 (State.setFlagIf s c page bit) := by
  unfold State.setFlagIf
  repeat' (first | with_reducible assumption | (with_reducible first | apply kept_State_setFlag | apply kept_ite | apply kept_ite1 | apply kept_ite2 | apply kept_foldl) | split | (dsimp only; split) | (apply kept_eq1; assumption) | (apply kept_eq2; assumption) | (with_reducible refine Keeps.upd ?_ rfl rfl rfl rfl rfl rfl rfl rfl rfl rfl rfl ?_) | exact fun h g => ⟨h, g⟩ | exact fun h g => ⟨Regs.wf_set _ _ h, g⟩ | exact fun h g => ⟨Regs.wf_set _ _ (Regs.wf_set _ _ h), g⟩ | exact fun h g => ⟨kept_setWords _ _ _ _ h, g⟩ | exact fun h _ => ⟨h, h⟩ | dsimp only | intro _)

theorem kept_State_addSat {s0 s : State} {a : Nat} {n : Nat} (hk : Keeps s0 s) : Keeps s0 (State.addSat s a n) := by
  unfold State.addSat
  repeat' (first | with_reducible assumption | (with_reducible first | apply kept_State_setReg | apply kept_ite | apply kept_ite1 | apply kept_ite2 | apply kept_foldl) | split | (dsimp only; split) | (apply kept_eq1; assumption) | (apply kept_eq2; assumption) | (with_reducible refine Keeps.upd ?_ rfl rfl rfl rfl rfl rfl rfl rfl rfl rfl rfl ?_) | exact fun h g => ⟨h, g⟩ | exact fun h g => ⟨Regs.wf_set _ _ h, g⟩ | exact fun h g => ⟨Regs.wf_set _ _ (Regs.wf_set _ _ h), g⟩ | exact fun h g => ⟨kept_setWords _ _ _ _ h, g⟩ | exact fun h _ => ⟨h, h⟩ | dsimp only | intro _)

theorem kept_State_addSat8 {s0 s : State} {a : Nat} (hk : Keeps s0 s) : Keeps s0 (State.addSat8 s a) := by
  unfold State.addSat8
  repeat' (first | with_reducible assumption | (with_reducible first | apply kept_State_setReg | apply kept_ite | apply kept_ite1 | apply kept_ite2 | apply kept_foldl) | split | (dsimp only; split) | (apply kept_eq1; assumption) | (apply kept_eq2; assumption) | (with_reducible refine Keeps.upd ?_ rfl rfl rfl rfl rfl rfl rfl rfl rfl rfl rfl ?_) | exact fun h g => ⟨h, g⟩ | exact fun h g => ⟨Regs.wf_set _ _ h, g⟩ | exact fun h g => ⟨Regs.wf_set _ _ (Regs.wf_set _ _ h), g⟩ | exact fun h g => ⟨kept_setWords _ _ _ _ h, g⟩ | exact fun h _ => ⟨h, h⟩ | dsimp only | intro _)

theorem kept_State_staleIf {s0 s : State} {base : Nat} {changed : Bool} (hk : Keeps s0 s) : Keeps s0 (State.staleIf s base changed) := by
  unfold State.staleIf
  repeat' (first | with_reducible assumption | (with_reducible first | apply kept_State_setReg | apply kept_ite | apply kept_ite1 | apply kept_ite2 | apply kept_foldl) | split | (dsimp only; split) | (apply kept_eq1; assumption) | (apply kept_eq2; assumption) | (with_reducible refine Keeps.upd ?_ rfl rfl rfl rfl rfl rfl rfl rfl rfl rfl rfl ?_) | exact fun h g => ⟨h, g⟩ | exact fun h g => ⟨Regs.wf_set _ _ h, g⟩ | exact fun h g => ⟨Regs.wf_set _ _ (Regs.wf_set _ _ h), g⟩ | exact fun h g => ⟨kept_setWords _ _ _ _ h, g⟩ | exact fun h _ => ⟨h, h⟩ | dsimp only | intro _)

theorem kept_State_setWide {s0 s : State} {base : Nat} {n : Nat} {v : Nat} (hk : Keeps s0 s) : Keeps s0 (State.setWide s base n v) := by
  unfold State.setWide
  repeat' (first | with_reducible assumption | (with_reducible first | apply kept_State_staleIf | apply kept_ite | apply kept_ite1 | apply kept_ite2 | apply kept_foldl) | split | (dsimp only; split) | (apply kept_eq1; assumption) | (apply kept_eq2; assumption) | (with_reducible refine Keeps.upd ?_ rfl rfl rfl rfl rfl rfl rfl rfl rfl rfl rfl ?_) | exact fun h g => ⟨h, g⟩ | exact fun h g => ⟨Regs.wf_set _ _ h, g⟩ | exact fun h g => ⟨Regs.wf_set _ _ (Regs.wf_set _ _ h), g⟩ | exact fun h g => ⟨kept_setWords _ _ _ _ h, g⟩ | exact fun h _ => ⟨h, h⟩ | dsimp only | intro _)

theorem kept_State_cmdDone {s0 s : State}  (hk : Keeps s0 s) : Keeps s0 (State.cmdDone s) := by
  unfold State.cmdDone
  repeat' (first | with_reducible assumption | (with_reducible first | apply kept_State_setFlag | apply kept_ite | apply kept_ite1 | apply kept_ite2 | apply kept_foldl) | split | (dsimp only; split) | (apply kept_eq1; assumption) | (apply kept_eq2; assumption) | (with_reducible refine Keeps.upd ?_ rfl rfl rfl rfl rfl rfl rfl rfl rfl rfl rfl ?_) | exact fun h g => ⟨h, g⟩ | exact fun h g => ⟨Regs.wf_set _ _ h, g⟩ | exact fun h g => ⟨Regs.wf_set _ _ (Regs.wf_set _ _ h), g⟩ | exact fun h g => ⟨kept_setWords _ _ _ _ h, g⟩ | exact fun h _ => ⟨h, h⟩ | dsimp only | intro _)

theorem kept_State_draw {s0 s : State}  (hk : Keeps s0 s) : Keeps s0 (State.draw s) := by
  unfold State.draw
  repeat' (first | with_reducible assumption | (with_reducible first | apply kept_ite | apply kept_ite1 | apply kept_ite2 | apply kept_foldl) | split | (dsimp only; split) | (apply kept_eq1; assumption) | (apply kept_eq2; assumption) | (with_reducible refine Keeps.upd ?_ rfl rfl rfl rfl rfl rfl rfl rfl rfl rfl rfl ?_) | exact fun h g => ⟨h, g⟩ | exact fun h g => ⟨Regs.wf_set _ _ h, g⟩ | exact fun h g => ⟨Regs.wf_set _ _ (Regs.wf_set _ _ h), g⟩ | exact fun h g => ⟨kept_setWords _ _ _ _ h, g⟩ | exact fun h _ => ⟨h, h⟩ | dsimp only | intro _)

theorem kept_State_after {s0 s : State} {n : Nat} {i : Instr} (hk : Keeps s0 s) : Keeps s0 (State.after s n i) := by
  unfold State.after
  repeat' (first | with_reducible assumption | (with_reducible first | apply kept_ite | apply kept_ite1 | apply kept_ite2 | apply kept_foldl) | split | (dsimp only; split) | (apply kept_eq1; assumption) | (apply kept_eq2; assumption) | (with_reducible refine Keeps.upd ?_ rfl rfl rfl rfl rfl rfl rfl rfl rfl rfl rfl ?_) | exact fun h g => ⟨h, g⟩ | exact fun h g => ⟨Regs.wf_set _ _ h, g⟩ | exact fun h g => ⟨Regs.wf_set _ _ (Regs.wf_set _ _ h), g⟩ | exact fun h g => ⟨kept_setWords _ _ _ _ h, g⟩ | exact fun h _ => ⟨h, h⟩ | dsimp only | intro _)

theorem kept_State_unschedule {s0 s : State} {p : Instr → Bool} (hk : Keeps s0 s) : Keeps s0 (State.unschedule s p) := by
  unfold State.unschedule
  repeat' (first | with_reducible assumption | (with_reducible first | apply kept_ite | apply kept_ite1 | apply kept_ite2 | apply kept_foldl) | split | (dsimp only; split) | (apply kept_eq1; assumption) | (apply kept_eq2; assumption) | (with_reducible refine Keeps.upd ?_ rfl rfl rfl rfl rfl rfl rfl rfl rfl rfl rfl ?_) | exact fun h g => ⟨h, g⟩ | exact fun h g => ⟨Regs.wf_set _ _ h, g⟩ | exact fun h g => ⟨Regs.wf_set _ _ (Regs.wf_set _ _ h), g⟩ | exact fun h g => ⟨kept_setWords _ _ _ _ h, g⟩ | exact fun h _ => ⟨h, h⟩ | dsimp only | intro _)

theorem kept_State_setTimer {s0 s : State} {t : Nat} {x : Timer} (hk : Keeps s0 s) : Keeps s0 (State.setTimer s t x) := by
  unfold State.setTimer
  repeat' (first | with_reducible assumption | (with_reducible first | apply kept_ite | apply kept_ite1 | apply kept_ite2 | apply kept_foldl) | split | (dsimp only; split) | (apply kept_eq1; assumption) | (apply kept_eq2; assumption) | (with_reducible refine Keeps.upd ?_ rfl rfl rfl rfl rfl rfl rfl rfl rfl rfl rfl ?_) | exact fun h g => ⟨h, g⟩ | exact fun h g => ⟨Regs.wf_set _ _ h, g⟩ | exact fun h g => ⟨Regs.wf_set _ _ (Regs.wf_set _ _ h), g⟩ | exact fun h g => ⟨kept_setWords _ _ _ _ h, g⟩ | exact fun h _ => ⟨h, h⟩ | dsimp only | intro _)

theorem kept_State_wrapEvents {s0 s : State} {k0 t : Nat} (hk : Keeps s0 s) : Keeps s0 (State.wrapEvents s k0 t) := by
  induction k0 generalizing s t with
  | zero => exact hk
  | succ k ih =>
    unfold State.wrapEvents
    repeat' (first | with_reducible assumption | (with_reducible first | apply ih | apply kept_State_setTimer | apply kept_State_setFlag | apply kept_ite | apply kept_ite1 | apply kept_ite2 | apply kept_foldl) | split | (dsimp only; split) | (apply kept_eq1; assumption) | (apply kept_eq2; assumption) | (with_reducible refine Keeps.upd ?_ rfl rfl rfl rfl rfl rfl rfl rfl rfl rfl rfl ?_) | exact fun h g => ⟨h, g⟩ | exact fun h g => ⟨Regs.wf_set _ _ h, g⟩ | exact fun h g => ⟨Regs.wf_set _ _ (Regs.wf_set _ _ h), g⟩ | exact fun h g => ⟨kept_setWords _ _ _ _ h, g⟩ | exact fun h _ => ⟨h, h⟩ | dsimp only | intro _)

theorem kept_State_countTimer {s0 s : State} {t : Nat} (hk : Keeps s0 s) : Keeps s0 (State.countTimer s t) := by
  unfold State.countTimer
  repeat' (first | with_reducible assumption | (with_reducible first | apply kept_State_wrapEvents | apply kept_State_setTimer | apply kept_ite | apply kept_ite1 | apply kept_ite2 | apply kept_foldl) | split | (dsimp only; split) | (apply kept_eq1; assumption) | (apply kept_eq2; assumption) | (with_reducible refine Keeps.upd ?_ rfl rfl rfl rfl rfl rfl rfl rfl rfl rfl rfl ?_) | exact fun h g => ⟨h, g⟩ | exact fun h g => ⟨Regs.wf_set _ _ h, g⟩ | exact fun h g => ⟨Regs.wf_set _ _ (Regs.wf_set _ _ h), g⟩ | exact fun h g => ⟨kept_setWords _ _ _ _ h, g⟩ | exact fun h _ => ⟨h, h⟩ | dsimp only | intro _)

theorem kept_State_countClk {s0 s : State} {clk : Nat} (hk : Keeps s0 s) : Keeps s0 (State.countClk s clk) := by
  unfold State.countClk
  repeat' (first | with_reducible assumption | (with_reducible first | apply kept_State_countTimer | apply kept_ite | apply kept_ite1 | apply kept_ite2 | apply kept_foldl) | split | (dsimp only; split) | (apply kept_eq1; assumption) | (apply kept_eq2; assumption) | (with_reducible refine Keeps.upd ?_ rfl rfl rfl rfl rfl rfl rfl rfl rfl rfl rfl ?_) | exact fun h g => ⟨h, g⟩ | exact fun h g => ⟨Regs.wf_set _ _ h, g⟩ | exact fun h g => ⟨Regs.wf_set _ _ (Regs.wf_set _ _ h), g⟩ | exact fun h g => ⟨kept_setWords _ _ _ _ h, g⟩ | exact fun h _ => ⟨h, h⟩ | dsimp only | intro _)

theorem kept_State_timerEvent {s0 s : State} {c : Nat} (hk : Keeps s0 s) : Keeps s0 (State.timerEvent s c) := by
  unfold State.timerEvent
  repeat' (first | with_reducible assumption | (with_reducible first | apply kept_State_setTimer | apply kept_ite | apply kept_ite1 | apply kept_ite2 | apply kept_foldl) | split | (dsimp only; split) | (apply kept_eq1; assumption) | (apply kept_eq2; assumption) | (with_reducible refine Keeps.upd ?_ rfl rfl rfl rfl rfl rfl rfl rfl rfl rfl rfl ?_) | exact fun h g => ⟨h, g⟩ | exact fun h g => ⟨Regs.wf_set _ _ h, g⟩ | exact fun h g => ⟨Regs.wf_set _ _ (Regs.wf_set _ _ h), g⟩ | exact fun h g => ⟨kept_setWords _ _ _ _ h, g⟩ | exact fun h _ => ⟨h, h⟩ | dsimp only | intro _)

theorem kept_State_timerSource {s0 s : State} {clk : Nat} {c : Nat} (hk : Keeps s0 s) : Keeps s0 (State.timerSource s clk c) := by
  unfold State.timerSource
  repeat' (first | with_reducible assumption | (with_reducible first | apply kept_State_timerEvent | apply kept_State_countClk | apply kept_ite | apply kept_ite1 | apply kept_ite2 | apply kept_foldl) | split | (dsimp only; split) | (apply kept_eq1; assumption) | (apply kept_eq2; assumption) | (with_reducible refine Keeps.upd ?_ rfl rfl rfl rfl rfl rfl rfl rfl rfl rfl rfl ?_) | exact fun h g => ⟨h, g⟩ | exact fun h g => ⟨Regs.wf_set _ _ h, g⟩ | exact fun h g => ⟨Regs.wf_set _ _ (Regs.wf_set _ _ h), g⟩ | exact fun h g => ⟨kept_setWords _ _ _ _ h, g⟩ | exact fun h _ => ⟨h, h⟩ | dsimp only | intro _)

theorem kept_State_installCap {s0 s : State} {t : Nat} {v : Nat} {order : Bool} {res : Bool} (hk : Keeps s0 s) : Keeps s0 (State.installCap s t v order res) := by
  unfold State.installCap
  repeat' (first | with_reducible assumption | (with_reducible first | apply kept_State_setTimer | apply kept_State_staleIf | apply kept_State_setFlag | apply kept_ite | apply kept_ite1 | apply kept_ite2 | apply kept_foldl) | split | (dsimp only; split) | (apply kept_eq1; assumption) | (apply kept_eq2; assumption) | (with_reducible refine Keeps.upd ?_ rfl rfl rfl rfl rfl rfl rfl rfl rfl rfl rfl ?_) | exact fun h g => ⟨h, g⟩ | exact fun h g => ⟨Regs.wf_set _ _ h, g⟩ | exact fun h g => ⟨Regs.wf_set _ _ (Regs.wf_set _ _ h), g⟩ | exact fun h g => ⟨kept_setWords _ _ _ _ h, g⟩ | exact fun h _ => ⟨h, h⟩ | dsimp only | intro _)

theorem kept_State_gaugePeriodOp {s0 s : State}  (hk : Keeps s0 s) : Keeps s0 (State.gaugePeriodOp s) := by
  unfold State.gaugePeriodOp
  repeat' (first | with_reducible assumption | (with_reducible first | apply kept_ite | apply kept_ite1 | apply kept_ite2 | apply kept_foldl) | split | (dsimp only; split) | (apply kept_eq1; assumption) | (apply kept_eq2; assumption) | (with_reducible refine Keeps.upd ?_ rfl rfl rfl rfl rfl rfl rfl rfl rfl rfl rfl ?_) | exact fun h g => ⟨h, g⟩ | exact fun h g => ⟨Regs.wf_set _ _ h, g⟩ | exact fun h g => ⟨Regs.wf_set _ _ (Regs.wf_set _ _ h), g⟩ | exact fun h g => ⟨kept_setWords _ _ _ _ h, g⟩ | exact fun h _ => ⟨h, h⟩ | dsimp only | intro _)

theorem kept_State_gaugeEdgeOp {s0 s : State}  (hk : Keeps s0 s) : Keeps s0 (State.gaugeEdgeOp s) := by
  unfold State.gaugeEdgeOp
  repeat' (first | with_reducible assumption | (with_reducible first | apply kept_State_setFlagIf | apply kept_ite | apply kept_ite1 | apply kept_ite2 | apply kept_foldl) | split | (dsimp only; split) | (apply kept_eq1; assumption) | (apply kept_eq2; assumption) | (with_reducible refine Keeps.upd ?_ rfl rfl rfl rfl rfl rfl rfl rfl rfl rfl rfl ?_) | exact fun h g => ⟨h, g⟩ | exact fun h g => ⟨Regs.wf_set _ _ h, g⟩ | exact fun h g => ⟨Regs.wf_set _ _ (Regs.wf_set _ _ h), g⟩ | exact fun h g => ⟨kept_setWords _ _ _ _ h, g⟩ | exact fun h _ => ⟨h, h⟩ | dsimp only | intro _)

theorem kept_State_gaugeTick {s0 s : State}  (hk : Keeps s0 s) : Keeps s0 (State.gaugeTick s) := by
  unfold State.gaugeTick
  repeat' (first | with_reducible assumption | (with_reducible first | apply kept_State_gaugeEdgeOp | apply kept_State_gaugePeriodOp | apply kept_ite | apply kept_ite1 | apply kept_ite2 | apply kept_foldl) | split | (dsimp only; split) | (apply kept_eq1; assumption) | (apply kept_eq2; assumption) | (with_reducible refine Keeps.upd ?_ rfl rfl rfl rfl rfl rfl rfl rfl rfl rfl rfl ?_) | exact fun h g => ⟨h, g⟩ | exact fun h g => ⟨Regs.wf_set _ _ h, g⟩ | exact fun h g => ⟨Regs.wf_set _ _ (Regs.wf_set _ _ h), g⟩ | exact fun h g => ⟨kept_setWords _ _ _ _ h, g⟩ | exact fun h _ => ⟨h, h⟩ | dsimp only | intro _)

theorem kept_State_gaugeEnableOp {s0 s : State} {en : Bool} (hk : Keeps s0 s) : Keeps s0 (State.gaugeEnableOp s en) := by
  unfold State.gaugeEnableOp
  repeat' (first | with_reducible assumption | (with_reducible first | apply kept_ite | apply kept_ite1 | apply kept_ite2 | apply kept_foldl) | split | (dsimp only; split) | (apply kept_eq1; assumption) | (apply kept_eq2; assumption) | (with_reducible refine Keeps.upd ?_ rfl rfl rfl rfl rfl rfl rfl rfl rfl rfl rfl ?_) | exact fun h g => ⟨h, g⟩ | exact fun h g => ⟨Regs.wf_set _ _ h, g⟩ | exact fun h g => ⟨Regs.wf_set _ _ (Regs.wf_set _ _ h), g⟩ | exact fun h g => ⟨kept_setWords _ _ _ _ h, g⟩ | exact fun h _ => ⟨h, h⟩ | dsimp only | intro _)

theorem kept_State_accumulate {s0 s : State}  (hk : Keeps s0 s) : Keeps s0 (State.accumulate s) := by
  unfold State.accumulate
  repeat' (first | with_reducible assumption | (with_reducible first | apply kept_ite | apply kept_ite1 | apply kept_ite2 | apply kept_foldl) | split | (dsimp only; split) | (apply kept_eq1; assumption) | (apply kept_eq2; assumption) | (with_reducible refine Keeps.upd ?_ rfl rfl rfl rfl rfl rfl rfl rfl rfl rfl rfl ?_) | exact fun h g => ⟨h, g⟩ | exact fun h g => ⟨Regs.wf_set _ _ h, g⟩ | exact fun h g => ⟨Regs.wf_set _ _ (Regs.wf_set _ _ h), g⟩ | exact fun h g => ⟨kept_setWords _ _ _ _ h, g⟩ | exact fun h _ => ⟨h, h⟩ | dsimp only | intro _)

theorem kept_State_writeAnchor {s0 s : State}  (hk : Keeps s0 s) : Keeps s0 (State.writeAnchor s) := by
  unfold State.writeAnchor
  repeat' (first | with_reducible assumption | (with_reducible first | apply kept_ite | apply kept_ite1 | apply kept_ite2 | apply kept_foldl) | split | (dsimp only; split) | (apply kept_eq1; assumption) | (apply kept_eq2; assumption) | (with_reducible refine Keeps.upd ?_ rfl rfl rfl rfl rfl rfl rfl rfl rfl rfl rfl ?_) | exact fun h g => ⟨h, g⟩ | exact fun h g => ⟨Regs.wf_set _ _ h, g⟩ | exact fun h g => ⟨Regs.wf_set _ _ (Regs.wf_set _ _ h), g⟩ | exact fun h g => ⟨kept_setWords _ _ _ _ h, g⟩ | exact fun h _ => ⟨h, h⟩ | dsimp only | intro _)

theorem kept_State_stamp {s0 s : State} {t32 : Int} (hk : Keeps s0 s) : Keeps s0 (State.stamp s t32).2 := by
  unfold State.stamp
  repeat' (first | with_reducible assumption | (with_reducible first | apply kept_State_setFlagIf | apply kept_ite | apply kept_ite1 | apply kept_ite2 | apply kept_foldl) | split | (dsimp only; split) | (apply kept_eq1; assumption) | (apply kept_eq2; assumption) | (with_reducible refine Keeps.upd ?_ rfl rfl rfl rfl rfl rfl rfl rfl rfl rfl rfl ?_) | exact fun h g => ⟨h, g⟩ | exact fun h g => ⟨Regs.wf_set _ _ h, g⟩ | exact fun h g => ⟨Regs.wf_set _ _ (Regs.wf_set _ _ h), g⟩ | exact fun h g => ⟨kept_setWords _ _ _ _ h, g⟩ | exact fun h _ => ⟨h, h⟩ | dsimp only | intro _)

theorem kept_State_setUnc {s0 s : State} {v : Nat} (hk : Keeps s0 s) : Keeps s0 (State.setUnc s v) := by
  unfold State.setUnc
  repeat' (first | with_reducible assumption | (with_reducible first | apply kept_State_setWide | apply kept_State_setFlagIf | apply kept_ite | apply kept_ite1 | apply kept_ite2 | apply kept_foldl) | split | (dsimp only; split) | (apply kept_eq1; assumption) | (apply kept_eq2; assumption) | (with_reducible refine Keeps.upd ?_ rfl rfl rfl rfl rfl rfl rfl rfl rfl rfl rfl ?_) | exact fun h g => ⟨h, g⟩ | exact fun h g => ⟨Regs.wf_set _ _ h, g⟩ | exact fun h g => ⟨Regs.wf_set _ _ (Regs.wf_set _ _ h), g⟩ | exact fun h g => ⟨kept_setWords _ _ _ _ h, g⟩ | exact fun h _ => ⟨h, h⟩ | dsimp only | intro _)

theorem kept_State_advance {s0 s : State} {absence : Nat} {ratio : Nat} {base : Nat} {div : Nat} (hk : Keeps s0 s) : Keeps s0 (State.advance s absence ratio base div) := by
  unfold State.advance
  repeat' (first | with_reducible assumption | (with_reducible first | apply kept_State_setUnc | apply kept_State_setWide | apply kept_ite | apply kept_ite1 | apply kept_ite2 | apply kept_foldl) | split | (dsimp only; split) | (apply kept_eq1; assumption) | (apply kept_eq2; assumption) | (with_reducible refine Keeps.upd ?_ rfl rfl rfl rfl rfl rfl rfl rfl rfl rfl rfl ?_) | exact fun h g => ⟨h, g⟩ | exact fun h g => ⟨Regs.wf_set _ _ h, g⟩ | exact fun h g => ⟨Regs.wf_set _ _ (Regs.wf_set _ _ h), g⟩ | exact fun h g => ⟨kept_setWords _ _ _ _ h, g⟩ | exact fun h _ => ⟨h, h⟩ | dsimp only | intro _)

theorem kept_State_firstDeclaration {s0 s : State} {f : Nat} (hk : Keeps s0 s) : Keeps s0 (State.firstDeclaration s f) := by
  unfold State.firstDeclaration
  repeat' (first | with_reducible assumption | (with_reducible first | apply kept_State_writeAnchor | apply kept_State_setReg | apply kept_ite | apply kept_ite1 | apply kept_ite2 | apply kept_foldl) | split | (dsimp only; split) | (apply kept_eq1; assumption) | (apply kept_eq2; assumption) | (with_reducible refine Keeps.upd ?_ rfl rfl rfl rfl rfl rfl rfl rfl rfl rfl rfl ?_) | exact fun h g => ⟨h, g⟩ | exact fun h g => ⟨Regs.wf_set _ _ h, g⟩ | exact fun h g => ⟨Regs.wf_set _ _ (Regs.wf_set _ _ h), g⟩ | exact fun h g => ⟨kept_setWords _ _ _ _ h, g⟩ | exact fun h _ => ⟨h, h⟩ | dsimp only | intro _)

theorem kept_State_changeDeclaration {s0 s : State} {f : Nat} (hk : Keeps s0 s) : Keeps s0 (State.changeDeclaration s f) := by
  unfold State.changeDeclaration
  repeat' (first | with_reducible assumption | (with_reducible first | apply kept_State_writeAnchor | apply kept_State_setReg | apply kept_ite | apply kept_ite1 | apply kept_ite2 | apply kept_foldl) | split | (dsimp only; split) | (apply kept_eq1; assumption) | (apply kept_eq2; assumption) | (with_reducible refine Keeps.upd ?_ rfl rfl rfl rfl rfl rfl rfl rfl rfl rfl rfl ?_) | exact fun h g => ⟨h, g⟩ | exact fun h g => ⟨Regs.wf_set _ _ h, g⟩ | exact fun h g => ⟨Regs.wf_set _ _ (Regs.wf_set _ _ h), g⟩ | exact fun h g => ⟨kept_setWords _ _ _ _ h, g⟩ | exact fun h _ => ⟨h, h⟩ | dsimp only | intro _)

theorem kept_State_slewTo {s0 s : State} {h : Nat} {o : Int} (hk : Keeps s0 s) : Keeps s0 (State.slewTo s h o) := by
  unfold State.slewTo
  repeat' (first | with_reducible assumption | (with_reducible first | apply kept_State_setFlag | apply kept_ite | apply kept_ite1 | apply kept_ite2 | apply kept_foldl) | split | (dsimp only; split) | (apply kept_eq1; assumption) | (apply kept_eq2; assumption) | (with_reducible refine Keeps.upd ?_ rfl rfl rfl rfl rfl rfl rfl rfl rfl rfl rfl ?_) | exact fun h g => ⟨h, g⟩ | exact fun h g => ⟨Regs.wf_set _ _ h, g⟩ | exact fun h g => ⟨Regs.wf_set _ _ (Regs.wf_set _ _ h), g⟩ | exact fun h g => ⟨kept_setWords _ _ _ _ h, g⟩ | exact fun h _ => ⟨h, h⟩ | dsimp only | intro _)

theorem kept_State_clearUnc {s0 s : State}  (hk : Keeps s0 s) : Keeps s0 (State.clearUnc s) := by
  unfold State.clearUnc
  repeat' (first | with_reducible assumption | (with_reducible first | apply kept_State_setUnc | apply kept_ite | apply kept_ite1 | apply kept_ite2 | apply kept_foldl) | split | (dsimp only; split) | (apply kept_eq1; assumption) | (apply kept_eq2; assumption) | (with_reducible refine Keeps.upd ?_ rfl rfl rfl rfl rfl rfl rfl rfl rfl rfl rfl ?_) | exact fun h g => ⟨h, g⟩ | exact fun h g => ⟨Regs.wf_set _ _ h, g⟩ | exact fun h g => ⟨Regs.wf_set _ _ (Regs.wf_set _ _ h), g⟩ | exact fun h g => ⟨kept_setWords _ _ _ _ h, g⟩ | exact fun h _ => ⟨h, h⟩ | dsimp only | intro _)

theorem kept_State_timeSync {s0 s : State} {h : Nat} (hk : Keeps s0 s) : Keeps s0 (State.timeSync s h) := by
  unfold State.timeSync
  repeat' (first | with_reducible assumption | (with_reducible first | apply kept_State_clearUnc | apply kept_State_slewTo | apply kept_State_writeAnchor | apply kept_State_setWide | apply kept_ite | apply kept_ite1 | apply kept_ite2 | apply kept_foldl) | split | (dsimp only; split) | (apply kept_eq1; assumption) | (apply kept_eq2; assumption) | (with_reducible refine Keeps.upd ?_ rfl rfl rfl rfl rfl rfl rfl rfl rfl rfl rfl ?_) | exact fun h g => ⟨h, g⟩ | exact fun h g => ⟨Regs.wf_set _ _ h, g⟩ | exact fun h g => ⟨Regs.wf_set _ _ (Regs.wf_set _ _ h), g⟩ | exact fun h g => ⟨kept_setWords _ _ _ _ h, g⟩ | exact fun h _ => ⟨h, h⟩ | dsimp only | intro _)

theorem kept_State_timeRebase {s0 s : State} {h : Nat} (hk : Keeps s0 s) : Keeps s0 (State.timeRebase s h) := by
  unfold State.timeRebase
  repeat' (first | with_reducible assumption | (with_reducible first | apply kept_State_clearUnc | apply kept_State_writeAnchor | apply kept_ite | apply kept_ite1 | apply kept_ite2 | apply kept_foldl) | split | (dsimp only; split) | (apply kept_eq1; assumption) | (apply kept_eq2; assumption) | (with_reducible refine Keeps.upd ?_ rfl rfl rfl rfl rfl rfl rfl rfl rfl rfl rfl ?_) | exact fun h g => ⟨h, g⟩ | exact fun h g => ⟨Regs.wf_set _ _ h, g⟩ | exact fun h g => ⟨Regs.wf_set _ _ (Regs.wf_set _ _ h), g⟩ | exact fun h g => ⟨kept_setWords _ _ _ _ h, g⟩ | exact fun h _ => ⟨h, h⟩ | dsimp only | intro _)

theorem kept_State_takeEntry {s0 s : State} {r : Report} (hk : Keeps s0 s) (hu : s.rq.used < 64) : Keeps s0 (State.takeEntry s r) := by
  unfold State.takeEntry
  split
  · exact hk.trans ⟨rfl, rfl, rfl, rfl, rfl, rfl, rfl, rfl, rfl, fun _ => by simp [Queue.used] at hu ⊢; omega, id⟩
  · exact kept_State_timerEvent (hk.trans ⟨rfl, rfl, rfl, rfl, rfl, rfl, rfl, rfl, rfl, fun _ => by simp [Queue.used] at hu ⊢; omega, id⟩)

theorem kept_State_waitEntry {s0 s : State} {r : Report} (hk : Keeps s0 s) : Keeps s0 (State.waitEntry s r) := by
  unfold State.waitEntry
  repeat' (first | with_reducible assumption | (with_reducible first | apply kept_State_timerEvent | apply kept_State_addSat | apply kept_State_setFlag | apply kept_ite | apply kept_ite1 | apply kept_ite2 | apply kept_foldl) | split | (dsimp only; split) | (apply kept_eq1; assumption) | (apply kept_eq2; assumption) | (with_reducible refine Keeps.upd ?_ rfl rfl rfl rfl rfl rfl rfl rfl rfl rfl rfl ?_) | exact fun h g => ⟨h, g⟩ | exact fun h g => ⟨Regs.wf_set _ _ h, g⟩ | exact fun h g => ⟨Regs.wf_set _ _ (Regs.wf_set _ _ h), g⟩ | exact fun h g => ⟨kept_setWords _ _ _ _ h, g⟩ | exact fun h _ => ⟨h, h⟩ | dsimp only | intro _)

theorem kept_State_countMerge {s0 s : State}  (hk : Keeps s0 s) : Keeps s0 (State.countMerge s) := by
  unfold State.countMerge
  repeat' (first | with_reducible assumption | (with_reducible first | apply kept_State_addSat | apply kept_State_setFlag | apply kept_ite | apply kept_ite1 | apply kept_ite2 | apply kept_foldl) | split | (dsimp only; split) | (apply kept_eq1; assumption) | (apply kept_eq2; assumption) | (with_reducible refine Keeps.upd ?_ rfl rfl rfl rfl rfl rfl rfl rfl rfl rfl rfl ?_) | exact fun h g => ⟨h, g⟩ | exact fun h g => ⟨Regs.wf_set _ _ h, g⟩ | exact fun h g => ⟨Regs.wf_set _ _ (Regs.wf_set _ _ h), g⟩ | exact fun h g => ⟨kept_setWords _ _ _ _ h, g⟩ | exact fun h _ => ⟨h, h⟩ | dsimp only | intro _)

theorem kept_State_absorbHolder {s0 s : State} {r : Report} (hk : Keeps s0 s) : Keeps s0 (State.absorbHolder s r).2 := by
  unfold State.absorbHolder
  repeat' (first | with_reducible assumption | (with_reducible first | apply kept_State_countMerge | apply kept_ite | apply kept_ite1 | apply kept_ite2 | apply kept_foldl) | split | (dsimp only; split) | (apply kept_eq1; assumption) | (apply kept_eq2; assumption) | (with_reducible refine Keeps.upd ?_ rfl rfl rfl rfl rfl rfl rfl rfl rfl rfl rfl ?_) | exact fun h g => ⟨h, g⟩ | exact fun h g => ⟨Regs.wf_set _ _ h, g⟩ | exact fun h g => ⟨Regs.wf_set _ _ (Regs.wf_set _ _ h), g⟩ | exact fun h g => ⟨kept_setWords _ _ _ _ h, g⟩ | exact fun h _ => ⟨h, h⟩ | dsimp only | intro _)

theorem kept_State_queueLife {s0 s : State} {r : Report} (hk : Keeps s0 s) : Keeps s0 (State.queueLife s r) := by
  have key : ∀ (p : Report × State), Keeps s0 p.2 → Keeps s0 (if p.2.rq.epochDue then { p.2 with rq := { p.2.rq with gated := p.2.rq.gated ++ [p.1] } }
      else if p.2.rq.waiting.isEmpty && decide (p.2.rq.used < 64) then p.2.takeEntry p.1 else p.2.waitEntry p.1) := by
    rintro ⟨r, s⟩ hk
    dsimp only at hk ⊢
    split
    · exact Keeps.upd hk rfl rfl rfl rfl rfl rfl rfl rfl rfl rfl rfl fun h g => ⟨h, g⟩
    · split
      · rename_i h; simp only [Bool.and_eq_true, decide_eq_true_eq] at h; exact kept_State_takeEntry hk h.2
      · exact kept_State_waitEntry hk
  unfold State.queueLife
  exact key (if r.up then s.absorbHolder r else (r, s)) (by split <;> first | exact kept_State_absorbHolder hk | exact hk)

theorem absorbLast_length (r : Report) (l : List Report) : (absorbLast r l).length = l.length := by
  induction l with
  | nil => rfl
  | cons e t ih => simp only [absorbLast]; split_ifs <;> simp [ih]

theorem kept_State_queueMove {s0 s : State} {r : Report} (hk : Keeps s0 s) : Keeps s0 (State.queueMove s r) := by
  unfold State.queueMove
  split
  · exact Keeps.upd hk rfl rfl rfl rfl rfl rfl rfl rfl rfl rfl rfl fun h g => ⟨h, g⟩
  split
  · rename_i h; simp only [Bool.and_eq_true, decide_eq_true_eq] at h; exact kept_State_takeEntry hk (by omega)
  split
  · exact kept_State_countMerge (hk.trans ⟨rfl, rfl, rfl, rfl, rfl, rfl, rfl, rfl, rfl, fun h => by simpa [Queue.used, absorbLast_length] using h, id⟩)
  split
  · exact kept_State_countMerge (Keeps.upd hk rfl rfl rfl rfl rfl rfl rfl rfl rfl rfl rfl fun h g => ⟨h, g⟩)
  · exact Keeps.upd hk rfl rfl rfl rfl rfl rfl rfl rfl rfl rfl rfl fun h g => ⟨h, g⟩

theorem kept_State_refill {s0 s : State} {n : Nat} (hk : Keeps s0 s) : Keeps s0 (State.refill s n) := by
  induction n generalizing s with
  | zero => exact hk
  | succ k ih =>
    unfold State.refill
    split
    · split
      · exact ih (kept_State_takeEntry (Keeps.upd hk rfl rfl rfl rfl rfl rfl rfl rfl rfl rfl rfl fun h g => ⟨h, g⟩) ‹_›)
      · exact hk
    · split
      · split
        · exact ih (kept_State_takeEntry (Keeps.upd hk rfl rfl rfl rfl rfl rfl rfl rfl rfl rfl rfl fun h g => ⟨h, g⟩) (show s.rq.used < 64 by omega))
        · exact hk
      · exact hk

theorem kept_State_openGate {s0 s : State}  (hk : Keeps s0 s) : Keeps s0 (State.openGate s) := by
  unfold State.openGate
  repeat' (first | with_reducible assumption | (with_reducible first | apply kept_State_queueMove | apply kept_State_queueLife | apply kept_ite | apply kept_ite1 | apply kept_ite2 | apply kept_foldl) | split | (dsimp only; split) | (apply kept_eq1; assumption) | (apply kept_eq2; assumption) | (with_reducible refine Keeps.upd ?_ rfl rfl rfl rfl rfl rfl rfl rfl rfl rfl rfl ?_) | exact fun h g => ⟨h, g⟩ | exact fun h g => ⟨Regs.wf_set _ _ h, g⟩ | exact fun h g => ⟨Regs.wf_set _ _ (Regs.wf_set _ _ h), g⟩ | exact fun h g => ⟨kept_setWords _ _ _ _ h, g⟩ | exact fun h _ => ⟨h, h⟩ | dsimp only | intro _)

theorem kept_State_queueEpoch {s0 s : State} {cause : Nat} {b : Bool} (hk : Keeps s0 s) : Keeps s0 (State.queueEpoch s cause b) := by
  unfold State.queueEpoch
  refine kept_State_openGate ?_
  split
  · rename_i h; simp only [Bool.and_eq_true, decide_eq_true_eq] at h; exact kept_State_takeEntry hk h.2
  · exact kept_State_waitEntry hk

theorem kept_State_snapshot {s0 s : State}  (hk : Keeps s0 s) : Keeps s0 (State.snapshot s) := by
  unfold State.snapshot
  repeat' (first | with_reducible assumption | (with_reducible first | apply kept_State_setWide | apply kept_State_setReg | apply kept_ite | apply kept_ite1 | apply kept_ite2 | apply kept_foldl) | split | (dsimp only; split) | (apply kept_eq1; assumption) | (apply kept_eq2; assumption) | (with_reducible refine Keeps.upd ?_ rfl rfl rfl rfl rfl rfl rfl rfl rfl rfl rfl ?_) | exact fun h g => ⟨h, g⟩ | exact fun h g => ⟨Regs.wf_set _ _ h, g⟩ | exact fun h g => ⟨Regs.wf_set _ _ (Regs.wf_set _ _ h), g⟩ | exact fun h g => ⟨kept_setWords _ _ _ _ h, g⟩ | exact fun h _ => ⟨h, h⟩ | dsimp only | intro _)

theorem kept_State_countFrame {s0 s : State} {f : FrameFate} (hk : Keeps s0 s) : Keeps s0 (State.countFrame s f) := by
  unfold State.countFrame
  repeat' (first | with_reducible assumption | (with_reducible first | apply kept_ite | apply kept_ite1 | apply kept_ite2 | apply kept_foldl) | split | (dsimp only; split) | (apply kept_eq1; assumption) | (apply kept_eq2; assumption) | (with_reducible refine Keeps.upd ?_ rfl rfl rfl rfl rfl rfl rfl rfl rfl rfl rfl ?_) | exact fun h g => ⟨h, g⟩ | exact fun h g => ⟨Regs.wf_set _ _ h, g⟩ | exact fun h g => ⟨Regs.wf_set _ _ (Regs.wf_set _ _ h), g⟩ | exact fun h g => ⟨kept_setWords _ _ _ _ h, g⟩ | exact fun h _ => ⟨h, h⟩ | dsimp only | intro _)

theorem kept_State_setPlanErr {s0 s : State} {r : Nat} {e : Nat} {g : Bool} (hk : Keeps s0 s) : Keeps s0 (State.setPlanErr s r e g) := by
  unfold State.setPlanErr
  repeat' (first | with_reducible assumption | (with_reducible first | apply kept_State_draw | apply kept_State_setReg | apply kept_ite | apply kept_ite1 | apply kept_ite2 | apply kept_foldl) | split | (dsimp only; split) | (apply kept_eq1; assumption) | (apply kept_eq2; assumption) | (with_reducible refine Keeps.upd ?_ rfl rfl rfl rfl rfl rfl rfl rfl rfl rfl rfl ?_) | exact fun h g => ⟨h, g⟩ | exact fun h g => ⟨Regs.wf_set _ _ h, g⟩ | exact fun h g => ⟨Regs.wf_set _ _ (Regs.wf_set _ _ h), g⟩ | exact fun h g => ⟨kept_setWords _ _ _ _ h, g⟩ | exact fun h _ => ⟨h, h⟩ | dsimp only | intro _)

theorem kept_State_planChanged {s0 s : State} {cloche : Bool} (hk : Keeps s0 s) : Keeps s0 (State.planChanged s cloche) := by
  unfold State.planChanged
  repeat' (first | with_reducible assumption | (with_reducible first | apply kept_State_setFlag | apply kept_State_setReg | apply kept_ite | apply kept_ite1 | apply kept_ite2 | apply kept_foldl) | split | (dsimp only; split) | (apply kept_eq1; assumption) | (apply kept_eq2; assumption) | (with_reducible refine Keeps.upd ?_ rfl rfl rfl rfl rfl rfl rfl rfl rfl rfl rfl ?_) | exact fun h g => ⟨h, g⟩ | exact fun h g => ⟨Regs.wf_set _ _ h, g⟩ | exact fun h g => ⟨Regs.wf_set _ _ (Regs.wf_set _ _ h), g⟩ | exact fun h g => ⟨kept_setWords _ _ _ _ h, g⟩ | exact fun h _ => ⟨h, h⟩ | dsimp only | intro _)

theorem kept_State_roam {s0 s : State}  (hk : Keeps s0 s) : Keeps s0 (State.roam s) := by
  unfold State.roam
  repeat' (first | with_reducible assumption | (with_reducible first | apply kept_State_setReg | apply kept_ite | apply kept_ite1 | apply kept_ite2 | apply kept_foldl) | split | (dsimp only; split) | (apply kept_eq1; assumption) | (apply kept_eq2; assumption) | (with_reducible refine Keeps.upd ?_ rfl rfl rfl rfl rfl rfl rfl rfl rfl rfl rfl ?_) | exact fun h g => ⟨h, g⟩ | exact fun h g => ⟨Regs.wf_set _ _ h, g⟩ | exact fun h g => ⟨Regs.wf_set _ _ (Regs.wf_set _ _ h), g⟩ | exact fun h g => ⟨kept_setWords _ _ _ _ h, g⟩ | exact fun h _ => ⟨h, h⟩ | dsimp only | intro _)

theorem kept_State_listenWrites {s0 s : State}  (hk : Keeps s0 s) : Keeps s0 (State.listenWrites s) := by
  unfold State.listenWrites
  repeat' (first | with_reducible assumption | (with_reducible first | apply kept_State_setFlag | apply kept_State_setReg | apply kept_ite | apply kept_ite1 | apply kept_ite2 | apply kept_foldl) | split | (dsimp only; split) | (apply kept_eq1; assumption) | (apply kept_eq2; assumption) | (with_reducible refine Keeps.upd ?_ rfl rfl rfl rfl rfl rfl rfl rfl rfl rfl rfl ?_) | exact fun h g => ⟨h, g⟩ | exact fun h g => ⟨Regs.wf_set _ _ h, g⟩ | exact fun h g => ⟨Regs.wf_set _ _ (Regs.wf_set _ _ h), g⟩ | exact fun h g => ⟨kept_setWords _ _ _ _ h, g⟩ | exact fun h _ => ⟨h, h⟩ | dsimp only | intro _)

theorem kept_State_replan {s0 s : State}  (hk : Keeps s0 s) : Keeps s0 (State.replan s) := by
  unfold State.replan
  repeat' (first | with_reducible assumption | (with_reducible first | apply kept_State_planChanged | apply kept_State_addSat | apply kept_State_setFlagIf | apply kept_State_setFlag | apply kept_ite | apply kept_ite1 | apply kept_ite2 | apply kept_foldl) | split | (dsimp only; split) | (apply kept_eq1; assumption) | (apply kept_eq2; assumption) | (with_reducible refine Keeps.upd ?_ rfl rfl rfl rfl rfl rfl rfl rfl rfl rfl rfl ?_) | exact fun h g => ⟨h, g⟩ | exact fun h g => ⟨Regs.wf_set _ _ h, g⟩ | exact fun h g => ⟨Regs.wf_set _ _ (Regs.wf_set _ _ h), g⟩ | exact fun h g => ⟨kept_setWords _ _ _ _ h, g⟩ | exact fun h _ => ⟨h, h⟩ | dsimp only | intro _)

theorem kept_State_commitPlan {s0 s : State}  (hk : Keeps s0 s) : Keeps s0 (State.commitPlan s).1 := by
  unfold State.commitPlan
  repeat' (first | with_reducible assumption | (with_reducible first | apply kept_State_setPlanErr | apply kept_State_setFlag | apply kept_ite | apply kept_ite1 | apply kept_ite2 | apply kept_foldl) | split | (dsimp only; split) | (apply kept_eq1; assumption) | (apply kept_eq2; assumption) | (with_reducible refine Keeps.upd ?_ rfl rfl rfl rfl rfl rfl rfl rfl rfl rfl rfl ?_) | exact fun h g => ⟨h, g⟩ | exact fun h g => ⟨Regs.wf_set _ _ h, g⟩ | exact fun h g => ⟨Regs.wf_set _ _ (Regs.wf_set _ _ h), g⟩ | exact fun h g => ⟨kept_setWords _ _ _ _ h, g⟩ | exact fun h _ => ⟨h, h⟩ | dsimp only | intro _)

theorem kept_State_commitGuard {s0 s : State} {failed : Bool} (hk : Keeps s0 s) : Keeps s0 (State.commitGuard s failed).1 := by
  unfold State.commitGuard
  repeat' (first | with_reducible assumption | (with_reducible first | apply kept_State_setPlanErr | apply kept_State_setFlag | apply kept_ite | apply kept_ite1 | apply kept_ite2 | apply kept_foldl) | split | (dsimp only; split) | (apply kept_eq1; assumption) | (apply kept_eq2; assumption) | (with_reducible refine Keeps.upd ?_ rfl rfl rfl rfl rfl rfl rfl rfl rfl rfl rfl ?_) | exact fun h g => ⟨h, g⟩ | exact fun h g => ⟨Regs.wf_set _ _ h, g⟩ | exact fun h g => ⟨Regs.wf_set _ _ (Regs.wf_set _ _ h), g⟩ | exact fun h g => ⟨kept_setWords _ _ _ _ h, g⟩ | exact fun h _ => ⟨h, h⟩ | dsimp only | intro _)

theorem kept_State_planBoundary {s0 s : State}  (hk : Keeps s0 s) : Keeps s0 (State.planBoundary s) := by
  unfold State.planBoundary
  repeat' (first | with_reducible assumption | (with_reducible first | apply kept_State_commitGuard | apply kept_State_commitPlan | apply kept_State_replan | apply kept_State_planChanged | apply kept_ite | apply kept_ite1 | apply kept_ite2 | apply kept_foldl) | split | (dsimp only; split) | (apply kept_eq1; assumption) | (apply kept_eq2; assumption) | (with_reducible refine Keeps.upd ?_ rfl rfl rfl rfl rfl rfl rfl rfl rfl rfl rfl ?_) | exact fun h g => ⟨h, g⟩ | exact fun h g => ⟨Regs.wf_set _ _ h, g⟩ | exact fun h g => ⟨Regs.wf_set _ _ (Regs.wf_set _ _ h), g⟩ | exact fun h g => ⟨kept_setWords _ _ _ _ h, g⟩ | exact fun h _ => ⟨h, h⟩ | dsimp only | intro _)

theorem kept_State_coefStore {s0 s : State} {lo : Word} {hi : Word} (hk : Keeps s0 s) : Keeps s0 (State.coefStore s lo hi) := by
  unfold State.coefStore
  repeat' (first | with_reducible assumption | (with_reducible first | apply kept_State_setFlag | apply kept_ite | apply kept_ite1 | apply kept_ite2 | apply kept_foldl) | split | (dsimp only; split) | (apply kept_eq1; assumption) | (apply kept_eq2; assumption) | (with_reducible refine Keeps.upd ?_ rfl rfl rfl rfl rfl rfl rfl rfl rfl rfl rfl ?_) | exact fun h g => ⟨h, g⟩ | exact fun h g => ⟨Regs.wf_set _ _ h, g⟩ | exact fun h g => ⟨Regs.wf_set _ _ (Regs.wf_set _ _ h), g⟩ | exact fun h g => ⟨kept_setWords _ _ _ _ h, g⟩ | exact fun h _ => ⟨h, h⟩ | dsimp only | intro _)

theorem kept_State_coefWrite {s0 s : State} {v : Word} (hk : Keeps s0 s) : Keeps s0 (State.coefWrite s v) := by
  unfold State.coefWrite
  repeat' (first | with_reducible assumption | (with_reducible first | apply kept_State_coefStore | apply kept_State_setFlag | apply kept_State_setReg | apply kept_ite | apply kept_ite1 | apply kept_ite2 | apply kept_foldl) | split | (dsimp only; split) | (apply kept_eq1; assumption) | (apply kept_eq2; assumption) | (with_reducible refine Keeps.upd ?_ rfl rfl rfl rfl rfl rfl rfl rfl rfl rfl rfl ?_) | exact fun h g => ⟨h, g⟩ | exact fun h g => ⟨Regs.wf_set _ _ h, g⟩ | exact fun h g => ⟨Regs.wf_set _ _ (Regs.wf_set _ _ h), g⟩ | exact fun h g => ⟨kept_setWords _ _ _ _ h, g⟩ | exact fun h _ => ⟨h, h⟩ | dsimp only | intro _)

theorem kept_State_curveWrite {s0 s : State} {v : Word} (hk : Keeps s0 s) : Keeps s0 (State.curveWrite s v) := by
  unfold State.curveWrite
  repeat' (first | with_reducible assumption | (with_reducible first | apply kept_State_setReg | apply kept_ite | apply kept_ite1 | apply kept_ite2 | apply kept_foldl) | split | (dsimp only; split) | (apply kept_eq1; assumption) | (apply kept_eq2; assumption) | (with_reducible refine Keeps.upd ?_ rfl rfl rfl rfl rfl rfl rfl rfl rfl rfl rfl ?_) | exact fun h g => ⟨h, g⟩ | exact fun h g => ⟨Regs.wf_set _ _ h, g⟩ | exact fun h g => ⟨Regs.wf_set _ _ (Regs.wf_set _ _ h), g⟩ | exact fun h g => ⟨kept_setWords _ _ _ _ h, g⟩ | exact fun h _ => ⟨h, h⟩ | dsimp only | intro _)

theorem kept_State_skipWords {s0 s : State} {n : Nat} (hk : Keeps s0 s) : Keeps s0 (State.skipWords s n) := by
  unfold State.skipWords
  repeat' (first | with_reducible assumption | (with_reducible first | apply kept_State_addSat | apply kept_ite | apply kept_ite1 | apply kept_ite2 | apply kept_foldl) | split | (dsimp only; split) | (apply kept_eq1; assumption) | (apply kept_eq2; assumption) | (with_reducible refine Keeps.upd ?_ rfl rfl rfl rfl rfl rfl rfl rfl rfl rfl rfl ?_) | exact fun h g => ⟨h, g⟩ | exact fun h g => ⟨Regs.wf_set _ _ h, g⟩ | exact fun h g => ⟨Regs.wf_set _ _ (Regs.wf_set _ _ h), g⟩ | exact fun h g => ⟨kept_setWords _ _ _ _ h, g⟩ | exact fun h _ => ⟨h, h⟩ | dsimp only | intro _)

theorem kept_State_loadWord {s0 s : State} {a : Nat} {w : Word} (hk : Keeps s0 s) : Keeps s0 (State.loadWord s a w) := by
  unfold State.loadWord
  repeat' (first | with_reducible assumption | (with_reducible first | apply kept_State_skipWords | apply kept_State_curveWrite | apply kept_State_coefWrite | apply kept_State_setReg | apply kept_ite | apply kept_ite1 | apply kept_ite2 | apply kept_foldl) | split | (dsimp only; split) | (apply kept_eq1; assumption) | (apply kept_eq2; assumption) | (with_reducible refine Keeps.upd ?_ rfl rfl rfl rfl rfl rfl rfl rfl rfl rfl rfl ?_) | exact fun h g => ⟨h, g⟩ | exact fun h g => ⟨Regs.wf_set _ _ h, g⟩ | exact fun h g => ⟨Regs.wf_set _ _ (Regs.wf_set _ _ h), g⟩ | exact fun h g => ⟨kept_setWords _ _ _ _ h, g⟩ | exact fun h _ => ⟨h, h⟩ | dsimp only | intro _)

theorem kept_State_loadWords {s0 s : State} {a : Nat} {l : List Word} (hk : Keeps s0 s) : Keeps s0 (State.loadWords s a l) := by
  induction l generalizing s a with
  | nil => exact hk
  | cons x xs ih =>
    unfold State.loadWords
    repeat' (first | with_reducible assumption | (with_reducible first | apply ih | apply kept_State_loadWord | apply kept_ite | apply kept_ite1 | apply kept_ite2 | apply kept_foldl) | split | (dsimp only; split) | (apply kept_eq1; assumption) | (apply kept_eq2; assumption) | (with_reducible refine Keeps.upd ?_ rfl rfl rfl rfl rfl rfl rfl rfl rfl rfl rfl ?_) | exact fun h g => ⟨h, g⟩ | exact fun h g => ⟨Regs.wf_set _ _ h, g⟩ | exact fun h g => ⟨Regs.wf_set _ _ (Regs.wf_set _ _ h), g⟩ | exact fun h g => ⟨kept_setWords _ _ _ _ h, g⟩ | exact fun h _ => ⟨h, h⟩ | dsimp only | intro _)

theorem kept_State_loadRun {s0 s : State} {typ : Nat} {addr : Nat} {data : List Word} (hk : Keeps s0 s) : Keeps s0 (State.loadRun s typ addr data) := by
  unfold State.loadRun
  repeat' (first | with_reducible assumption | (with_reducible first | apply kept_State_loadWords | apply kept_State_skipWords | apply kept_State_setReg | apply kept_ite | apply kept_ite1 | apply kept_ite2 | apply kept_foldl) | split | (dsimp only; split) | (apply kept_eq1; assumption) | (apply kept_eq2; assumption) | (with_reducible refine Keeps.upd ?_ rfl rfl rfl rfl rfl rfl rfl rfl rfl rfl rfl ?_) | exact fun h g => ⟨h, g⟩ | exact fun h g => ⟨Regs.wf_set _ _ h, g⟩ | exact fun h g => ⟨Regs.wf_set _ _ (Regs.wf_set _ _ h), g⟩ | exact fun h g => ⟨kept_setWords _ _ _ _ h, g⟩ | exact fun h _ => ⟨h, h⟩ | dsimp only | intro _)

theorem kept_State_loadImage {s0 s : State} {k0 : Nat} {l : List Word} (hk : Keeps s0 s) : Keeps s0 (State.loadImage s k0 l) := by
  induction k0 generalizing s l with
  | zero => exact hk
  | succ k ih =>
    unfold State.loadImage
    repeat' (first | with_reducible assumption | (with_reducible first | apply ih | apply kept_State_loadRun | apply kept_ite | apply kept_ite1 | apply kept_ite2 | apply kept_foldl) | split | (dsimp only; split) | (apply kept_eq1; assumption) | (apply kept_eq2; assumption) | (with_reducible refine Keeps.upd ?_ rfl rfl rfl rfl rfl rfl rfl rfl rfl rfl rfl ?_) | exact fun h g => ⟨h, g⟩ | exact fun h g => ⟨Regs.wf_set _ _ h, g⟩ | exact fun h g => ⟨Regs.wf_set _ _ (Regs.wf_set _ _ h), g⟩ | exact fun h g => ⟨kept_setWords _ _ _ _ h, g⟩ | exact fun h _ => ⟨h, h⟩ | dsimp only | intro _)

theorem kept_State_shedToHc {s0 s : State}  (hk : Keeps s0 s) : Keeps s0 (State.shedToHc s) := by
  unfold State.shedToHc
  repeat' (first | with_reducible assumption | (with_reducible first | apply kept_State_after | apply kept_State_draw | apply kept_ite | apply kept_ite1 | apply kept_ite2 | apply kept_foldl) | split | (dsimp only; split) | (apply kept_eq1; assumption) | (apply kept_eq2; assumption) | (with_reducible refine Keeps.upd ?_ rfl rfl rfl rfl rfl rfl rfl rfl rfl rfl rfl ?_) | exact fun h g => ⟨h, g⟩ | exact fun h g => ⟨Regs.wf_set _ _ h, g⟩ | exact fun h g => ⟨Regs.wf_set _ _ (Regs.wf_set _ _ h), g⟩ | exact fun h g => ⟨kept_setWords _ _ _ _ h, g⟩ | exact fun h _ => ⟨h, h⟩ | dsimp only | intro _)

theorem kept_State_shedStart {s0 s : State}  (hk : Keeps s0 s) : Keeps s0 (State.shedStart s) := by
  unfold State.shedStart
  repeat' (first | with_reducible assumption | (with_reducible first | apply kept_State_after | apply kept_ite | apply kept_ite1 | apply kept_ite2 | apply kept_foldl) | split | (dsimp only; split) | (apply kept_eq1; assumption) | (apply kept_eq2; assumption) | (with_reducible refine Keeps.upd ?_ rfl rfl rfl rfl rfl rfl rfl rfl rfl rfl rfl ?_) | exact fun h g => ⟨h, g⟩ | exact fun h g => ⟨Regs.wf_set _ _ h, g⟩ | exact fun h g => ⟨Regs.wf_set _ _ (Regs.wf_set _ _ h), g⟩ | exact fun h g => ⟨kept_setWords _ _ _ _ h, g⟩ | exact fun h _ => ⟨h, h⟩ | dsimp only | intro _)

theorem kept_State_shedAdd {s0 s : State} {js : List Job} (hk : Keeps s0 s) : Keeps s0 (State.shedAdd s js) := by
  unfold State.shedAdd
  repeat' (first | with_reducible assumption | (with_reducible first | apply kept_State_shedStart | apply kept_ite | apply kept_ite1 | apply kept_ite2 | apply kept_foldl) | split | (dsimp only; split) | (apply kept_eq1; assumption) | (apply kept_eq2; assumption) | (with_reducible refine Keeps.upd ?_ rfl rfl rfl rfl rfl rfl rfl rfl rfl rfl rfl ?_) | exact fun h g => ⟨h, g⟩ | exact fun h g => ⟨Regs.wf_set _ _ h, g⟩ | exact fun h g => ⟨Regs.wf_set _ _ (Regs.wf_set _ _ h), g⟩ | exact fun h g => ⟨kept_setWords _ _ _ _ h, g⟩ | exact fun h _ => ⟨h, h⟩ | dsimp only | intro _)

theorem kept_State_shedEpoch {s0 s : State}  (hk : Keeps s0 s) : Keeps s0 (State.shedEpoch s) := by
  unfold State.shedEpoch
  repeat' (first | with_reducible assumption | (with_reducible first | apply kept_State_shedAdd | apply kept_ite | apply kept_ite1 | apply kept_ite2 | apply kept_foldl) | split | (dsimp only; split) | (apply kept_eq1; assumption) | (apply kept_eq2; assumption) | (with_reducible refine Keeps.upd ?_ rfl rfl rfl rfl rfl rfl rfl rfl rfl rfl rfl ?_) | exact fun h g => ⟨h, g⟩ | exact fun h g => ⟨Regs.wf_set _ _ h, g⟩ | exact fun h g => ⟨Regs.wf_set _ _ (Regs.wf_set _ _ h), g⟩ | exact fun h g => ⟨kept_setWords _ _ _ _ h, g⟩ | exact fun h _ => ⟨h, h⟩ | dsimp only | intro _)

theorem kept_State_shedSave {s0 s : State}  (hk : Keeps s0 s) : Keeps s0 (State.shedSave s) := by
  unfold State.shedSave
  repeat' (first | with_reducible assumption | (with_reducible first | apply kept_State_shedAdd | apply kept_ite | apply kept_ite1 | apply kept_ite2 | apply kept_foldl) | split | (dsimp only; split) | (apply kept_eq1; assumption) | (apply kept_eq2; assumption) | (with_reducible refine Keeps.upd ?_ rfl rfl rfl rfl rfl rfl rfl rfl rfl rfl rfl ?_) | exact fun h g => ⟨h, g⟩ | exact fun h g => ⟨Regs.wf_set _ _ h, g⟩ | exact fun h g => ⟨Regs.wf_set _ _ (Regs.wf_set _ _ h), g⟩ | exact fun h g => ⟨kept_setWords _ _ _ _ h, g⟩ | exact fun h _ => ⟨h, h⟩ | dsimp only | intro _)

theorem kept_State_forgetDone {s0 s : State}  (hk : Keeps s0 s) : Keeps s0 (State.forgetDone s) := by
  unfold State.forgetDone
  repeat' (first | with_reducible assumption | (with_reducible first | apply kept_State_setWide | apply kept_State_setFlagIf | apply kept_State_setFlag | apply kept_ite | apply kept_ite1 | apply kept_ite2 | apply kept_foldl) | split | (dsimp only; split) | (apply kept_eq1; assumption) | (apply kept_eq2; assumption) | (with_reducible refine Keeps.upd ?_ rfl rfl rfl rfl rfl rfl rfl rfl rfl rfl rfl ?_) | exact fun h g => ⟨h, g⟩ | exact fun h g => ⟨Regs.wf_set _ _ h, g⟩ | exact fun h g => ⟨Regs.wf_set _ _ (Regs.wf_set _ _ h), g⟩ | exact fun h g => ⟨kept_setWords _ _ _ _ h, g⟩ | exact fun h _ => ⟨h, h⟩ | dsimp only | intro _)

theorem kept_State_shedForget {s0 s : State}  (hk : Keeps s0 s) : Keeps s0 (State.shedForget s) := by
  unfold State.shedForget
  repeat' (first | with_reducible assumption | (with_reducible first | apply kept_State_forgetDone | apply kept_State_shedAdd | apply kept_ite | apply kept_ite1 | apply kept_ite2 | apply kept_foldl) | split | (dsimp only; split) | (apply kept_eq1; assumption) | (apply kept_eq2; assumption) | (with_reducible refine Keeps.upd ?_ rfl rfl rfl rfl rfl rfl rfl rfl rfl rfl rfl ?_) | exact fun h g => ⟨h, g⟩ | exact fun h g => ⟨Regs.wf_set _ _ h, g⟩ | exact fun h g => ⟨Regs.wf_set _ _ (Regs.wf_set _ _ h), g⟩ | exact fun h g => ⟨kept_setWords _ _ _ _ h, g⟩ | exact fun h _ => ⟨h, h⟩ | dsimp only | intro _)

theorem kept_State_shedReadback {s0 s : State}  (hk : Keeps s0 s) : Keeps s0 (State.shedReadback s) := by
  unfold State.shedReadback
  repeat' (first | with_reducible assumption | (with_reducible first | apply kept_State_after | apply kept_ite | apply kept_ite1 | apply kept_ite2 | apply kept_foldl) | split | (dsimp only; split) | (apply kept_eq1; assumption) | (apply kept_eq2; assumption) | (with_reducible refine Keeps.upd ?_ rfl rfl rfl rfl rfl rfl rfl rfl rfl rfl rfl ?_) | exact fun h g => ⟨h, g⟩ | exact fun h g => ⟨Regs.wf_set _ _ h, g⟩ | exact fun h g => ⟨Regs.wf_set _ _ (Regs.wf_set _ _ h), g⟩ | exact fun h g => ⟨kept_setWords _ _ _ _ h, g⟩ | exact fun h _ => ⟨h, h⟩ | dsimp only | intro _)

theorem kept_State_shedCheck {s0 s : State}  (hk : Keeps s0 s) : Keeps s0 (State.shedCheck s) := by
  unfold State.shedCheck
  repeat' (first | with_reducible assumption | (with_reducible first | apply kept_State_setWide | apply kept_State_setFlag | apply kept_State_setReg | apply kept_ite | apply kept_ite1 | apply kept_ite2 | apply kept_foldl) | split | (dsimp only; split) | (apply kept_eq1; assumption) | (apply kept_eq2; assumption) | (with_reducible refine Keeps.upd ?_ rfl rfl rfl rfl rfl rfl rfl rfl rfl rfl rfl ?_) | exact fun h g => ⟨h, g⟩ | exact fun h g => ⟨Regs.wf_set _ _ h, g⟩ | exact fun h g => ⟨Regs.wf_set _ _ (Regs.wf_set _ _ h), g⟩ | exact fun h g => ⟨kept_setWords _ _ _ _ h, g⟩ | exact fun h _ => ⟨h, h⟩ | dsimp only | intro _)

theorem kept_State_shedInterrupt {s0 s : State}  (hk : Keeps s0 s) : Keeps s0 (State.shedInterrupt s) := by
  unfold State.shedInterrupt
  repeat' (first | with_reducible assumption | (with_reducible first | apply kept_State_draw | apply kept_ite | apply kept_ite1 | apply kept_ite2 | apply kept_foldl) | split | (dsimp only; split) | (apply kept_eq1; assumption) | (apply kept_eq2; assumption) | (with_reducible refine Keeps.upd ?_ rfl rfl rfl rfl rfl rfl rfl rfl rfl rfl rfl ?_) | exact fun h g => ⟨h, g⟩ | exact fun h g => ⟨Regs.wf_set _ _ h, g⟩ | exact fun h g => ⟨Regs.wf_set _ _ (Regs.wf_set _ _ h), g⟩ | exact fun h g => ⟨kept_setWords _ _ _ _ h, g⟩ | exact fun h _ => ⟨h, h⟩ | dsimp only | intro _)

theorem kept_State_loadBank {s0 s : State} {pick : Option Nat} (hk : Keeps s0 s) : Keeps s0 (State.loadBank s pick) := by
  unfold State.loadBank
  repeat' (first | with_reducible assumption | (with_reducible first | apply kept_State_loadImage | apply kept_State_setWide | apply kept_State_setReg | apply kept_ite | apply kept_ite1 | apply kept_ite2 | apply kept_foldl) | split | (dsimp only; split) | (apply kept_eq1; assumption) | (apply kept_eq2; assumption) | (with_reducible refine Keeps.upd ?_ rfl rfl rfl rfl rfl rfl rfl rfl rfl rfl rfl ?_) | exact fun h g => ⟨h, g⟩ | exact fun h g => ⟨Regs.wf_set _ _ h, g⟩ | exact fun h g => ⟨Regs.wf_set _ _ (Regs.wf_set _ _ h), g⟩ | exact fun h g => ⟨kept_setWords _ _ _ _ h, g⟩ | exact fun h _ => ⟨h, h⟩ | dsimp only | intro _)

theorem kept_State_takeEpoch {s0 s : State} {best : Option (Nat × Nat × Nat)} (hk : Keeps s0 s) : Keeps s0 (State.takeEpoch s best) := by
  unfold State.takeEpoch
  repeat' (first | with_reducible assumption | (with_reducible first | apply kept_State_setWide | apply kept_State_setReg | apply kept_ite | apply kept_ite1 | apply kept_ite2 | apply kept_foldl) | split | (dsimp only; split) | (apply kept_eq1; assumption) | (apply kept_eq2; assumption) | (with_reducible refine Keeps.upd ?_ rfl rfl rfl rfl rfl rfl rfl rfl rfl rfl rfl ?_) | exact fun h g => ⟨h, g⟩ | exact fun h g => ⟨Regs.wf_set _ _ h, g⟩ | exact fun h g => ⟨Regs.wf_set _ _ (Regs.wf_set _ _ h), g⟩ | exact fun h g => ⟨kept_setWords _ _ _ _ h, g⟩ | exact fun h _ => ⟨h, h⟩ | dsimp only | intro _)

theorem kept_State_bankSelect {s0 s : State}  (hk : Keeps s0 s) : Keeps s0 (State.bankSelect s) := by
  unfold State.bankSelect
  repeat' (first | with_reducible assumption | (with_reducible first | apply kept_State_takeEpoch | apply kept_State_loadBank | apply kept_State_shedAdd | apply kept_State_setWide | apply kept_State_setReg | apply kept_ite | apply kept_ite1 | apply kept_ite2 | apply kept_foldl) | split | (dsimp only; split) | (apply kept_eq1; assumption) | (apply kept_eq2; assumption) | (with_reducible refine Keeps.upd ?_ rfl rfl rfl rfl rfl rfl rfl rfl rfl rfl rfl ?_) | exact fun h g => ⟨h, g⟩ | exact fun h g => ⟨Regs.wf_set _ _ h, g⟩ | exact fun h g => ⟨Regs.wf_set _ _ (Regs.wf_set _ _ h), g⟩ | exact fun h g => ⟨kept_setWords _ _ _ _ h, g⟩ | exact fun h _ => ⟨h, h⟩ | dsimp only | intro _)

end Machine
end Sys2Proof
end

