-- ==== Sys2Proof/Laws/KeepsScan.lean ====
section
/-! SUPPORT. What the operations of the scan, the images, the contacts and the diagnostics keep. -/

set_option linter.unusedTactic false
set_option linter.unreachableTactic false
set_option linter.unusedSimpArgs false

namespace Sys2Proof
namespace Machine

theorem kept_State_setErng {s0 s : State} {m : Nat} {r : Nat} (hk : Keeps s0 s) : Keeps s0 (State.setErng s m r) := by
  unfold State.setErng
  repeat' (first | with_reducible assumption | (with_reducible first | apply kept_State_setReg | apply kept_ite | apply kept_ite1 | apply kept_ite2 | apply kept_foldl) | split | (dsimp only; split) | (apply kept_eq1; assumption) | (apply kept_eq2; assumption) | (with_reducible refine Keeps.upd ?_ rfl rfl rfl rfl rfl rfl rfl rfl rfl rfl rfl ?_) | exact fun h g => ⟨h, g⟩ | exact fun h g => ⟨Regs.wf_set _ _ h, g⟩ | exact fun h g => ⟨Regs.wf_set _ _ (Regs.wf_set _ _ h), g⟩ | exact fun h g => ⟨kept_setWords _ _ _ _ h, g⟩ | exact fun h _ => ⟨h, h⟩ | dsimp only | intro _)

theorem kept_State_visitEnd {s0 s : State} {v : Nat × Nat × Nat × Nat × Nat × Bool} (hk : Keeps s0 s) : Keeps s0 (State.visitEnd s v) := by
  unfold State.visitEnd
  repeat' (first | with_reducible assumption | (with_reducible first | apply kept_State_setErng | apply kept_State_setFlagIf | apply kept_State_setFlag | apply kept_State_setReg | apply kept_ite | apply kept_ite1 | apply kept_ite2 | apply kept_foldl) | split | (dsimp only; split) | (apply kept_eq1; assumption) | (apply kept_eq2; assumption) | (with_reducible refine Keeps.upd ?_ rfl rfl rfl rfl rfl rfl rfl rfl rfl rfl rfl ?_) | exact fun h g => ⟨h, g⟩ | exact fun h g => ⟨Regs.wf_set _ _ h, g⟩ | exact fun h g => ⟨Regs.wf_set _ _ (Regs.wf_set _ _ h), g⟩ | exact fun h g => ⟨kept_setWords _ _ _ _ h, g⟩ | exact fun h _ => ⟨h, h⟩ | dsimp only | intro _)

theorem kept_State_showRange {s0 s : State} {lane : Nat} {rng : Nat} (hk : Keeps s0 s) : Keeps s0 (State.showRange s lane rng) := by
  unfold State.showRange
  repeat' (first | with_reducible assumption | (with_reducible first | apply kept_State_setReg | apply kept_ite | apply kept_ite1 | apply kept_ite2 | apply kept_foldl) | split | (dsimp only; split) | (apply kept_eq1; assumption) | (apply kept_eq2; assumption) | (with_reducible refine Keeps.upd ?_ rfl rfl rfl rfl rfl rfl rfl rfl rfl rfl rfl ?_) | exact fun h g => ⟨h, g⟩ | exact fun h g => ⟨Regs.wf_set _ _ h, g⟩ | exact fun h g => ⟨Regs.wf_set _ _ (Regs.wf_set _ _ h), g⟩ | exact fun h g => ⟨kept_setWords _ _ _ _ h, g⟩ | exact fun h _ => ⟨h, h⟩ | dsimp only | intro _)

theorem kept_State_showRanges {s0 s : State} {kind : SlotKind} {scph : Nat} (hk : Keeps s0 s) : Keeps s0 (State.showRanges s kind scph) := by
  unfold State.showRanges
  repeat' (first | with_reducible assumption | (with_reducible first | apply kept_State_showRange | apply kept_ite | apply kept_ite1 | apply kept_ite2 | apply kept_foldl) | split | (dsimp only; split) | (apply kept_eq1; assumption) | (apply kept_eq2; assumption) | (with_reducible refine Keeps.upd ?_ rfl rfl rfl rfl rfl rfl rfl rfl rfl rfl rfl ?_) | exact fun h g => ⟨h, g⟩ | exact fun h g => ⟨Regs.wf_set _ _ h, g⟩ | exact fun h g => ⟨Regs.wf_set _ _ (Regs.wf_set _ _ h), g⟩ | exact fun h g => ⟨kept_setWords _ _ _ _ h, g⟩ | exact fun h _ => ⟨h, h⟩ | dsimp only | intro _)

theorem kept_State_peekLoad {s0 s : State} {c : FrameCtx} (hk : Keeps s0 s) : Keeps s0 (State.peekLoad s c) := by
  unfold State.peekLoad
  repeat' (first | with_reducible assumption | (with_reducible first | apply kept_State_setWide | apply kept_State_setReg | apply kept_ite | apply kept_ite1 | apply kept_ite2 | apply kept_foldl) | split | (dsimp only; split) | (apply kept_eq1; assumption) | (apply kept_eq2; assumption) | (with_reducible refine Keeps.upd ?_ rfl rfl rfl rfl rfl rfl rfl rfl rfl rfl rfl ?_) | exact fun h g => ⟨h, g⟩ | exact fun h g => ⟨Regs.wf_set _ _ h, g⟩ | exact fun h g => ⟨Regs.wf_set _ _ (Regs.wf_set _ _ h), g⟩ | exact fun h g => ⟨kept_setWords _ _ _ _ h, g⟩ | exact fun h _ => ⟨h, h⟩ | dsimp only | intro _)

theorem kept_State_dropTarget {s0 s : State} {flag : Nat} (hk : Keeps s0 s) : Keeps s0 (State.dropTarget s flag) := by
  unfold State.dropTarget
  repeat' (first | with_reducible assumption | (with_reducible first | apply kept_State_addSat | apply kept_State_setFlag | apply kept_ite | apply kept_ite1 | apply kept_ite2 | apply kept_foldl) | split | (dsimp only; split) | (apply kept_eq1; assumption) | (apply kept_eq2; assumption) | (with_reducible refine Keeps.upd ?_ rfl rfl rfl rfl rfl rfl rfl rfl rfl rfl rfl ?_) | exact fun h g => ⟨h, g⟩ | exact fun h g => ⟨Regs.wf_set _ _ h, g⟩ | exact fun h g => ⟨Regs.wf_set _ _ (Regs.wf_set _ _ h), g⟩ | exact fun h g => ⟨kept_setWords _ _ _ _ h, g⟩ | exact fun h _ => ⟨h, h⟩ | dsimp only | intro _)

theorem kept_State_takeTarget {s0 s : State} {h : List HistFrame} {t0 : Int} {t : Int} (hk : Keeps s0 s) : Keeps s0 (State.takeTarget s h t0 t) := by
  unfold State.takeTarget
  repeat' (first | with_reducible assumption | (with_reducible first | apply kept_State_dropTarget | apply kept_ite | apply kept_ite1 | apply kept_ite2 | apply kept_foldl) | split | (dsimp only; split) | (apply kept_eq1; assumption) | (apply kept_eq2; assumption) | (with_reducible refine Keeps.upd ?_ rfl rfl rfl rfl rfl rfl rfl rfl rfl rfl rfl ?_) | exact fun h g => ⟨h, g⟩ | exact fun h g => ⟨Regs.wf_set _ _ h, g⟩ | exact fun h g => ⟨Regs.wf_set _ _ (Regs.wf_set _ _ h), g⟩ | exact fun h g => ⟨kept_setWords _ _ _ _ h, g⟩ | exact fun h _ => ⟨h, h⟩ | dsimp only | intro _)

theorem kept_State_freeRun {s0 s : State} {h : List HistFrame} {u : Int} {k0 : Nat} (hk : Keeps s0 s) : Keeps s0 (State.freeRun s h u k0) := by
  induction k0 generalizing s with
  | zero => exact hk
  | succ k ih =>
    unfold State.freeRun
    split
    · dsimp only
      split
      · exact ih (kept_State_takeTarget (Keeps.upd hk rfl rfl rfl rfl rfl rfl rfl rfl rfl rfl rfl fun h g => ⟨h, g⟩))
      · exact hk
    · exact hk

theorem kept_State_resolveTargets {s0 s : State} {u : HistFrame} {l : List Int} (hk : Keeps s0 s) : Keeps s0 (State.resolveTargets s u l) := by
  induction l generalizing s with
  | nil => exact hk
  | cons x xs ih =>
    unfold State.resolveTargets
    refine kept_ite (fun _ => ih hk) fun _ => ?_
    extract_lets _ s1
    have h1 : Keeps s0 s1 := Keeps.upd hk rfl rfl rfl rfl rfl rfl rfl rfl rfl rfl rfl fun h g => ⟨h, g⟩
    clear_value s1
    split
    · split
      · exact ih (Keeps.upd h1 rfl rfl rfl rfl rfl rfl rfl rfl rfl rfl rfl fun h g => ⟨h, g⟩)
      · exact ih (kept_State_dropTarget h1)
    · exact ih (kept_State_dropTarget h1)

theorem kept_State_resamplerEnter {s0 s : State} {starts : List Nat} {gdly : Nat} {cells : List (List Cell)} (hk : Keeps s0 s) :
    Keeps s0 (State.resamplerEnter s starts gdly cells) := by
  unfold State.resamplerEnter
  extract_lets _ _ _ _ s1 early _ s2 _ s3 s4 _ s5
  have h1 : Keeps s0 s1 := Keeps.upd hk rfl rfl rfl rfl rfl rfl rfl rfl rfl rfl rfl fun h g => ⟨h, g⟩
  have h2 : Keeps s0 s2 := Keeps.upd h1 rfl rfl rfl rfl rfl rfl rfl rfl rfl rfl rfl fun h g => ⟨h, g⟩
  have h3 : Keeps s0 s3 := by
    clear_value s2
    exact kept_ite (fun _ => kept_ite (fun _ => kept_foldl h2 fun _ _ h => kept_State_takeTarget h)
      (fun _ => kept_State_takeTarget (Keeps.upd h2 rfl rfl rfl rfl rfl rfl rfl rfl rfl rfl rfl fun h g => ⟨h, g⟩))) (fun _ => h1)
  clear_value s3
  have h4 : Keeps s0 s4 := kept_ite (fun _ => kept_State_freeRun h3) (fun _ => h3)
  clear_value s4
  have h5 : Keeps s0 s5 := kept_State_resolveTargets h4
  clear_value s5
  exact kept_ite (fun _ => kept_State_after h5) (fun _ => h5)

theorem kept_State_syncReset {s0 s : State}  (hk : Keeps s0 s) : Keeps s0 (State.syncReset s) := by
  unfold State.syncReset
  repeat' (first | with_reducible assumption | (with_reducible first | apply kept_State_unschedule | apply kept_State_setFlag | apply kept_ite | apply kept_ite1 | apply kept_ite2 | apply kept_foldl) | split | (dsimp only; split) | (apply kept_eq1; assumption) | (apply kept_eq2; assumption) | (with_reducible refine Keeps.upd ?_ rfl rfl rfl rfl rfl rfl rfl rfl rfl rfl rfl ?_) | exact fun h g => ⟨h, g⟩ | exact fun h g => ⟨Regs.wf_set _ _ h, g⟩ | exact fun h g => ⟨Regs.wf_set _ _ (Regs.wf_set _ _ h), g⟩ | exact fun h g => ⟨kept_setWords _ _ _ _ h, g⟩ | exact fun h _ => ⟨h, h⟩ | dsimp only | intro _)

theorem kept_State_vsyncTarget {s0 s : State} {v : Nat} (hk : Keeps s0 s) : Keeps s0 (State.vsyncTarget s v) := by
  unfold State.vsyncTarget
  refine kept_ite (fun _ => hk) fun _ => ?_
  extract_lets _ _ s1 _ s2 _ _ s3 _ s4
  have h1 : Keeps s0 s1 := kept_ite (fun _ => kept_State_freeRun hk) (fun _ => hk)
  clear_value s1
  have h2 : Keeps s0 s2 := kept_ite (fun _ => h1)
    (fun _ => kept_State_setFlag (Keeps.upd h1 rfl rfl rfl rfl rfl rfl rfl rfl rfl rfl rfl fun h g => ⟨h, g⟩))
  clear_value s2
  have h3 : Keeps s0 s3 := Keeps.upd h2 rfl rfl rfl rfl rfl rfl rfl rfl rfl rfl rfl fun h g => ⟨h, g⟩
  clear_value s3
  have h4 : Keeps s0 s4 := by
    dsimp only [s4]
    split
    · exact kept_State_takeTarget h3
    · exact Keeps.upd h3 rfl rfl rfl rfl rfl rfl rfl rfl rfl rfl rfl fun h g => ⟨h, g⟩
  clear_value s4
  exact kept_State_after (kept_State_unschedule h4)

theorem kept_State_outputCount {s0 s : State} {o : Output} (hk : Keeps s0 s) : Keeps s0 (State.outputCount s o) :=
  kept_State_setReg (Keeps.upd hk rfl rfl rfl rfl rfl rfl rfl rfl rfl rfl rfl (fun h g => ⟨h, g⟩))

theorem kept_State_vsyncLost {s0 s : State}  (hk : Keeps s0 s) : Keeps s0 (State.vsyncLost s) := by
  unfold State.vsyncLost
  repeat' (first | with_reducible assumption | (with_reducible first | apply kept_State_setFlag | apply kept_ite | apply kept_ite1 | apply kept_ite2 | apply kept_foldl) | split | (dsimp only; split) | (apply kept_eq1; assumption) | (apply kept_eq2; assumption) | (with_reducible refine Keeps.upd ?_ rfl rfl rfl rfl rfl rfl rfl rfl rfl rfl rfl ?_) | exact fun h g => ⟨h, g⟩ | exact fun h g => ⟨Regs.wf_set _ _ h, g⟩ | exact fun h g => ⟨Regs.wf_set _ _ (Regs.wf_set _ _ h), g⟩ | exact fun h g => ⟨kept_setWords _ _ _ _ h, g⟩ | exact fun h _ => ⟨h, h⟩ | dsimp only | intro _)

theorem kept_State_contactReport {s0 s : State} {c : Contact} {e : Event} {ts : Nat} {count : Nat} (hk : Keeps s0 s) : Keeps s0 (State.contactReport s c e ts count) := by
  unfold State.contactReport
  repeat' (first | with_reducible assumption | (with_reducible first | apply kept_State_queueMove | apply kept_State_queueLife | apply kept_ite | apply kept_ite1 | apply kept_ite2 | apply kept_foldl) | split | (dsimp only; split) | (apply kept_eq1; assumption) | (apply kept_eq2; assumption) | (with_reducible refine Keeps.upd ?_ rfl rfl rfl rfl rfl rfl rfl rfl rfl rfl rfl ?_) | exact fun h g => ⟨h, g⟩ | exact fun h g => ⟨Regs.wf_set _ _ h, g⟩ | exact fun h g => ⟨Regs.wf_set _ _ (Regs.wf_set _ _ h), g⟩ | exact fun h g => ⟨kept_setWords _ _ _ _ h, g⟩ | exact fun h _ => ⟨h, h⟩ | dsimp only | intro _)

theorem kept_State_contactReports {s0 s : State} {l : List (Contact × Event)} {ts : Nat} (hk : Keeps s0 s) : Keeps s0 (State.contactReports s l ts) := by
  unfold State.contactReports
  repeat' (first | with_reducible assumption | (with_reducible first | apply kept_State_contactReport | apply kept_ite | apply kept_ite1 | apply kept_ite2 | apply kept_foldl) | split | (dsimp only; split) | (apply kept_eq1; assumption) | (apply kept_eq2; assumption) | (with_reducible refine Keeps.upd ?_ rfl rfl rfl rfl rfl rfl rfl rfl rfl rfl rfl ?_) | exact fun h g => ⟨h, g⟩ | exact fun h g => ⟨Regs.wf_set _ _ h, g⟩ | exact fun h g => ⟨Regs.wf_set _ _ (Regs.wf_set _ _ h), g⟩ | exact fun h g => ⟨kept_setWords _ _ _ _ h, g⟩ | exact fun h _ => ⟨h, h⟩ | dsimp only | intro _)

theorem kept_State_idleCheck {s0 s : State}  (hk : Keeps s0 s) : Keeps s0 (State.idleCheck s) := by
  unfold State.idleCheck
  repeat' (first | with_reducible assumption | (with_reducible first | apply kept_State_unschedule | apply kept_State_after | apply kept_ite | apply kept_ite1 | apply kept_ite2 | apply kept_foldl) | split | (dsimp only; split) | (apply kept_eq1; assumption) | (apply kept_eq2; assumption) | (with_reducible refine Keeps.upd ?_ rfl rfl rfl rfl rfl rfl rfl rfl rfl rfl rfl ?_) | exact fun h g => ⟨h, g⟩ | exact fun h g => ⟨Regs.wf_set _ _ h, g⟩ | exact fun h g => ⟨Regs.wf_set _ _ (Regs.wf_set _ _ h), g⟩ | exact fun h g => ⟨kept_setWords _ _ _ _ h, g⟩ | exact fun h _ => ⟨h, h⟩ | dsimp only | intro _)

theorem kept_State_forceUps {s0 s : State} {sel : Contact → Bool} {reason : Nat} (hk : Keeps s0 s) : Keeps s0 (State.forceUps s sel reason) := by
  unfold State.forceUps
  repeat' (first | with_reducible assumption | (with_reducible first | apply kept_State_idleCheck | apply kept_State_contactReports | apply kept_ite | apply kept_ite1 | apply kept_ite2 | apply kept_foldl) | split | (dsimp only; split) | (apply kept_eq1; assumption) | (apply kept_eq2; assumption) | (with_reducible refine Keeps.upd ?_ rfl rfl rfl rfl rfl rfl rfl rfl rfl rfl rfl ?_) | exact fun h g => ⟨h, g⟩ | exact fun h g => ⟨Regs.wf_set _ _ h, g⟩ | exact fun h g => ⟨Regs.wf_set _ _ (Regs.wf_set _ _ h), g⟩ | exact fun h g => ⟨kept_setWords _ _ _ _ h, g⟩ | exact fun h _ => ⟨h, h⟩ | dsimp only | intro _)

theorem kept_State_forceAll {s0 s : State} {reason : Nat} (hk : Keeps s0 s) : Keeps s0 (State.forceAll s reason) := by
  unfold State.forceAll
  repeat' (first | with_reducible assumption | (with_reducible first | apply kept_State_forceUps | apply kept_ite | apply kept_ite1 | apply kept_ite2 | apply kept_foldl) | split | (dsimp only; split) | (apply kept_eq1; assumption) | (apply kept_eq2; assumption) | (with_reducible refine Keeps.upd ?_ rfl rfl rfl rfl rfl rfl rfl rfl rfl rfl rfl ?_) | exact fun h g => ⟨h, g⟩ | exact fun h g => ⟨Regs.wf_set _ _ h, g⟩ | exact fun h g => ⟨Regs.wf_set _ _ (Regs.wf_set _ _ h), g⟩ | exact fun h g => ⟨kept_setWords _ _ _ _ h, g⟩ | exact fun h _ => ⟨h, h⟩ | dsimp only | intro _)

theorem kept_State_forceLane {s0 s : State} {k : Nat} (hk : Keeps s0 s) : Keeps s0 (State.forceLane s k) := by
  unfold State.forceLane
  repeat' (first | with_reducible assumption | (with_reducible first | apply kept_State_forceUps | apply kept_ite | apply kept_ite1 | apply kept_ite2 | apply kept_foldl) | split | (dsimp only; split) | (apply kept_eq1; assumption) | (apply kept_eq2; assumption) | (with_reducible refine Keeps.upd ?_ rfl rfl rfl rfl rfl rfl rfl rfl rfl rfl rfl ?_) | exact fun h g => ⟨h, g⟩ | exact fun h g => ⟨Regs.wf_set _ _ h, g⟩ | exact fun h g => ⟨Regs.wf_set _ _ (Regs.wf_set _ _ h), g⟩ | exact fun h g => ⟨kept_setWords _ _ _ _ h, g⟩ | exact fun h _ => ⟨h, h⟩ | dsimp only | intro _)

theorem kept_State_baseAccumulate {s0 s : State} {cells : List (List Cell)} {selfs : List (Nat × CxQ × Tag)} (hk : Keeps s0 s) : Keeps s0 (State.baseAccumulate s cells selfs) := by
  unfold State.baseAccumulate
  repeat' (first | with_reducible assumption | (with_reducible first | apply kept_ite | apply kept_ite1 | apply kept_ite2 | apply kept_foldl) | split | (dsimp only; split) | (apply kept_eq1; assumption) | (apply kept_eq2; assumption) | (with_reducible refine Keeps.upd ?_ rfl rfl rfl rfl rfl rfl rfl rfl rfl rfl rfl ?_) | exact fun h g => ⟨h, g⟩ | exact fun h g => ⟨Regs.wf_set _ _ h, g⟩ | exact fun h g => ⟨Regs.wf_set _ _ (Regs.wf_set _ _ h), g⟩ | exact fun h g => ⟨kept_setWords _ _ _ _ h, g⟩ | exact fun h _ => ⟨h, h⟩ | dsimp only | intro _)

theorem kept_State_baseForm {s0 s : State} {reentry : Bool} {no : Nat} (hk : Keeps s0 s) : Keeps s0 (State.baseForm s reentry no) := by
  unfold State.baseForm
  repeat' (first | with_reducible assumption | (with_reducible first | apply kept_State_setFlagIf | apply kept_ite | apply kept_ite1 | apply kept_ite2 | apply kept_foldl) | split | (dsimp only; split) | (apply kept_eq1; assumption) | (apply kept_eq2; assumption) | (with_reducible refine Keeps.upd ?_ rfl rfl rfl rfl rfl rfl rfl rfl rfl rfl rfl ?_) | exact fun h g => ⟨h, g⟩ | exact fun h g => ⟨Regs.wf_set _ _ h, g⟩ | exact fun h g => ⟨Regs.wf_set _ _ (Regs.wf_set _ _ h), g⟩ | exact fun h g => ⟨kept_setWords _ _ _ _ h, g⟩ | exact fun h _ => ⟨h, h⟩ | dsimp only | intro _)

theorem kept_State_trellisFrame {s0 s : State} {no : Nat} {cells : List (List Cell)} {selfs : List (Nat × CxQ × Tag)} (hk : Keeps s0 s) : Keeps s0 (State.trellisFrame s no cells selfs) := by
  unfold State.trellisFrame
  repeat' (first | with_reducible assumption | (with_reducible first | apply kept_State_setFlagIf | apply kept_ite | apply kept_ite1 | apply kept_ite2 | apply kept_foldl) | split | (dsimp only; split) | (apply kept_eq1; assumption) | (apply kept_eq2; assumption) | (with_reducible refine Keeps.upd ?_ rfl rfl rfl rfl rfl rfl rfl rfl rfl rfl rfl ?_) | exact fun h g => ⟨h, g⟩ | exact fun h g => ⟨Regs.wf_set _ _ h, g⟩ | exact fun h g => ⟨Regs.wf_set _ _ (Regs.wf_set _ _ h), g⟩ | exact fun h g => ⟨kept_setWords _ _ _ _ h, g⟩ | exact fun h _ => ⟨h, h⟩ | dsimp only | intro _)

theorem kept_State_noteDown {s0 s : State}  (hk : Keeps s0 s) : Keeps s0 (State.noteDown s) := by
  unfold State.noteDown
  repeat' (first | with_reducible assumption | (with_reducible first | apply kept_ite | apply kept_ite1 | apply kept_ite2 | apply kept_foldl) | split | (dsimp only; split) | (apply kept_eq1; assumption) | (apply kept_eq2; assumption) | (with_reducible refine Keeps.upd ?_ rfl rfl rfl rfl rfl rfl rfl rfl rfl rfl rfl ?_) | exact fun h g => ⟨h, g⟩ | exact fun h g => ⟨Regs.wf_set _ _ h, g⟩ | exact fun h g => ⟨Regs.wf_set _ _ (Regs.wf_set _ _ h), g⟩ | exact fun h g => ⟨kept_setWords _ _ _ _ h, g⟩ | exact fun h _ => ⟨h, h⟩ | dsimp only | intro _)

theorem kept_State_stuckClose {s0 s : State} {cs : List Contact} (hk : Keeps s0 s) : Keeps s0 (State.stuckClose s cs) := by
  unfold State.stuckClose
  repeat' (first | with_reducible assumption | (with_reducible first | apply kept_State_setFlagIf | apply kept_ite | apply kept_ite1 | apply kept_ite2 | apply kept_foldl) | split | (dsimp only; split) | (apply kept_eq1; assumption) | (apply kept_eq2; assumption) | (with_reducible refine Keeps.upd ?_ rfl rfl rfl rfl rfl rfl rfl rfl rfl rfl rfl ?_) | exact fun h g => ⟨h, g⟩ | exact fun h g => ⟨Regs.wf_set _ _ h, g⟩ | exact fun h g => ⟨Regs.wf_set _ _ (Regs.wf_set _ _ h), g⟩ | exact fun h g => ⟨kept_setWords _ _ _ _ h, g⟩ | exact fun h _ => ⟨h, h⟩ | dsimp only | intro _)

theorem kept_State_trellisProcess {s0 s : State} {o : Output} (hk : Keeps s0 s) : Keeps s0 (State.trellisProcess s o) := by
  unfold State.trellisProcess
  repeat' (first | with_reducible assumption | (with_reducible first | apply kept_State_stuckClose | apply kept_State_noteDown | apply kept_State_idleCheck | apply kept_State_contactReports | apply kept_State_stamp | apply kept_State_setFlagIf | apply kept_ite | apply kept_ite1 | apply kept_ite2 | apply kept_foldl) | split | (dsimp only; split) | (apply kept_eq1; assumption) | (apply kept_eq2; assumption) | (with_reducible refine Keeps.upd ?_ rfl rfl rfl rfl rfl rfl rfl rfl rfl rfl rfl ?_) | exact fun h g => ⟨h, g⟩ | exact fun h g => ⟨Regs.wf_set _ _ h, g⟩ | exact fun h g => ⟨Regs.wf_set _ _ (Regs.wf_set _ _ h), g⟩ | exact fun h g => ⟨kept_setWords _ _ _ _ h, g⟩ | exact fun h _ => ⟨h, h⟩ | dsimp only | intro _)

theorem kept_State_fillFree {s0 s : State} {l : List (Option Nat)} (h : Keeps s0 s) : Keeps s0 (State.fillFree s l).2 := by
  induction l generalizing s with
  | nil => exact h
  | cons x xs ih =>
    cases x with
    | none => exact ih (kept_State_draw h)
    | some v => exact ih h

theorem kept_State_setMap {s0 s : State} {b : Nat} {v : Nat} (hk : Keeps s0 s) : Keeps s0 (State.setMap s b v) := by
  unfold State.setMap
  repeat' (first | with_reducible assumption | (with_reducible first | apply kept_ite | apply kept_ite1 | apply kept_ite2 | apply kept_foldl) | split | (dsimp only; split) | (apply kept_eq1; assumption) | (apply kept_eq2; assumption) | (with_reducible refine Keeps.upd ?_ rfl rfl rfl rfl rfl rfl rfl rfl rfl rfl rfl ?_) | exact fun h g => ⟨h, g⟩ | exact fun h g => ⟨Regs.wf_set _ _ h, g⟩ | exact fun h g => ⟨Regs.wf_set _ _ (Regs.wf_set _ _ h), g⟩ | exact fun h g => ⟨kept_setWords _ _ _ _ h, g⟩ | exact fun h _ => ⟨h, h⟩ | dsimp only | intro _)

theorem kept_State_chargerUpdate {s0 s : State}  (hk : Keeps s0 s) : Keeps s0 (State.chargerUpdate s) := by
  unfold State.chargerUpdate
  repeat' (first | with_reducible assumption | (with_reducible first | apply kept_State_draw | apply kept_State_setFlagIf | apply kept_State_setReg | apply kept_ite | apply kept_ite1 | apply kept_ite2 | apply kept_foldl) | split | (dsimp only; split) | (apply kept_eq1; assumption) | (apply kept_eq2; assumption) | (with_reducible refine Keeps.upd ?_ rfl rfl rfl rfl rfl rfl rfl rfl rfl rfl rfl ?_) | exact fun h g => ⟨h, g⟩ | exact fun h g => ⟨Regs.wf_set _ _ h, g⟩ | exact fun h g => ⟨Regs.wf_set _ _ (Regs.wf_set _ _ h), g⟩ | exact fun h g => ⟨kept_setWords _ _ _ _ h, g⟩ | exact fun h _ => ⟨h, h⟩ | dsimp only | intro _)

theorem kept_State_clocheFrame {s0 s : State} {c : FrameCtx} (hk : Keeps s0 s) : Keeps s0 (State.clocheFrame s c) := by
  unfold State.clocheFrame
  repeat' (first | with_reducible assumption | (with_reducible first | apply kept_State_chargerUpdate | apply kept_State_setMap | apply kept_State_fillFree | apply kept_State_after | apply kept_ite | apply kept_ite1 | apply kept_ite2 | apply kept_foldl) | split | (dsimp only; split) | (apply kept_eq1; assumption) | (apply kept_eq2; assumption) | (with_reducible refine Keeps.upd ?_ rfl rfl rfl rfl rfl rfl rfl rfl rfl rfl rfl ?_) | exact fun h g => ⟨h, g⟩ | exact fun h g => ⟨Regs.wf_set _ _ h, g⟩ | exact fun h g => ⟨Regs.wf_set _ _ (Regs.wf_set _ _ h), g⟩ | exact fun h g => ⟨kept_setWords _ _ _ _ h, g⟩ | exact fun h _ => ⟨h, h⟩ | dsimp only | intro _)

theorem kept_State_replanSoon {s0 s : State}  (hk : Keeps s0 s) : Keeps s0 (State.replanSoon s) := by
  unfold State.replanSoon
  repeat' (first | with_reducible assumption | (with_reducible first | apply kept_ite | apply kept_ite1 | apply kept_ite2 | apply kept_foldl) | split | (dsimp only; split) | (apply kept_eq1; assumption) | (apply kept_eq2; assumption) | (with_reducible refine Keeps.upd ?_ rfl rfl rfl rfl rfl rfl rfl rfl rfl rfl rfl ?_) | exact fun h g => ⟨h, g⟩ | exact fun h g => ⟨Regs.wf_set _ _ h, g⟩ | exact fun h g => ⟨Regs.wf_set _ _ (Regs.wf_set _ _ h), g⟩ | exact fun h g => ⟨kept_setWords _ _ _ _ h, g⟩ | exact fun h _ => ⟨h, h⟩ | dsimp only | intro _)

theorem kept_State_clocheInjected {s0 s : State} {i : Nat} {els : List ElecRecs} (hk : Keeps s0 s) : Keeps s0 (State.clocheInjected s i els) := by
  unfold State.clocheInjected
  repeat' (first | with_reducible assumption | (with_reducible first | apply kept_State_chargerUpdate | apply kept_State_setMap | apply kept_ite | apply kept_ite1 | apply kept_ite2 | apply kept_foldl) | split | (dsimp only; split) | (apply kept_eq1; assumption) | (apply kept_eq2; assumption) | (with_reducible refine Keeps.upd ?_ rfl rfl rfl rfl rfl rfl rfl rfl rfl rfl rfl ?_) | exact fun h g => ⟨h, g⟩ | exact fun h g => ⟨Regs.wf_set _ _ h, g⟩ | exact fun h g => ⟨Regs.wf_set _ _ (Regs.wf_set _ _ h), g⟩ | exact fun h g => ⟨kept_setWords _ _ _ _ h, g⟩ | exact fun h _ => ⟨h, h⟩ | dsimp only | intro _)

theorem kept_State_impulseDiscard {s0 s : State}  (hk : Keeps s0 s) : Keeps s0 (State.impulseDiscard s) := by
  unfold State.impulseDiscard
  repeat' (first | with_reducible assumption | (with_reducible first | apply kept_State_countFrame | apply kept_State_addSat | apply kept_State_setFlag | apply kept_ite | apply kept_ite1 | apply kept_ite2 | apply kept_foldl) | split | (dsimp only; split) | (apply kept_eq1; assumption) | (apply kept_eq2; assumption) | (with_reducible refine Keeps.upd ?_ rfl rfl rfl rfl rfl rfl rfl rfl rfl rfl rfl ?_) | exact fun h g => ⟨h, g⟩ | exact fun h g => ⟨Regs.wf_set _ _ h, g⟩ | exact fun h g => ⟨Regs.wf_set _ _ (Regs.wf_set _ _ h), g⟩ | exact fun h g => ⟨kept_setWords _ _ _ _ h, g⟩ | exact fun h _ => ⟨h, h⟩ | dsimp only | intro _)

theorem kept_State_impulsePassed {s0 s : State} {c : FrameCtx} (hk : Keeps s0 s) : Keeps s0 (State.impulsePassed s c) := by
  unfold State.impulsePassed
  repeat' (first | with_reducible assumption | (with_reducible first | apply kept_ite | apply kept_ite1 | apply kept_ite2 | apply kept_foldl) | split | (dsimp only; split) | (apply kept_eq1; assumption) | (apply kept_eq2; assumption) | (with_reducible refine Keeps.upd ?_ rfl rfl rfl rfl rfl rfl rfl rfl rfl rfl rfl ?_) | exact fun h g => ⟨h, g⟩ | exact fun h g => ⟨Regs.wf_set _ _ h, g⟩ | exact fun h g => ⟨Regs.wf_set _ _ (Regs.wf_set _ _ h), g⟩ | exact fun h g => ⟨kept_setWords _ _ _ _ h, g⟩ | exact fun h _ => ⟨h, h⟩ | dsimp only | intro _)

theorem kept_State_spillEdge {s0 s : State}  (hk : Keeps s0 s) : Keeps s0 (State.spillEdge s) := by
  unfold State.spillEdge
  repeat' (first | with_reducible assumption | (with_reducible first | apply kept_State_setFlagIf | apply kept_ite | apply kept_ite1 | apply kept_ite2 | apply kept_foldl) | split | (dsimp only; split) | (apply kept_eq1; assumption) | (apply kept_eq2; assumption) | (with_reducible refine Keeps.upd ?_ rfl rfl rfl rfl rfl rfl rfl rfl rfl rfl rfl ?_) | exact fun h g => ⟨h, g⟩ | exact fun h g => ⟨Regs.wf_set _ _ h, g⟩ | exact fun h g => ⟨Regs.wf_set _ _ (Regs.wf_set _ _ h), g⟩ | exact fun h g => ⟨kept_setWords _ _ _ _ h, g⟩ | exact fun h _ => ⟨h, h⟩ | dsimp only | intro _)

theorem kept_State_waterUpdate {s0 s : State}  (hk : Keeps s0 s) : Keeps s0 (State.waterUpdate s) := by
  unfold State.waterUpdate
  repeat' (first | with_reducible assumption | (with_reducible first | apply kept_State_spillEdge | apply kept_State_setFlagIf | apply kept_State_setReg | apply kept_ite | apply kept_ite1 | apply kept_ite2 | apply kept_foldl) | split | (dsimp only; split) | (apply kept_eq1; assumption) | (apply kept_eq2; assumption) | (with_reducible refine Keeps.upd ?_ rfl rfl rfl rfl rfl rfl rfl rfl rfl rfl rfl ?_) | exact fun h g => ⟨h, g⟩ | exact fun h g => ⟨Regs.wf_set _ _ h, g⟩ | exact fun h g => ⟨Regs.wf_set _ _ (Regs.wf_set _ _ h), g⟩ | exact fun h g => ⟨kept_setWords _ _ _ _ h, g⟩ | exact fun h _ => ⟨h, h⟩ | dsimp only | intro _)

theorem kept_State_waterEnter {s0 s : State} {c : FrameCtx} (hk : Keeps s0 s) : Keeps s0 (State.waterEnter s c) := by
  unfold State.waterEnter
  repeat' (first | with_reducible assumption | (with_reducible first | apply kept_State_after | apply kept_ite | apply kept_ite1 | apply kept_ite2 | apply kept_foldl) | split | (dsimp only; split) | (apply kept_eq1; assumption) | (apply kept_eq2; assumption) | (with_reducible refine Keeps.upd ?_ rfl rfl rfl rfl rfl rfl rfl rfl rfl rfl rfl ?_) | exact fun h g => ⟨h, g⟩ | exact fun h g => ⟨Regs.wf_set _ _ h, g⟩ | exact fun h g => ⟨Regs.wf_set _ _ (Regs.wf_set _ _ h), g⟩ | exact fun h g => ⟨kept_setWords _ _ _ _ h, g⟩ | exact fun h _ => ⟨h, h⟩ | dsimp only | intro _)

theorem kept_State_clocheExit {s0 s : State}  (hk : Keeps s0 s) : Keeps s0 (State.clocheExit s) := by
  unfold State.clocheExit
  repeat' (first | with_reducible assumption | (with_reducible first | apply kept_State_setReg | apply kept_ite | apply kept_ite1 | apply kept_ite2 | apply kept_foldl) | split | (dsimp only; split) | (apply kept_eq1; assumption) | (apply kept_eq2; assumption) | (with_reducible refine Keeps.upd ?_ rfl rfl rfl rfl rfl rfl rfl rfl rfl rfl rfl ?_) | exact fun h g => ⟨h, g⟩ | exact fun h g => ⟨Regs.wf_set _ _ h, g⟩ | exact fun h g => ⟨Regs.wf_set _ _ (Regs.wf_set _ _ h), g⟩ | exact fun h g => ⟨kept_setWords _ _ _ _ h, g⟩ | exact fun h _ => ⟨h, h⟩ | dsimp only | intro _)

theorem kept_State_clocheDormant {s0 s : State}  (hk : Keeps s0 s) : Keeps s0 (State.clocheDormant s) := by
  unfold State.clocheDormant
  repeat' (first | with_reducible assumption | (with_reducible first | apply kept_ite | apply kept_ite1 | apply kept_ite2 | apply kept_foldl) | split | (dsimp only; split) | (apply kept_eq1; assumption) | (apply kept_eq2; assumption) | (with_reducible refine Keeps.upd ?_ rfl rfl rfl rfl rfl rfl rfl rfl rfl rfl rfl ?_) | exact fun h g => ⟨h, g⟩ | exact fun h g => ⟨Regs.wf_set _ _ h, g⟩ | exact fun h g => ⟨Regs.wf_set _ _ (Regs.wf_set _ _ h), g⟩ | exact fun h g => ⟨kept_setWords _ _ _ _ h, g⟩ | exact fun h _ => ⟨h, h⟩ | dsimp only | intro _)

theorem kept_State_healthCheck {s0 s : State} {v : Health} (hk : Keeps s0 s) : Keeps s0 (State.healthCheck s v) := by
  unfold State.healthCheck
  repeat' (first | with_reducible assumption | (with_reducible first | apply kept_State_draw | apply kept_State_setFlag | apply kept_State_setReg | apply kept_ite | apply kept_ite1 | apply kept_ite2 | apply kept_foldl) | split | (dsimp only; split) | (apply kept_eq1; assumption) | (apply kept_eq2; assumption) | (with_reducible refine Keeps.upd ?_ rfl rfl rfl rfl rfl rfl rfl rfl rfl rfl rfl ?_) | exact fun h g => ⟨h, g⟩ | exact fun h g => ⟨Regs.wf_set _ _ h, g⟩ | exact fun h g => ⟨Regs.wf_set _ _ (Regs.wf_set _ _ h), g⟩ | exact fun h g => ⟨kept_setWords _ _ _ _ h, g⟩ | exact fun h _ => ⟨h, h⟩ | dsimp only | intro _)

theorem kept_State_declare {s0 s : State} {lane : Nat} {cause : Nat} {forming : Bool} {frame : Nat} (hk : Keeps s0 s) : Keeps s0 (State.declare s lane cause forming frame) := by
  unfold State.declare
  repeat' (first | with_reducible assumption | (with_reducible first | apply kept_State_setFlagIf | apply kept_State_setFlag | apply kept_ite | apply kept_ite1 | apply kept_ite2 | apply kept_foldl) | split | (dsimp only; split) | (apply kept_eq1; assumption) | (apply kept_eq2; assumption) | (with_reducible refine Keeps.upd ?_ rfl rfl rfl rfl rfl rfl rfl rfl rfl rfl rfl ?_) | exact fun h g => ⟨h, g⟩ | exact fun h g => ⟨Regs.wf_set _ _ h, g⟩ | exact fun h g => ⟨Regs.wf_set _ _ (Regs.wf_set _ _ h), g⟩ | exact fun h g => ⟨kept_setWords _ _ _ _ h, g⟩ | exact fun h _ => ⟨h, h⟩ | dsimp only | intro _)

theorem kept_State_replaceFrame {s0 s : State} {no : Nat} (hk : Keeps s0 s) : Keeps s0 (State.replaceFrame s no) := by
  unfold State.replaceFrame
  repeat' (first | with_reducible assumption | (with_reducible first | apply kept_ite | apply kept_ite1 | apply kept_ite2 | apply kept_foldl) | split | (dsimp only; split) | (apply kept_eq1; assumption) | (apply kept_eq2; assumption) | (with_reducible refine Keeps.upd ?_ rfl rfl rfl rfl rfl rfl rfl rfl rfl rfl rfl ?_) | exact fun h g => ⟨h, g⟩ | exact fun h g => ⟨Regs.wf_set _ _ h, g⟩ | exact fun h g => ⟨Regs.wf_set _ _ (Regs.wf_set _ _ h), g⟩ | exact fun h g => ⟨kept_setWords _ _ _ _ h, g⟩ | exact fun h _ => ⟨h, h⟩ | dsimp only | intro _)

theorem kept_State_frameCheck {s0 s : State} {c : FrameCtx} (hk : Keeps s0 s) : Keeps s0 (State.frameCheck s c) := by
  unfold State.frameCheck
  repeat' (first | with_reducible assumption | (with_reducible first | apply kept_State_replaceFrame | apply kept_State_declare | apply kept_ite | apply kept_ite1 | apply kept_ite2 | apply kept_foldl) | split | (dsimp only; split) | (apply kept_eq1; assumption) | (apply kept_eq2; assumption) | (with_reducible refine Keeps.upd ?_ rfl rfl rfl rfl rfl rfl rfl rfl rfl rfl rfl ?_) | exact fun h g => ⟨h, g⟩ | exact fun h g => ⟨Regs.wf_set _ _ h, g⟩ | exact fun h g => ⟨Regs.wf_set _ _ (Regs.wf_set _ _ h), g⟩ | exact fun h g => ⟨kept_setWords _ _ _ _ h, g⟩ | exact fun h _ => ⟨h, h⟩ | dsimp only | intro _)

theorem kept_State_formStart {s0 s : State} {n : Nat} (hk : Keeps s0 s) : Keeps s0 (State.formStart s n) := by
  unfold State.formStart
  repeat' (first | with_reducible assumption | (with_reducible first | apply kept_ite | apply kept_ite1 | apply kept_ite2 | apply kept_foldl) | split | (dsimp only; split) | (apply kept_eq1; assumption) | (apply kept_eq2; assumption) | (with_reducible refine Keeps.upd ?_ rfl rfl rfl rfl rfl rfl rfl rfl rfl rfl rfl ?_) | exact fun h g => ⟨h, g⟩ | exact fun h g => ⟨Regs.wf_set _ _ h, g⟩ | exact fun h g => ⟨Regs.wf_set _ _ (Regs.wf_set _ _ h), g⟩ | exact fun h g => ⟨kept_setWords _ _ _ _ h, g⟩ | exact fun h _ => ⟨h, h⟩ | dsimp only | intro _)

theorem kept_State_formEnd {s0 s : State} {frame : Nat} (hk : Keeps s0 s) : Keeps s0 (State.formEnd s frame) := by
  unfold State.formEnd
  repeat' (first | with_reducible assumption | (with_reducible first | apply kept_State_declare | apply kept_State_setReg | apply kept_ite | apply kept_ite1 | apply kept_ite2 | apply kept_foldl) | split | (dsimp only; split) | (apply kept_eq1; assumption) | (apply kept_eq2; assumption) | (with_reducible refine Keeps.upd ?_ rfl rfl rfl rfl rfl rfl rfl rfl rfl rfl rfl ?_) | exact fun h g => ⟨h, g⟩ | exact fun h g => ⟨Regs.wf_set _ _ h, g⟩ | exact fun h g => ⟨Regs.wf_set _ _ (Regs.wf_set _ _ h), g⟩ | exact fun h g => ⟨kept_setWords _ _ _ _ h, g⟩ | exact fun h _ => ⟨h, h⟩ | dsimp only | intro _)

theorem kept_State_healthSlot {s0 s : State} {c : FrameCtx} {entry : Nat} {hs : List Health} (hk : Keeps s0 s) : Keeps s0 (State.healthSlot s c entry hs) := by
  unfold State.healthSlot
  repeat' (first | with_reducible assumption | (with_reducible first | apply kept_State_formEnd | apply kept_State_formStart | apply kept_State_frameCheck | apply kept_State_healthCheck | apply kept_ite | apply kept_ite1 | apply kept_ite2 | apply kept_foldl) | split | (dsimp only; split) | (apply kept_eq1; assumption) | (apply kept_eq2; assumption) | (with_reducible refine Keeps.upd ?_ rfl rfl rfl rfl rfl rfl rfl rfl rfl rfl rfl ?_) | exact fun h g => ⟨h, g⟩ | exact fun h g => ⟨Regs.wf_set _ _ h, g⟩ | exact fun h g => ⟨Regs.wf_set _ _ (Regs.wf_set _ _ h), g⟩ | exact fun h g => ⟨kept_setWords _ _ _ _ h, g⟩ | exact fun h _ => ⟨h, h⟩ | dsimp only | intro _)

theorem kept_State_reacqLane {s0 s : State} {k : Nat} {frame : Nat} (hk : Keeps s0 s) : Keeps s0 (State.reacqLane s k frame) := by
  unfold State.reacqLane
  repeat' (first | with_reducible assumption | (with_reducible first | apply kept_ite | apply kept_ite1 | apply kept_ite2 | apply kept_foldl) | split | (dsimp only; split) | (apply kept_eq1; assumption) | (apply kept_eq2; assumption) | (with_reducible refine Keeps.upd ?_ rfl rfl rfl rfl rfl rfl rfl rfl rfl rfl rfl ?_) | exact fun h g => ⟨h, g⟩ | exact fun h g => ⟨Regs.wf_set _ _ h, g⟩ | exact fun h g => ⟨Regs.wf_set _ _ (Regs.wf_set _ _ h), g⟩ | exact fun h g => ⟨kept_setWords _ _ _ _ h, g⟩ | exact fun h _ => ⟨h, h⟩ | dsimp only | intro _)

theorem kept_State_queueLane {s0 s : State} {r : Report} (hk : Keeps s0 s) : Keeps s0 (State.queueLane s r) := by
  unfold State.queueLane
  repeat' (first | with_reducible assumption | (with_reducible first | apply kept_State_queueLife | apply kept_ite | apply kept_ite1 | apply kept_ite2 | apply kept_foldl) | split | (dsimp only; split) | (apply kept_eq1; assumption) | (apply kept_eq2; assumption) | (with_reducible refine Keeps.upd ?_ rfl rfl rfl rfl rfl rfl rfl rfl rfl rfl rfl ?_) | exact fun h g => ⟨h, g⟩ | exact fun h g => ⟨Regs.wf_set _ _ h, g⟩ | exact fun h g => ⟨Regs.wf_set _ _ (Regs.wf_set _ _ h), g⟩ | exact fun h g => ⟨kept_setWords _ _ _ _ h, g⟩ | exact fun h _ => ⟨h, h⟩ | dsimp only | intro _)

theorem kept_State_laneReportAt {s0 s : State} {late : Bool} {lane : Nat} {kind : Nat} {cause : Nat} (hk : Keeps s0 s) : Keeps s0 (State.laneReportAt s late lane kind cause) := by
  unfold State.laneReportAt
  repeat' (first | with_reducible assumption | (with_reducible first | apply kept_State_queueLane | apply kept_ite | apply kept_ite1 | apply kept_ite2 | apply kept_foldl) | split | (dsimp only; split) | (apply kept_eq1; assumption) | (apply kept_eq2; assumption) | (with_reducible refine Keeps.upd ?_ rfl rfl rfl rfl rfl rfl rfl rfl rfl rfl rfl ?_) | exact fun h g => ⟨h, g⟩ | exact fun h g => ⟨Regs.wf_set _ _ h, g⟩ | exact fun h g => ⟨Regs.wf_set _ _ (Regs.wf_set _ _ h), g⟩ | exact fun h g => ⟨kept_setWords _ _ _ _ h, g⟩ | exact fun h _ => ⟨h, h⟩ | dsimp only | intro _)

theorem kept_State_remapLane {s0 s : State} {frame : Nat} {d : Nat × Nat × Bool × Nat} (hk : Keeps s0 s) : Keeps s0 (State.remapLane s frame d) := by
  unfold State.remapLane
  repeat' (first | with_reducible assumption | (with_reducible first | apply kept_State_laneReportAt | apply kept_State_reacqLane | apply kept_State_forceLane | apply kept_State_setFlag | apply kept_ite | apply kept_ite1 | apply kept_ite2 | apply kept_foldl) | split | (dsimp only; split) | (apply kept_eq1; assumption) | (apply kept_eq2; assumption) | (with_reducible refine Keeps.upd ?_ rfl rfl rfl rfl rfl rfl rfl rfl rfl rfl rfl ?_) | exact fun h g => ⟨h, g⟩ | exact fun h g => ⟨Regs.wf_set _ _ h, g⟩ | exact fun h g => ⟨Regs.wf_set _ _ (Regs.wf_set _ _ h), g⟩ | exact fun h g => ⟨kept_setWords _ _ _ _ h, g⟩ | exact fun h _ => ⟨h, h⟩ | dsimp only | intro _)

theorem kept_State_forceFail {s0 s : State} {lane : Nat} (hk : Keeps s0 s) : Keeps s0 (State.forceFail s lane) := by
  unfold State.forceFail
  repeat' (first | with_reducible assumption | (with_reducible first | apply kept_State_replaceFrame | apply kept_State_declare | apply kept_ite | apply kept_ite1 | apply kept_ite2 | apply kept_foldl) | split | (dsimp only; split) | (apply kept_eq1; assumption) | (apply kept_eq2; assumption) | (with_reducible refine Keeps.upd ?_ rfl rfl rfl rfl rfl rfl rfl rfl rfl rfl rfl ?_) | exact fun h g => ⟨h, g⟩ | exact fun h g => ⟨Regs.wf_set _ _ h, g⟩ | exact fun h g => ⟨Regs.wf_set _ _ (Regs.wf_set _ _ h), g⟩ | exact fun h g => ⟨kept_setWords _ _ _ _ h, g⟩ | exact fun h _ => ⟨h, h⟩ | dsimp only | intro _)

theorem kept_State_remapBoundary {s0 s : State} {frame : Nat} (hk : Keeps s0 s) : Keeps s0 (State.remapBoundary s frame) := by
  unfold State.remapBoundary
  repeat' (first | with_reducible assumption | (with_reducible first | apply kept_State_forceFail | apply kept_State_remapLane | apply kept_ite | apply kept_ite1 | apply kept_ite2 | apply kept_foldl) | split | (dsimp only; split) | (apply kept_eq1; assumption) | (apply kept_eq2; assumption) | (with_reducible refine Keeps.upd ?_ rfl rfl rfl rfl rfl rfl rfl rfl rfl rfl rfl ?_) | exact fun h g => ⟨h, g⟩ | exact fun h g => ⟨Regs.wf_set _ _ h, g⟩ | exact fun h g => ⟨Regs.wf_set _ _ (Regs.wf_set _ _ h), g⟩ | exact fun h g => ⟨kept_setWords _ _ _ _ h, g⟩ | exact fun h _ => ⟨h, h⟩ | dsimp only | intro _)

theorem kept_State_lateReports {s0 s : State}  (hk : Keeps s0 s) : Keeps s0 (State.lateReports s) := by
  unfold State.lateReports
  repeat' (first | with_reducible assumption | (with_reducible first | apply kept_State_queueLane | apply kept_ite | apply kept_ite1 | apply kept_ite2 | apply kept_foldl) | split | (dsimp only; split) | (apply kept_eq1; assumption) | (apply kept_eq2; assumption) | (with_reducible refine Keeps.upd ?_ rfl rfl rfl rfl rfl rfl rfl rfl rfl rfl rfl ?_) | exact fun h g => ⟨h, g⟩ | exact fun h g => ⟨Regs.wf_set _ _ h, g⟩ | exact fun h g => ⟨Regs.wf_set _ _ (Regs.wf_set _ _ h), g⟩ | exact fun h g => ⟨kept_setWords _ _ _ _ h, g⟩ | exact fun h _ => ⟨h, h⟩ | dsimp only | intro _)

theorem kept_State_driveBoundary {s0 s : State}  (hk : Keeps s0 s) : Keeps s0 (State.driveBoundary s) := by
  unfold State.driveBoundary
  repeat' (first | with_reducible assumption | (with_reducible first | apply kept_State_queueLane | apply kept_State_setFlag | apply kept_State_setReg | apply kept_ite | apply kept_ite1 | apply kept_ite2 | apply kept_foldl) | split | (dsimp only; split) | (apply kept_eq1; assumption) | (apply kept_eq2; assumption) | (with_reducible refine Keeps.upd ?_ rfl rfl rfl rfl rfl rfl rfl rfl rfl rfl rfl ?_) | exact fun h g => ⟨h, g⟩ | exact fun h g => ⟨Regs.wf_set _ _ h, g⟩ | exact fun h g => ⟨Regs.wf_set _ _ (Regs.wf_set _ _ h), g⟩ | exact fun h g => ⟨kept_setWords _ _ _ _ h, g⟩ | exact fun h _ => ⟨h, h⟩ | dsimp only | intro _)

theorem kept_State_monitorDiag {s0 s : State} {m : Monitors} (hk : Keeps s0 s) : Keeps s0 (State.monitorDiag s m) := by
  unfold State.monitorDiag
  repeat' (first | with_reducible assumption | (with_reducible first | apply kept_State_setFlagIf | apply kept_State_setReg | apply kept_ite | apply kept_ite1 | apply kept_ite2 | apply kept_foldl) | split | (dsimp only; split) | (apply kept_eq1; assumption) | (apply kept_eq2; assumption) | (with_reducible refine Keeps.upd ?_ rfl rfl rfl rfl rfl rfl rfl rfl rfl rfl rfl ?_) | exact fun h g => ⟨h, g⟩ | exact fun h g => ⟨Regs.wf_set _ _ h, g⟩ | exact fun h g => ⟨Regs.wf_set _ _ (Regs.wf_set _ _ h), g⟩ | exact fun h g => ⟨kept_setWords _ _ _ _ h, g⟩ | exact fun h _ => ⟨h, h⟩ | dsimp only | intro _)

theorem kept_State_fillInts {s0 s : State} {l : List (Option Int)} (h : Keeps s0 s) : Keeps s0 (State.fillInts s l).2 := by
  induction l generalizing s with
  | nil => exact h
  | cons x xs ih =>
    cases x with
    | none => exact ih (kept_State_draw h)
    | some v => exact ih h

theorem kept_State_calPhaseEnd {s0 s : State}  (hk : Keeps s0 s) : Keeps s0 (State.calPhaseEnd s) := by
  unfold State.calPhaseEnd
  repeat' (first | with_reducible assumption | (with_reducible first | apply kept_State_fillInts | apply kept_ite | apply kept_ite1 | apply kept_ite2 | apply kept_foldl) | split | (dsimp only; split) | (apply kept_eq1; assumption) | (apply kept_eq2; assumption) | (with_reducible refine Keeps.upd ?_ rfl rfl rfl rfl rfl rfl rfl rfl rfl rfl rfl ?_) | exact fun h g => ⟨h, g⟩ | exact fun h g => ⟨Regs.wf_set _ _ h, g⟩ | exact fun h g => ⟨Regs.wf_set _ _ (Regs.wf_set _ _ h), g⟩ | exact fun h g => ⟨kept_setWords _ _ _ _ h, g⟩ | exact fun h _ => ⟨h, h⟩ | dsimp only | intro _)

theorem kept_State_writeLane {s0 s : State} {k : Nat} {l : CalLane} (hk : Keeps s0 s) : Keeps s0 (State.writeLane s k l) := by
  unfold State.writeLane
  repeat' (first | with_reducible assumption | (with_reducible first | apply kept_State_setReg | apply kept_ite | apply kept_ite1 | apply kept_ite2 | apply kept_foldl) | split | (dsimp only; split) | (apply kept_eq1; assumption) | (apply kept_eq2; assumption) | (with_reducible refine Keeps.upd ?_ rfl rfl rfl rfl rfl rfl rfl rfl rfl rfl rfl ?_) | exact fun h g => ⟨h, g⟩ | exact fun h g => ⟨Regs.wf_set _ _ h, g⟩ | exact fun h g => ⟨Regs.wf_set _ _ (Regs.wf_set _ _ h), g⟩ | exact fun h g => ⟨kept_setWords _ _ _ _ h, g⟩ | exact fun h _ => ⟨h, h⟩ | dsimp only | intro _)

theorem kept_State_selfcalEnd {s0 s : State}  (hk : Keeps s0 s) : Keeps s0 (State.selfcalEnd s) := by
  unfold State.selfcalEnd
  repeat' (first | with_reducible assumption | (with_reducible first | apply kept_State_writeLane | apply kept_State_setFlagIf | apply kept_State_setReg | apply kept_ite | apply kept_ite1 | apply kept_ite2 | apply kept_foldl) | split | (dsimp only; split) | (apply kept_eq1; assumption) | (apply kept_eq2; assumption) | (with_reducible refine Keeps.upd ?_ rfl rfl rfl rfl rfl rfl rfl rfl rfl rfl rfl ?_) | exact fun h g => ⟨h, g⟩ | exact fun h g => ⟨Regs.wf_set _ _ h, g⟩ | exact fun h g => ⟨Regs.wf_set _ _ (Regs.wf_set _ _ h), g⟩ | exact fun h g => ⟨kept_setWords _ _ _ _ h, g⟩ | exact fun h _ => ⟨h, h⟩ | dsimp only | intro _)

theorem kept_State_traceResult {s0 s : State} {e : Nat} {tau : Option Nat} (hk : Keeps s0 s) : Keeps s0 (State.traceResult s e tau) := by
  unfold State.traceResult
  repeat' (first | with_reducible assumption | (with_reducible first | apply kept_State_setFlag | apply kept_State_setReg | apply kept_ite | apply kept_ite1 | apply kept_ite2 | apply kept_foldl) | split | (dsimp only; split) | (apply kept_eq1; assumption) | (apply kept_eq2; assumption) | (with_reducible refine Keeps.upd ?_ rfl rfl rfl rfl rfl rfl rfl rfl rfl rfl rfl ?_) | exact fun h g => ⟨h, g⟩ | exact fun h g => ⟨Regs.wf_set _ _ h, g⟩ | exact fun h g => ⟨Regs.wf_set _ _ (Regs.wf_set _ _ h), g⟩ | exact fun h g => ⟨kept_setWords _ _ _ _ h, g⟩ | exact fun h _ => ⟨h, h⟩ | dsimp only | intro _)

theorem kept_State_owResult {s0 s : State} {served : Bool} {up : Option Rat} {dn : Option Rat} (hk : Keeps s0 s) : Keeps s0 (State.owResult s served up dn).2 := by
  unfold State.owResult
  repeat' (first | with_reducible assumption | (with_reducible first | apply kept_State_draw | apply kept_ite | apply kept_ite1 | apply kept_ite2 | apply kept_foldl) | split | (dsimp only; split) | (apply kept_eq1; assumption) | (apply kept_eq2; assumption) | (with_reducible refine Keeps.upd ?_ rfl rfl rfl rfl rfl rfl rfl rfl rfl rfl rfl ?_) | exact fun h g => ⟨h, g⟩ | exact fun h g => ⟨Regs.wf_set _ _ h, g⟩ | exact fun h g => ⟨Regs.wf_set _ _ (Regs.wf_set _ _ h), g⟩ | exact fun h g => ⟨kept_setWords _ _ _ _ h, g⟩ | exact fun h _ => ⟨h, h⟩ | dsimp only | intro _)

theorem kept_State_roundSlot {s0 s : State} {d : SlotData} (hk : Keeps s0 s) : Keeps s0 (State.roundSlot s d) := by
  unfold State.roundSlot
  repeat' (first | with_reducible assumption | (with_reducible first | apply kept_State_owResult | apply kept_State_traceResult | apply kept_ite | apply kept_ite1 | apply kept_ite2 | apply kept_foldl) | split | (dsimp only; split) | (apply kept_eq1; assumption) | (apply kept_eq2; assumption) | (with_reducible refine Keeps.upd ?_ rfl rfl rfl rfl rfl rfl rfl rfl rfl rfl rfl ?_) | exact fun h g => ⟨h, g⟩ | exact fun h g => ⟨Regs.wf_set _ _ h, g⟩ | exact fun h g => ⟨Regs.wf_set _ _ (Regs.wf_set _ _ h), g⟩ | exact fun h g => ⟨kept_setWords _ _ _ _ h, g⟩ | exact fun h _ => ⟨h, h⟩ | dsimp only | intro _)

theorem kept_State_calBegin {s0 s : State} {a : CalKind} (hk : Keeps s0 s) : Keeps s0 (State.calBegin s a) := by
  unfold State.calBegin
  repeat' (first | with_reducible assumption | (with_reducible first | apply kept_State_setReg | apply kept_ite | apply kept_ite1 | apply kept_ite2 | apply kept_foldl) | split | (dsimp only; split) | (apply kept_eq1; assumption) | (apply kept_eq2; assumption) | (with_reducible refine Keeps.upd ?_ rfl rfl rfl rfl rfl rfl rfl rfl rfl rfl rfl ?_) | exact fun h g => ⟨h, g⟩ | exact fun h g => ⟨Regs.wf_set _ _ h, g⟩ | exact fun h g => ⟨Regs.wf_set _ _ (Regs.wf_set _ _ h), g⟩ | exact fun h g => ⟨kept_setWords _ _ _ _ h, g⟩ | exact fun h _ => ⟨h, h⟩ | dsimp only | intro _)

theorem kept_State_calSat {s0 s : State} {d : SlotData} (hk : Keeps s0 s) : Keeps s0 (State.calSat s d) := by
  unfold State.calSat
  repeat' (first | with_reducible assumption | (with_reducible first | apply kept_State_setFlagIf | apply kept_ite | apply kept_ite1 | apply kept_ite2 | apply kept_foldl) | split | (dsimp only; split) | (apply kept_eq1; assumption) | (apply kept_eq2; assumption) | (with_reducible refine Keeps.upd ?_ rfl rfl rfl rfl rfl rfl rfl rfl rfl rfl rfl ?_) | exact fun h g => ⟨h, g⟩ | exact fun h g => ⟨Regs.wf_set _ _ h, g⟩ | exact fun h g => ⟨Regs.wf_set _ _ (Regs.wf_set _ _ h), g⟩ | exact fun h g => ⟨kept_setWords _ _ _ _ h, g⟩ | exact fun h _ => ⟨h, h⟩ | dsimp only | intro _)

theorem kept_State_calSlot {s0 s : State} {d : SlotData} (hk : Keeps s0 s) : Keeps s0 (State.calSlot s d) := by
  unfold State.calSlot
  repeat' (first | with_reducible assumption | (with_reducible first | apply kept_State_calSat | apply kept_State_roundSlot | apply kept_State_selfcalEnd | apply kept_State_calPhaseEnd | apply kept_State_cmdDone | apply kept_State_setFlagIf | apply kept_State_setReg | apply kept_ite | apply kept_ite1 | apply kept_ite2 | apply kept_foldl) | split | (dsimp only; split) | (apply kept_eq1; assumption) | (apply kept_eq2; assumption) | (with_reducible refine Keeps.upd ?_ rfl rfl rfl rfl rfl rfl rfl rfl rfl rfl rfl ?_) | exact fun h g => ⟨h, g⟩ | exact fun h g => ⟨Regs.wf_set _ _ h, g⟩ | exact fun h g => ⟨Regs.wf_set _ _ (Regs.wf_set _ _ h), g⟩ | exact fun h g => ⟨kept_setWords _ _ _ _ h, g⟩ | exact fun h _ => ⟨h, h⟩ | dsimp only | intro _)

theorem kept_State_showCalRange {s0 s : State}  (hk : Keeps s0 s) : Keeps s0 (State.showCalRange s) := by
  unfold State.showCalRange
  repeat' (first | with_reducible assumption | (with_reducible first | apply kept_State_showRange | apply kept_ite | apply kept_ite1 | apply kept_ite2 | apply kept_foldl) | split | (dsimp only; split) | (apply kept_eq1; assumption) | (apply kept_eq2; assumption) | (with_reducible refine Keeps.upd ?_ rfl rfl rfl rfl rfl rfl rfl rfl rfl rfl rfl ?_) | exact fun h g => ⟨h, g⟩ | exact fun h g => ⟨Regs.wf_set _ _ h, g⟩ | exact fun h g => ⟨Regs.wf_set _ _ (Regs.wf_set _ _ h), g⟩ | exact fun h g => ⟨kept_setWords _ _ _ _ h, g⟩ | exact fun h _ => ⟨h, h⟩ | dsimp only | intro _)

theorem kept_State_calDiscard {s0 s : State}  (hk : Keeps s0 s) : Keeps s0 (State.calDiscard s) := by
  unfold State.calDiscard
  repeat' (first | with_reducible assumption | (with_reducible first | apply kept_State_cmdDone | apply kept_State_setFlag | apply kept_ite | apply kept_ite1 | apply kept_ite2 | apply kept_foldl) | split | (dsimp only; split) | (apply kept_eq1; assumption) | (apply kept_eq2; assumption) | (with_reducible refine Keeps.upd ?_ rfl rfl rfl rfl rfl rfl rfl rfl rfl rfl rfl ?_) | exact fun h g => ⟨h, g⟩ | exact fun h g => ⟨Regs.wf_set _ _ h, g⟩ | exact fun h g => ⟨Regs.wf_set _ _ (Regs.wf_set _ _ h), g⟩ | exact fun h g => ⟨kept_setWords _ _ _ _ h, g⟩ | exact fun h _ => ⟨h, h⟩ | dsimp only | intro _)

theorem kept_State_pointEnd {s0 s : State} {pt : Nat} {m : CalMeas} {ok : Bool} (hk : Keeps s0 s) : Keeps s0 (State.pointEnd s pt m ok) := by
  unfold State.pointEnd
  repeat' (first | with_reducible assumption | (with_reducible first | apply kept_State_cmdDone | apply kept_State_setFlag | apply kept_ite | apply kept_ite1 | apply kept_ite2 | apply kept_foldl) | split | (dsimp only; split) | (apply kept_eq1; assumption) | (apply kept_eq2; assumption) | (with_reducible refine Keeps.upd ?_ rfl rfl rfl rfl rfl rfl rfl rfl rfl rfl rfl ?_) | exact fun h g => ⟨h, g⟩ | exact fun h g => ⟨Regs.wf_set _ _ h, g⟩ | exact fun h g => ⟨Regs.wf_set _ _ (Regs.wf_set _ _ h), g⟩ | exact fun h g => ⟨kept_setWords _ _ _ _ h, g⟩ | exact fun h _ => ⟨h, h⟩ | dsimp only | intro _)

theorem kept_State_calFrame {s0 s : State} {c : FrameCtx} (hk : Keeps s0 s) : Keeps s0 (State.calFrame s c) := by
  unfold State.calFrame
  repeat' (first | with_reducible assumption | (with_reducible first | apply kept_State_pointEnd | apply kept_State_cmdDone | apply kept_ite | apply kept_ite1 | apply kept_ite2 | apply kept_foldl) | split | (dsimp only; split) | (apply kept_eq1; assumption) | (apply kept_eq2; assumption) | (with_reducible refine Keeps.upd ?_ rfl rfl rfl rfl rfl rfl rfl rfl rfl rfl rfl ?_) | exact fun h g => ⟨h, g⟩ | exact fun h g => ⟨Regs.wf_set _ _ h, g⟩ | exact fun h g => ⟨Regs.wf_set _ _ (Regs.wf_set _ _ h), g⟩ | exact fun h g => ⟨kept_setWords _ _ _ _ h, g⟩ | exact fun h _ => ⟨h, h⟩ | dsimp only | intro _)

theorem kept_State_solveWords {s0 s : State}  (hk : Keeps s0 s) : Keeps s0 (State.solveWords s).2 := by
  unfold State.solveWords
  repeat' (first | with_reducible assumption | (with_reducible first | apply kept_State_fillInts | apply kept_ite | apply kept_ite1 | apply kept_ite2 | apply kept_foldl) | split | (dsimp only; split) | (apply kept_eq1; assumption) | (apply kept_eq2; assumption) | (with_reducible refine Keeps.upd ?_ rfl rfl rfl rfl rfl rfl rfl rfl rfl rfl rfl ?_) | exact fun h g => ⟨h, g⟩ | exact fun h g => ⟨Regs.wf_set _ _ h, g⟩ | exact fun h g => ⟨Regs.wf_set _ _ (Regs.wf_set _ _ h), g⟩ | exact fun h g => ⟨kept_setWords _ _ _ _ h, g⟩ | exact fun h _ => ⟨h, h⟩ | dsimp only | intro _)

theorem kept_State_solveBoundary {s0 s : State}  (hk : Keeps s0 s) : Keeps s0 (State.solveBoundary s) := by
  unfold State.solveBoundary
  repeat' (first | with_reducible assumption | (with_reducible first | apply kept_State_cmdDone | apply kept_State_setReg | apply kept_ite | apply kept_ite1 | apply kept_ite2 | apply kept_foldl) | split | (dsimp only; split) | (apply kept_eq1; assumption) | (apply kept_eq2; assumption) | (with_reducible refine Keeps.upd ?_ rfl rfl rfl rfl rfl rfl rfl rfl rfl rfl rfl ?_) | exact fun h g => ⟨h, g⟩ | exact fun h g => ⟨Regs.wf_set _ _ h, g⟩ | exact fun h g => ⟨Regs.wf_set _ _ (Regs.wf_set _ _ h), g⟩ | exact fun h g => ⟨kept_setWords _ _ _ _ h, g⟩ | exact fun h _ => ⟨h, h⟩ | dsimp only | intro _)

theorem kept_State_solveStart {s0 s : State} (hk : Keeps s0 s) : Keeps s0 (State.solveStart s) := by
  unfold State.solveStart
  have h1 := kept_State_solveWords hk
  generalize s.solveWords = e at h1 ⊢
  obtain ⟨⟨ws, g, o⟩, t⟩ := e
  exact Keeps.upd (kept_State_setFlagIf (kept_State_setFlagIf h1)) rfl rfl rfl rfl rfl rfl rfl rfl rfl rfl rfl fun h g => ⟨h, g⟩

theorem kept_State_tickMeasure {s0 s : State} {n : Nat} (hk : Keeps s0 s) : Keeps s0 (State.tickMeasure s n) := by
  unfold State.tickMeasure
  repeat' (first | with_reducible assumption | (with_reducible first | apply kept_State_cmdDone | apply kept_State_setFlag | apply kept_State_setReg | apply kept_ite | apply kept_ite1 | apply kept_ite2 | apply kept_foldl) | split | (dsimp only; split) | (apply kept_eq1; assumption) | (apply kept_eq2; assumption) | (with_reducible refine Keeps.upd ?_ rfl rfl rfl rfl rfl rfl rfl rfl rfl rfl rfl ?_) | exact fun h g => ⟨h, g⟩ | exact fun h g => ⟨Regs.wf_set _ _ h, g⟩ | exact fun h g => ⟨Regs.wf_set _ _ (Regs.wf_set _ _ h), g⟩ | exact fun h g => ⟨kept_setWords _ _ _ _ h, g⟩ | exact fun h _ => ⟨h, h⟩ | dsimp only | intro _)

theorem kept_State_periodStart {s0 s : State}  (hk : Keeps s0 s) : Keeps s0 (State.periodStart s) := by
  unfold State.periodStart
  repeat' (first | with_reducible assumption | (with_reducible first | apply kept_ite | apply kept_ite1 | apply kept_ite2 | apply kept_foldl) | split | (dsimp only; split) | (apply kept_eq1; assumption) | (apply kept_eq2; assumption) | (with_reducible refine Keeps.upd ?_ rfl rfl rfl rfl rfl rfl rfl rfl rfl rfl rfl ?_) | exact fun h g => ⟨h, g⟩ | exact fun h g => ⟨Regs.wf_set _ _ h, g⟩ | exact fun h g => ⟨Regs.wf_set _ _ (Regs.wf_set _ _ h), g⟩ | exact fun h g => ⟨kept_setWords _ _ _ _ h, g⟩ | exact fun h _ => ⟨h, h⟩ | dsimp only | intro _)

theorem kept_State_slotBegin {s0 s : State} {pos : Nat} (hk : Keeps s0 s) : Keeps s0 (State.slotBegin s pos) := by
  unfold State.slotBegin
  repeat' (first | with_reducible assumption | (with_reducible first | apply kept_ite | apply kept_ite1 | apply kept_ite2 | apply kept_foldl) | split | (dsimp only; split) | (apply kept_eq1; assumption) | (apply kept_eq2; assumption) | (with_reducible refine Keeps.upd ?_ rfl rfl rfl rfl rfl rfl rfl rfl rfl rfl rfl ?_) | exact fun h g => ⟨h, g⟩ | exact fun h g => ⟨Regs.wf_set _ _ h, g⟩ | exact fun h g => ⟨Regs.wf_set _ _ (Regs.wf_set _ _ h), g⟩ | exact fun h g => ⟨kept_setWords _ _ _ _ h, g⟩ | exact fun h _ => ⟨h, h⟩ | dsimp only | intro _)

theorem kept_State_startSlot {s0 s : State} {k : SlotKind} {lead : Nat} (hk : Keeps s0 s) : Keeps s0 (State.startSlot s k lead) := by
  unfold State.startSlot
  repeat' (first | with_reducible assumption | (with_reducible first | apply kept_State_slotBegin | apply kept_ite | apply kept_ite1 | apply kept_ite2 | apply kept_foldl) | split | (dsimp only; split) | (apply kept_eq1; assumption) | (apply kept_eq2; assumption) | (with_reducible refine Keeps.upd ?_ rfl rfl rfl rfl rfl rfl rfl rfl rfl rfl rfl ?_) | exact fun h g => ⟨h, g⟩ | exact fun h g => ⟨Regs.wf_set _ _ h, g⟩ | exact fun h g => ⟨Regs.wf_set _ _ (Regs.wf_set _ _ h), g⟩ | exact fun h g => ⟨kept_setWords _ _ _ _ h, g⟩ | exact fun h _ => ⟨h, h⟩ | dsimp only | intro _)

theorem kept_State_noteInj {s0 s : State} {entry : Nat} {aband : Bool} {inRest : Bool} (hk : Keeps s0 s) : Keeps s0 (State.noteInj s entry aband inRest) := by
  unfold State.noteInj
  repeat' (first | with_reducible assumption | (with_reducible first | apply kept_State_setReg | apply kept_ite | apply kept_ite1 | apply kept_ite2 | apply kept_foldl) | split | (dsimp only; split) | (apply kept_eq1; assumption) | (apply kept_eq2; assumption) | (with_reducible refine Keeps.upd ?_ rfl rfl rfl rfl rfl rfl rfl rfl rfl rfl rfl ?_) | exact fun h g => ⟨h, g⟩ | exact fun h g => ⟨Regs.wf_set _ _ h, g⟩ | exact fun h g => ⟨Regs.wf_set _ _ (Regs.wf_set _ _ h), g⟩ | exact fun h g => ⟨kept_setWords _ _ _ _ h, g⟩ | exact fun h _ => ⟨h, h⟩ | dsimp only | intro _)

theorem kept_State_injStart {s0 s : State} {t : Nat} {resume : Option Nat} (hk : Keeps s0 s) : Keeps s0 (State.injStart s t resume) := by
  unfold State.injStart
  repeat' (first | with_reducible assumption | (with_reducible first | apply kept_State_after | apply kept_State_setFlagIf | apply kept_ite | apply kept_ite1 | apply kept_ite2 | apply kept_foldl) | split | (dsimp only; split) | (apply kept_eq1; assumption) | (apply kept_eq2; assumption) | (with_reducible refine Keeps.upd ?_ rfl rfl rfl rfl rfl rfl rfl rfl rfl rfl rfl ?_) | exact fun h g => ⟨h, g⟩ | exact fun h g => ⟨Regs.wf_set _ _ h, g⟩ | exact fun h g => ⟨Regs.wf_set _ _ (Regs.wf_set _ _ h), g⟩ | exact fun h g => ⟨kept_setWords _ _ _ _ h, g⟩ | exact fun h _ => ⟨h, h⟩ | dsimp only | intro _)

theorem kept_State_slotAgain {s0 s : State}  (hk : Keeps s0 s) : Keeps s0 (State.slotAgain s) := by
  unfold State.slotAgain
  repeat' (first | with_reducible assumption | (with_reducible first | apply kept_State_injStart | apply kept_State_startSlot | apply kept_ite | apply kept_ite1 | apply kept_ite2 | apply kept_foldl) | split | (dsimp only; split) | (apply kept_eq1; assumption) | (apply kept_eq2; assumption) | (with_reducible refine Keeps.upd ?_ rfl rfl rfl rfl rfl rfl rfl rfl rfl rfl rfl ?_) | exact fun h g => ⟨h, g⟩ | exact fun h g => ⟨Regs.wf_set _ _ h, g⟩ | exact fun h g => ⟨Regs.wf_set _ _ (Regs.wf_set _ _ h), g⟩ | exact fun h g => ⟨kept_setWords _ _ _ _ h, g⟩ | exact fun h _ => ⟨h, h⟩ | dsimp only | intro _)

theorem kept_State_emitPause {s0 s : State} {n : Nat} (hk : Keeps s0 s) : Keeps s0 (State.emitPause s n) := by
  unfold State.emitPause
  repeat' (first | with_reducible assumption | (with_reducible first | apply kept_State_setReg | apply kept_ite | apply kept_ite1 | apply kept_ite2 | apply kept_foldl) | split | (dsimp only; split) | (apply kept_eq1; assumption) | (apply kept_eq2; assumption) | (with_reducible refine Keeps.upd ?_ rfl rfl rfl rfl rfl rfl rfl rfl rfl rfl rfl ?_) | exact fun h g => ⟨h, g⟩ | exact fun h g => ⟨Regs.wf_set _ _ h, g⟩ | exact fun h g => ⟨Regs.wf_set _ _ (Regs.wf_set _ _ h), g⟩ | exact fun h g => ⟨kept_setWords _ _ _ _ h, g⟩ | exact fun h _ => ⟨h, h⟩ | dsimp only | intro _)

theorem kept_State_emitCut {s0 s : State} {k : SlotKind} {tag : Tag} {pause : Nat} (hk : Keeps s0 s) : Keeps s0 (State.emitCut s k tag pause) := by
  unfold State.emitCut
  repeat' (first | with_reducible assumption | (with_reducible first | apply kept_State_emitPause | apply kept_State_after | apply kept_State_draw | apply kept_ite | apply kept_ite1 | apply kept_ite2 | apply kept_foldl) | split | (dsimp only; split) | (apply kept_eq1; assumption) | (apply kept_eq2; assumption) | (with_reducible refine Keeps.upd ?_ rfl rfl rfl rfl rfl rfl rfl rfl rfl rfl rfl ?_) | exact fun h g => ⟨h, g⟩ | exact fun h g => ⟨Regs.wf_set _ _ h, g⟩ | exact fun h g => ⟨Regs.wf_set _ _ (Regs.wf_set _ _ h), g⟩ | exact fun h g => ⟨kept_setWords _ _ _ _ h, g⟩ | exact fun h _ => ⟨h, h⟩ | dsimp only | intro _)

theorem kept_State_cutClips {s0 s : State}  (hk : Keeps s0 s) : Keeps s0 (State.cutClips s) := by
  unfold State.cutClips
  repeat' (first | with_reducible assumption | (with_reducible first | apply kept_State_setFlagIf | apply kept_ite | apply kept_ite1 | apply kept_ite2 | apply kept_foldl) | split | (dsimp only; split) | (apply kept_eq1; assumption) | (apply kept_eq2; assumption) | (with_reducible refine Keeps.upd ?_ rfl rfl rfl rfl rfl rfl rfl rfl rfl rfl rfl ?_) | exact fun h g => ⟨h, g⟩ | exact fun h g => ⟨Regs.wf_set _ _ h, g⟩ | exact fun h g => ⟨Regs.wf_set _ _ (Regs.wf_set _ _ h), g⟩ | exact fun h g => ⟨kept_setWords _ _ _ _ h, g⟩ | exact fun h _ => ⟨h, h⟩ | dsimp only | intro _)

theorem kept_State_endPause {s0 s : State}  (hk : Keeps s0 s) : Keeps s0 (State.endPause s) := by
  unfold State.endPause
  repeat' (first | with_reducible assumption | (with_reducible first | apply kept_State_emitCut | apply kept_State_slotAgain | apply kept_ite | apply kept_ite1 | apply kept_ite2 | apply kept_foldl) | split | (dsimp only; split) | (apply kept_eq1; assumption) | (apply kept_eq2; assumption) | (with_reducible refine Keeps.upd ?_ rfl rfl rfl rfl rfl rfl rfl rfl rfl rfl rfl ?_) | exact fun h g => ⟨h, g⟩ | exact fun h g => ⟨Regs.wf_set _ _ h, g⟩ | exact fun h g => ⟨Regs.wf_set _ _ (Regs.wf_set _ _ h), g⟩ | exact fun h g => ⟨kept_setWords _ _ _ _ h, g⟩ | exact fun h _ => ⟨h, h⟩ | dsimp only | intro _)

theorem kept_State_blankEdge {s0 s : State}  (hk : Keeps s0 s) : Keeps s0 (State.blankEdge s) := by
  unfold State.blankEdge
  repeat' (first | with_reducible assumption | (with_reducible first | apply kept_State_after | apply kept_ite | apply kept_ite1 | apply kept_ite2 | apply kept_foldl) | split | (dsimp only; split) | (apply kept_eq1; assumption) | (apply kept_eq2; assumption) | (with_reducible refine Keeps.upd ?_ rfl rfl rfl rfl rfl rfl rfl rfl rfl rfl rfl ?_) | exact fun h g => ⟨h, g⟩ | exact fun h g => ⟨Regs.wf_set _ _ h, g⟩ | exact fun h g => ⟨Regs.wf_set _ _ (Regs.wf_set _ _ h), g⟩ | exact fun h g => ⟨kept_setWords _ _ _ _ h, g⟩ | exact fun h _ => ⟨h, h⟩ | dsimp only | intro _)

theorem kept_State_blankCancel {s0 s : State}  (hk : Keeps s0 s) : Keeps s0 (State.blankCancel s) := by
  unfold State.blankCancel
  repeat' (first | with_reducible assumption | (with_reducible first | apply kept_ite | apply kept_ite1 | apply kept_ite2 | apply kept_foldl) | split | (dsimp only; split) | (apply kept_eq1; assumption) | (apply kept_eq2; assumption) | (with_reducible refine Keeps.upd ?_ rfl rfl rfl rfl rfl rfl rfl rfl rfl rfl rfl ?_) | exact fun h g => ⟨h, g⟩ | exact fun h g => ⟨Regs.wf_set _ _ h, g⟩ | exact fun h g => ⟨Regs.wf_set _ _ (Regs.wf_set _ _ h), g⟩ | exact fun h g => ⟨kept_setWords _ _ _ _ h, g⟩ | exact fun h _ => ⟨h, h⟩ | dsimp only | intro _)

theorem kept_State_blankFollow {s0 s : State}  (hk : Keeps s0 s) : Keeps s0 (State.blankFollow s) := by
  unfold State.blankFollow
  repeat' (first | with_reducible assumption | (with_reducible first | apply kept_ite | apply kept_ite1 | apply kept_ite2 | apply kept_foldl) | split | (dsimp only; split) | (apply kept_eq1; assumption) | (apply kept_eq2; assumption) | (with_reducible refine Keeps.upd ?_ rfl rfl rfl rfl rfl rfl rfl rfl rfl rfl rfl ?_) | exact fun h g => ⟨h, g⟩ | exact fun h g => ⟨Regs.wf_set _ _ h, g⟩ | exact fun h g => ⟨Regs.wf_set _ _ (Regs.wf_set _ _ h), g⟩ | exact fun h g => ⟨kept_setWords _ _ _ _ h, g⟩ | exact fun h _ => ⟨h, h⟩ | dsimp only | intro _)

theorem kept_State_tickPin {s0 s : State}  (hk : Keeps s0 s) : Keeps s0 (State.tickPin s) := by
  unfold State.tickPin
  repeat' (first | with_reducible assumption | (with_reducible first | apply kept_State_after | apply kept_ite | apply kept_ite1 | apply kept_ite2 | apply kept_foldl) | split | (dsimp only; split) | (apply kept_eq1; assumption) | (apply kept_eq2; assumption) | (with_reducible refine Keeps.upd ?_ rfl rfl rfl rfl rfl rfl rfl rfl rfl rfl rfl ?_) | exact fun h g => ⟨h, g⟩ | exact fun h g => ⟨Regs.wf_set _ _ h, g⟩ | exact fun h g => ⟨Regs.wf_set _ _ (Regs.wf_set _ _ h), g⟩ | exact fun h g => ⟨kept_setWords _ _ _ _ h, g⟩ | exact fun h _ => ⟨h, h⟩ | dsimp only | intro _)

theorem kept_State_blankPin {s0 s : State} {high : Bool} (hk : Keeps s0 s) : Keeps s0 (State.blankPin s high) := by
  unfold State.blankPin
  repeat' (first | with_reducible assumption | (with_reducible first | apply kept_State_blankFollow | apply kept_ite | apply kept_ite1 | apply kept_ite2 | apply kept_foldl) | split | (dsimp only; split) | (apply kept_eq1; assumption) | (apply kept_eq2; assumption) | (with_reducible refine Keeps.upd ?_ rfl rfl rfl rfl rfl rfl rfl rfl rfl rfl rfl ?_) | exact fun h g => ⟨h, g⟩ | exact fun h g => ⟨Regs.wf_set _ _ h, g⟩ | exact fun h g => ⟨Regs.wf_set _ _ (Regs.wf_set _ _ h), g⟩ | exact fun h g => ⟨kept_setWords _ _ _ _ h, g⟩ | exact fun h _ => ⟨h, h⟩ | dsimp only | intro _)

theorem kept_State_vsFollow {s0 s : State}  (hk : Keeps s0 s) : Keeps s0 (State.vsFollow s) := by
  unfold State.vsFollow
  repeat' (first | with_reducible assumption | (with_reducible first | apply kept_ite | apply kept_ite1 | apply kept_ite2 | apply kept_foldl) | split | (dsimp only; split) | (apply kept_eq1; assumption) | (apply kept_eq2; assumption) | (with_reducible refine Keeps.upd ?_ rfl rfl rfl rfl rfl rfl rfl rfl rfl rfl rfl ?_) | exact fun h g => ⟨h, g⟩ | exact fun h g => ⟨Regs.wf_set _ _ h, g⟩ | exact fun h g => ⟨Regs.wf_set _ _ (Regs.wf_set _ _ h), g⟩ | exact fun h g => ⟨kept_setWords _ _ _ _ h, g⟩ | exact fun h _ => ⟨h, h⟩ | dsimp only | intro _)

theorem kept_State_vsyncPin {s0 s : State} {high : Bool} (hk : Keeps s0 s) : Keeps s0 (State.vsyncPin s high) := by
  unfold State.vsyncPin
  repeat' (first | with_reducible assumption | (with_reducible first | apply kept_State_vsFollow | apply kept_ite | apply kept_ite1 | apply kept_ite2 | apply kept_foldl) | split | (dsimp only; split) | (apply kept_eq1; assumption) | (apply kept_eq2; assumption) | (with_reducible refine Keeps.upd ?_ rfl rfl rfl rfl rfl rfl rfl rfl rfl rfl rfl ?_) | exact fun h g => ⟨h, g⟩ | exact fun h g => ⟨Regs.wf_set _ _ h, g⟩ | exact fun h g => ⟨Regs.wf_set _ _ (Regs.wf_set _ _ h), g⟩ | exact fun h g => ⟨kept_setWords _ _ _ _ h, g⟩ | exact fun h _ => ⟨h, h⟩ | dsimp only | intro _)

theorem kept_State_tickVsync {s0 s : State}  (hk : Keeps s0 s) : Keeps s0 (State.tickVsync s) := by
  unfold State.tickVsync
  repeat' (first | with_reducible assumption | (with_reducible first | apply kept_State_after | apply kept_ite | apply kept_ite1 | apply kept_ite2 | apply kept_foldl) | split | (dsimp only; split) | (apply kept_eq1; assumption) | (apply kept_eq2; assumption) | (with_reducible refine Keeps.upd ?_ rfl rfl rfl rfl rfl rfl rfl rfl rfl rfl rfl ?_) | exact fun h g => ⟨h, g⟩ | exact fun h g => ⟨Regs.wf_set _ _ h, g⟩ | exact fun h g => ⟨Regs.wf_set _ _ (Regs.wf_set _ _ h), g⟩ | exact fun h g => ⟨kept_setWords _ _ _ _ h, g⟩ | exact fun h _ => ⟨h, h⟩ | dsimp only | intro _)

theorem kept_State_pinsFollow {s0 s : State}  (hk : Keeps s0 s) : Keeps s0 (State.pinsFollow s) := by
  unfold State.pinsFollow
  repeat' (first | with_reducible assumption | (with_reducible first | apply kept_State_vsFollow | apply kept_State_blankFollow | apply kept_ite | apply kept_ite1 | apply kept_ite2 | apply kept_foldl) | split | (dsimp only; split) | (apply kept_eq1; assumption) | (apply kept_eq2; assumption) | (with_reducible refine Keeps.upd ?_ rfl rfl rfl rfl rfl rfl rfl rfl rfl rfl rfl ?_) | exact fun h g => ⟨h, g⟩ | exact fun h g => ⟨Regs.wf_set _ _ h, g⟩ | exact fun h g => ⟨Regs.wf_set _ _ (Regs.wf_set _ _ h), g⟩ | exact fun h g => ⟨kept_setWords _ _ _ _ h, g⟩ | exact fun h _ => ⟨h, h⟩ | dsimp only | intro _)

theorem kept_State_pinsStart {s0 s : State}  (hk : Keeps s0 s) : Keeps s0 (State.pinsStart s) := by
  unfold State.pinsStart
  repeat' (first | with_reducible assumption | (with_reducible first | apply kept_State_pinsFollow | apply kept_ite | apply kept_ite1 | apply kept_ite2 | apply kept_foldl) | split | (dsimp only; split) | (apply kept_eq1; assumption) | (apply kept_eq2; assumption) | (with_reducible refine Keeps.upd ?_ rfl rfl rfl rfl rfl rfl rfl rfl rfl rfl rfl ?_) | exact fun h g => ⟨h, g⟩ | exact fun h g => ⟨Regs.wf_set _ _ h, g⟩ | exact fun h g => ⟨Regs.wf_set _ _ (Regs.wf_set _ _ h), g⟩ | exact fun h g => ⟨kept_setWords _ _ _ _ h, g⟩ | exact fun h _ => ⟨h, h⟩ | dsimp only | intro _)

theorem kept_State_blankOn {s0 s : State}  (hk : Keeps s0 s) : Keeps s0 (State.blankOn s) := by
  unfold State.blankOn
  repeat' (first | with_reducible assumption | (with_reducible first | apply kept_State_blankEdge | apply kept_ite | apply kept_ite1 | apply kept_ite2 | apply kept_foldl) | split | (dsimp only; split) | (apply kept_eq1; assumption) | (apply kept_eq2; assumption) | (with_reducible refine Keeps.upd ?_ rfl rfl rfl rfl rfl rfl rfl rfl rfl rfl rfl ?_) | exact fun h g => ⟨h, g⟩ | exact fun h g => ⟨Regs.wf_set _ _ h, g⟩ | exact fun h g => ⟨Regs.wf_set _ _ (Regs.wf_set _ _ h), g⟩ | exact fun h g => ⟨kept_setWords _ _ _ _ h, g⟩ | exact fun h _ => ⟨h, h⟩ | dsimp only | intro _)

theorem kept_State_blankSeen {s0 s : State} {was : Bool} (hk : Keeps s0 s) : Keeps s0 (State.blankSeen s was) := by
  unfold State.blankSeen
  repeat' (first | with_reducible assumption | (with_reducible first | apply kept_State_timerSource | apply kept_State_timerEvent | apply kept_ite | apply kept_ite1 | apply kept_ite2 | apply kept_foldl) | split | (dsimp only; split) | (apply kept_eq1; assumption) | (apply kept_eq2; assumption) | (with_reducible refine Keeps.upd ?_ rfl rfl rfl rfl rfl rfl rfl rfl rfl rfl rfl ?_) | exact fun h g => ⟨h, g⟩ | exact fun h g => ⟨Regs.wf_set _ _ h, g⟩ | exact fun h g => ⟨Regs.wf_set _ _ (Regs.wf_set _ _ h), g⟩ | exact fun h g => ⟨kept_setWords _ _ _ _ h, g⟩ | exact fun h _ => ⟨h, h⟩ | dsimp only | intro _)

theorem kept_State_blankOff {s0 s : State}  (hk : Keeps s0 s) : Keeps s0 (State.blankOff s) := by
  unfold State.blankOff
  repeat' (first | with_reducible assumption | (with_reducible first | apply kept_State_blankEdge | apply kept_State_endPause | apply kept_State_after | apply kept_ite | apply kept_ite1 | apply kept_ite2 | apply kept_foldl) | split | (dsimp only; split) | (apply kept_eq1; assumption) | (apply kept_eq2; assumption) | (with_reducible refine Keeps.upd ?_ rfl rfl rfl rfl rfl rfl rfl rfl rfl rfl rfl ?_) | exact fun h g => ⟨h, g⟩ | exact fun h g => ⟨Regs.wf_set _ _ h, g⟩ | exact fun h g => ⟨Regs.wf_set _ _ (Regs.wf_set _ _ h), g⟩ | exact fun h g => ⟨kept_setWords _ _ _ _ h, g⟩ | exact fun h _ => ⟨h, h⟩ | dsimp only | intro _)

theorem kept_State_blankTake {s0 s : State} {level : Bool} (hk : Keeps s0 s) : Keeps s0 (State.blankTake s level) := by
  unfold State.blankTake
  repeat' (first | with_reducible assumption | (with_reducible first | apply kept_State_blankOff | apply kept_State_blankSeen | apply kept_State_blankOn | apply kept_State_blankFollow | apply kept_ite | apply kept_ite1 | apply kept_ite2 | apply kept_foldl) | split | (dsimp only; split) | (apply kept_eq1; assumption) | (apply kept_eq2; assumption) | (with_reducible refine Keeps.upd ?_ rfl rfl rfl rfl rfl rfl rfl rfl rfl rfl rfl ?_) | exact fun h g => ⟨h, g⟩ | exact fun h g => ⟨Regs.wf_set _ _ h, g⟩ | exact fun h g => ⟨Regs.wf_set _ _ (Regs.wf_set _ _ h), g⟩ | exact fun h g => ⟨kept_setWords _ _ _ _ h, g⟩ | exact fun h _ => ⟨h, h⟩ | dsimp only | intro _)

theorem kept_State_tailEnd {s0 s : State}  (hk : Keeps s0 s) : Keeps s0 (State.tailEnd s) := by
  unfold State.tailEnd
  repeat' (first | with_reducible assumption | (with_reducible first | apply kept_State_endPause | apply kept_ite | apply kept_ite1 | apply kept_ite2 | apply kept_foldl) | split | (dsimp only; split) | (apply kept_eq1; assumption) | (apply kept_eq2; assumption) | (with_reducible refine Keeps.upd ?_ rfl rfl rfl rfl rfl rfl rfl rfl rfl rfl rfl ?_) | exact fun h g => ⟨h, g⟩ | exact fun h g => ⟨Regs.wf_set _ _ h, g⟩ | exact fun h g => ⟨Regs.wf_set _ _ (Regs.wf_set _ _ h), g⟩ | exact fun h g => ⟨kept_setWords _ _ _ _ h, g⟩ | exact fun h _ => ⟨h, h⟩ | dsimp only | intro _)

theorem kept_State_blankedOp {s0 s : State}  (hk : Keeps s0 s) : Keeps s0 (State.blankedOp s) := by
  unfold State.blankedOp
  repeat' (first | with_reducible assumption | (with_reducible first | apply kept_State_tailEnd | apply kept_State_endPause | apply kept_State_cutClips | apply kept_State_addSat | apply kept_State_setFlag | apply kept_ite | apply kept_ite1 | apply kept_ite2 | apply kept_foldl) | split | (dsimp only; split) | (apply kept_eq1; assumption) | (apply kept_eq2; assumption) | (with_reducible refine Keeps.upd ?_ rfl rfl rfl rfl rfl rfl rfl rfl rfl rfl rfl ?_) | exact fun h g => ⟨h, g⟩ | exact fun h g => ⟨Regs.wf_set _ _ h, g⟩ | exact fun h g => ⟨Regs.wf_set _ _ (Regs.wf_set _ _ h), g⟩ | exact fun h g => ⟨kept_setWords _ _ _ _ h, g⟩ | exact fun h _ => ⟨h, h⟩ | dsimp only | intro _)

theorem kept_State_chatterOp {s0 s : State}  (hk : Keeps s0 s) : Keeps s0 (State.chatterOp s) := by
  unfold State.chatterOp
  repeat' (first | with_reducible assumption | (with_reducible first | apply kept_State_endPause | apply kept_State_setFlag | apply kept_ite | apply kept_ite1 | apply kept_ite2 | apply kept_foldl) | split | (dsimp only; split) | (apply kept_eq1; assumption) | (apply kept_eq2; assumption) | (with_reducible refine Keeps.upd ?_ rfl rfl rfl rfl rfl rfl rfl rfl rfl rfl rfl ?_) | exact fun h g => ⟨h, g⟩ | exact fun h g => ⟨Regs.wf_set _ _ h, g⟩ | exact fun h g => ⟨Regs.wf_set _ _ (Regs.wf_set _ _ h), g⟩ | exact fun h g => ⟨kept_setWords _ _ _ _ h, g⟩ | exact fun h _ => ⟨h, h⟩ | dsimp only | intro _)

theorem kept_State_stuckOp {s0 s : State}  (hk : Keeps s0 s) : Keeps s0 (State.stuckOp s) := by
  unfold State.stuckOp
  repeat' (first | with_reducible assumption | (with_reducible first | apply kept_State_endPause | apply kept_State_setFlag | apply kept_ite | apply kept_ite1 | apply kept_ite2 | apply kept_foldl) | split | (dsimp only; split) | (apply kept_eq1; assumption) | (apply kept_eq2; assumption) | (with_reducible refine Keeps.upd ?_ rfl rfl rfl rfl rfl rfl rfl rfl rfl rfl rfl ?_) | exact fun h g => ⟨h, g⟩ | exact fun h g => ⟨Regs.wf_set _ _ h, g⟩ | exact fun h g => ⟨Regs.wf_set _ _ (Regs.wf_set _ _ h), g⟩ | exact fun h g => ⟨kept_setWords _ _ _ _ h, g⟩ | exact fun h _ => ⟨h, h⟩ | dsimp only | intro _)

theorem kept_State_blankWrite {s0 s : State} {v : Word} (hk : Keeps s0 s) : Keeps s0 (State.blankWrite s v) := by
  unfold State.blankWrite
  repeat' (first | with_reducible assumption | (with_reducible first | apply kept_State_blankOff | apply kept_State_blankFollow | apply kept_State_blankCancel | apply kept_State_setReg | apply kept_ite | apply kept_ite1 | apply kept_ite2 | apply kept_foldl) | split | (dsimp only; split) | (apply kept_eq1; assumption) | (apply kept_eq2; assumption) | (with_reducible refine Keeps.upd ?_ rfl rfl rfl rfl rfl rfl rfl rfl rfl rfl rfl ?_) | exact fun h g => ⟨h, g⟩ | exact fun h g => ⟨Regs.wf_set _ _ h, g⟩ | exact fun h g => ⟨Regs.wf_set _ _ (Regs.wf_set _ _ h), g⟩ | exact fun h g => ⟨kept_setWords _ _ _ _ h, g⟩ | exact fun h _ => ⟨h, h⟩ | dsimp only | intro _)

theorem kept_State_blkmaxWrite {s0 s : State}  (hk : Keeps s0 s) : Keeps s0 (State.blkmaxWrite s) := by
  unfold State.blkmaxWrite
  repeat' (first | with_reducible assumption | (with_reducible first | apply kept_State_after | apply kept_ite | apply kept_ite1 | apply kept_ite2 | apply kept_foldl) | split | (dsimp only; split) | (apply kept_eq1; assumption) | (apply kept_eq2; assumption) | (with_reducible refine Keeps.upd ?_ rfl rfl rfl rfl rfl rfl rfl rfl rfl rfl rfl ?_) | exact fun h g => ⟨h, g⟩ | exact fun h g => ⟨Regs.wf_set _ _ h, g⟩ | exact fun h g => ⟨Regs.wf_set _ _ (Regs.wf_set _ _ h), g⟩ | exact fun h g => ⟨kept_setWords _ _ _ _ h, g⟩ | exact fun h _ => ⟨h, h⟩ | dsimp only | intro _)

theorem kept_State_frameTail {s0 s : State} {l : Nat} (hk : Keeps s0 s) : Keeps s0 (State.frameTail s l) := by
  unfold State.frameTail
  repeat' (first | with_reducible assumption | (with_reducible first | apply kept_ite | apply kept_ite1 | apply kept_ite2 | apply kept_foldl) | split | (dsimp only; split) | (apply kept_eq1; assumption) | (apply kept_eq2; assumption) | (with_reducible refine Keeps.upd ?_ rfl rfl rfl rfl rfl rfl rfl rfl rfl rfl rfl ?_) | exact fun h g => ⟨h, g⟩ | exact fun h g => ⟨Regs.wf_set _ _ h, g⟩ | exact fun h g => ⟨Regs.wf_set _ _ (Regs.wf_set _ _ h), g⟩ | exact fun h g => ⟨kept_setWords _ _ _ _ h, g⟩ | exact fun h _ => ⟨h, h⟩ | dsimp only | intro _)

theorem kept_State_afterEntry {s0 s : State} {e : Nat} (hk : Keeps s0 s) : Keeps s0 (State.afterEntry s e) := by
  unfold State.afterEntry
  repeat' (first | with_reducible assumption | (with_reducible first | apply kept_State_frameTail | apply kept_State_startSlot | apply kept_ite | apply kept_ite1 | apply kept_ite2 | apply kept_foldl) | split | (dsimp only; split) | (apply kept_eq1; assumption) | (apply kept_eq2; assumption) | (with_reducible refine Keeps.upd ?_ rfl rfl rfl rfl rfl rfl rfl rfl rfl rfl rfl ?_) | exact fun h g => ⟨h, g⟩ | exact fun h g => ⟨Regs.wf_set _ _ h, g⟩ | exact fun h g => ⟨Regs.wf_set _ _ (Regs.wf_set _ _ h), g⟩ | exact fun h g => ⟨kept_setWords _ _ _ _ h, g⟩ | exact fun h _ => ⟨h, h⟩ | dsimp only | intro _)

theorem kept_State_injHandle {s0 s : State}  (hk : Keeps s0 s) : Keeps s0 (State.injHandle s) := by
  unfold State.injHandle
  repeat' (first | with_reducible assumption | (with_reducible first | apply kept_State_cutClips | apply kept_State_injStart | apply kept_State_noteInj | apply kept_State_draw | apply kept_State_addSat | apply kept_State_setFlag | apply kept_ite | apply kept_ite1 | apply kept_ite2 | apply kept_foldl) | split | (dsimp only; split) | (apply kept_eq1; assumption) | (apply kept_eq2; assumption) | (with_reducible refine Keeps.upd ?_ rfl rfl rfl rfl rfl rfl rfl rfl rfl rfl rfl ?_) | exact fun h g => ⟨h, g⟩ | exact fun h g => ⟨Regs.wf_set _ _ h, g⟩ | exact fun h g => ⟨Regs.wf_set _ _ (Regs.wf_set _ _ h), g⟩ | exact fun h g => ⟨kept_setWords _ _ _ _ h, g⟩ | exact fun h _ => ⟨h, h⟩ | dsimp only | intro _)

theorem kept_State_injTrigger {s0 s : State} {host : Bool} {cloche : Bool} (hk : Keeps s0 s) : Keeps s0 (State.injTrigger s host cloche) := by
  unfold State.injTrigger
  repeat' (first | with_reducible assumption | (with_reducible first | apply kept_State_injHandle | apply kept_State_setFlagIf | apply kept_State_setReg | apply kept_ite | apply kept_ite1 | apply kept_ite2 | apply kept_foldl) | split | (dsimp only; split) | (apply kept_eq1; assumption) | (apply kept_eq2; assumption) | (with_reducible refine Keeps.upd ?_ rfl rfl rfl rfl rfl rfl rfl rfl rfl rfl rfl ?_) | exact fun h g => ⟨h, g⟩ | exact fun h g => ⟨Regs.wf_set _ _ h, g⟩ | exact fun h g => ⟨Regs.wf_set _ _ (Regs.wf_set _ _ h), g⟩ | exact fun h g => ⟨kept_setWords _ _ _ _ h, g⟩ | exact fun h _ => ⟨h, h⟩ | dsimp only | intro _)

theorem kept_State_injRampEnd {s0 s : State}  (hk : Keeps s0 s) : Keeps s0 (State.injRampEnd s) := by
  unfold State.injRampEnd
  repeat' (first | with_reducible assumption | (with_reducible first | apply kept_State_startSlot | apply kept_ite | apply kept_ite1 | apply kept_ite2 | apply kept_foldl) | split | (dsimp only; split) | (apply kept_eq1; assumption) | (apply kept_eq2; assumption) | (with_reducible refine Keeps.upd ?_ rfl rfl rfl rfl rfl rfl rfl rfl rfl rfl rfl ?_) | exact fun h g => ⟨h, g⟩ | exact fun h g => ⟨Regs.wf_set _ _ h, g⟩ | exact fun h g => ⟨Regs.wf_set _ _ (Regs.wf_set _ _ h), g⟩ | exact fun h g => ⟨kept_setWords _ _ _ _ h, g⟩ | exact fun h _ => ⟨h, h⟩ | dsimp only | intro _)

theorem kept_State_injSlotDone {s0 s : State} {i : Nat} (hk : Keeps s0 s) : Keeps s0 (State.injSlotDone s i) := by
  unfold State.injSlotDone
  repeat' (first | with_reducible assumption | (with_reducible first | apply kept_State_startSlot | apply kept_State_after | apply kept_ite | apply kept_ite1 | apply kept_ite2 | apply kept_foldl) | split | (dsimp only; split) | (apply kept_eq1; assumption) | (apply kept_eq2; assumption) | (with_reducible refine Keeps.upd ?_ rfl rfl rfl rfl rfl rfl rfl rfl rfl rfl rfl ?_) | exact fun h g => ⟨h, g⟩ | exact fun h g => ⟨Regs.wf_set _ _ h, g⟩ | exact fun h g => ⟨Regs.wf_set _ _ (Regs.wf_set _ _ h), g⟩ | exact fun h g => ⟨kept_setWords _ _ _ _ h, g⟩ | exact fun h _ => ⟨h, h⟩ | dsimp only | intro _)

theorem kept_State_injDone {s0 s : State}  (hk : Keeps s0 s) : Keeps s0 (State.injDone s) := by
  unfold State.injDone
  repeat' (first | with_reducible assumption | (with_reducible first | apply kept_State_startSlot | apply kept_State_replanSoon | apply kept_State_addSat | apply kept_State_setFlag | apply kept_ite | apply kept_ite1 | apply kept_ite2 | apply kept_foldl) | split | (dsimp only; split) | (apply kept_eq1; assumption) | (apply kept_eq2; assumption) | (with_reducible refine Keeps.upd ?_ rfl rfl rfl rfl rfl rfl rfl rfl rfl rfl rfl ?_) | exact fun h g => ⟨h, g⟩ | exact fun h g => ⟨Regs.wf_set _ _ h, g⟩ | exact fun h g => ⟨Regs.wf_set _ _ (Regs.wf_set _ _ h), g⟩ | exact fun h g => ⟨kept_setWords _ _ _ _ h, g⟩ | exact fun h _ => ⟨h, h⟩ | dsimp only | intro _)

theorem kept_State_startRelock {s0 s : State} {k : Relock} (hk : Keeps s0 s) : Keeps s0 (State.startRelock s k) := by
  unfold State.startRelock
  repeat' (first | with_reducible assumption | (with_reducible first | apply kept_State_periodStart | apply kept_ite | apply kept_ite1 | apply kept_ite2 | apply kept_foldl) | split | (dsimp only; split) | (apply kept_eq1; assumption) | (apply kept_eq2; assumption) | (with_reducible refine Keeps.upd ?_ rfl rfl rfl rfl rfl rfl rfl rfl rfl rfl rfl ?_) | exact fun h g => ⟨h, g⟩ | exact fun h g => ⟨Regs.wf_set _ _ h, g⟩ | exact fun h g => ⟨Regs.wf_set _ _ (Regs.wf_set _ _ h), g⟩ | exact fun h g => ⟨kept_setWords _ _ _ _ h, g⟩ | exact fun h _ => ⟨h, h⟩ | dsimp only | intro _)

theorem kept_State_freezeSlot {s0 s : State}  (hk : Keeps s0 s) : Keeps s0 (State.freezeSlot s) := by
  unfold State.freezeSlot
  repeat' (first | with_reducible assumption | (with_reducible first | apply kept_State_startRelock | apply kept_State_cutClips | apply kept_State_addSat | apply kept_State_setReg | apply kept_ite | apply kept_ite1 | apply kept_ite2 | apply kept_foldl) | split | (dsimp only; split) | (apply kept_eq1; assumption) | (apply kept_eq2; assumption) | (with_reducible refine Keeps.upd ?_ rfl rfl rfl rfl rfl rfl rfl rfl rfl rfl rfl ?_) | exact fun h g => ⟨h, g⟩ | exact fun h g => ⟨Regs.wf_set _ _ h, g⟩ | exact fun h g => ⟨Regs.wf_set _ _ (Regs.wf_set _ _ h), g⟩ | exact fun h g => ⟨kept_setWords _ _ _ _ h, g⟩ | exact fun h _ => ⟨h, h⟩ | dsimp only | intro _)

theorem kept_State_unend {s0 s : State} {e : Ended} (hk : Keeps s0 s) : Keeps s0 (State.unend s e) := by
  unfold State.unend
  repeat' (first | with_reducible assumption | (with_reducible first | apply kept_State_unschedule | apply kept_State_after | apply kept_State_setReg | apply kept_ite | apply kept_ite1 | apply kept_ite2 | apply kept_foldl) | split | (dsimp only; split) | (apply kept_eq1; assumption) | (apply kept_eq2; assumption) | (with_reducible refine Keeps.upd ?_ rfl rfl rfl rfl rfl rfl rfl rfl rfl rfl rfl ?_) | exact fun h g => ⟨h, g⟩ | exact fun h g => ⟨Regs.wf_set _ _ h, g⟩ | exact fun h g => ⟨Regs.wf_set _ _ (Regs.wf_set _ _ h), g⟩ | exact fun h g => ⟨kept_setWords _ _ _ _ h, g⟩ | exact fun h _ => ⟨h, h⟩ | dsimp only | intro _)

theorem kept_State_restartRelock {s0 s : State}  (hk : Keeps s0 s) : Keeps s0 (State.restartRelock s) := by
  unfold State.restartRelock
  repeat' (first | with_reducible assumption | (with_reducible first | apply kept_State_periodStart | apply kept_ite | apply kept_ite1 | apply kept_ite2 | apply kept_foldl) | split | (dsimp only; split) | (apply kept_eq1; assumption) | (apply kept_eq2; assumption) | (with_reducible refine Keeps.upd ?_ rfl rfl rfl rfl rfl rfl rfl rfl rfl rfl rfl ?_) | exact fun h g => ⟨h, g⟩ | exact fun h g => ⟨Regs.wf_set _ _ h, g⟩ | exact fun h g => ⟨Regs.wf_set _ _ (Regs.wf_set _ _ h), g⟩ | exact fun h g => ⟨kept_setWords _ _ _ _ h, g⟩ | exact fun h _ => ⟨h, h⟩ | dsimp only | intro _)

theorem kept_State_shiftPeriod {s0 s : State}  (hk : Keeps s0 s) : Keeps s0 (State.shiftPeriod s) := by
  unfold State.shiftPeriod
  repeat' (first | with_reducible assumption | (with_reducible first | apply kept_State_startRelock | apply kept_ite | apply kept_ite1 | apply kept_ite2 | apply kept_foldl) | split | (dsimp only; split) | (apply kept_eq1; assumption) | (apply kept_eq2; assumption) | (with_reducible refine Keeps.upd ?_ rfl rfl rfl rfl rfl rfl rfl rfl rfl rfl rfl ?_) | exact fun h g => ⟨h, g⟩ | exact fun h g => ⟨Regs.wf_set _ _ h, g⟩ | exact fun h g => ⟨Regs.wf_set _ _ (Regs.wf_set _ _ h), g⟩ | exact fun h g => ⟨kept_setWords _ _ _ _ h, g⟩ | exact fun h _ => ⟨h, h⟩ | dsimp only | intro _)

end Machine
end Sys2Proof
end

