-- ==== Sys2Proof/Laws/KeepsMode.lean ====
section
/-! SUPPORT. What the operations of the modes, the Scarecrow, frame boundaries, register accesses, the link and the clock keep. -/

set_option linter.unusedTactic false
set_option linter.unreachableTactic false
set_option linter.unusedSimpArgs false

namespace Sys2Proof
namespace Machine

theorem kept_State_loadSeeds {s0 s : State}  (hk : Keeps s0 s) : Keeps s0 (State.loadSeeds s) := by
  unfold State.loadSeeds
  repeat' (first | with_reducible assumption | (with_reducible first | apply kept_State_setReg | apply kept_ite | apply kept_ite1 | apply kept_ite2 | apply kept_foldl) | split | (dsimp only; split) | (apply kept_eq1; assumption) | (apply kept_eq2; assumption) | (with_reducible refine Keeps.upd ?_ rfl rfl rfl rfl rfl rfl rfl rfl rfl rfl rfl ?_) | exact fun h g => ⟨h, g⟩ | exact fun h g => ⟨Regs.wf_set _ _ h, g⟩ | exact fun h g => ⟨Regs.wf_set _ _ (Regs.wf_set _ _ h), g⟩ | exact fun h g => ⟨kept_setWords _ _ _ _ h, g⟩ | exact fun h _ => ⟨h, h⟩ | dsimp only | intro _)

theorem kept_State_beginStep2 {s0 s : State}  (hk : Keeps s0 s) : Keeps s0 (State.beginStep2 s) := by
  unfold State.beginStep2
  repeat' (first | with_reducible assumption | (with_reducible first | apply kept_ite | apply kept_ite1 | apply kept_ite2 | apply kept_foldl) | split | (dsimp only; split) | (apply kept_eq1; assumption) | (apply kept_eq2; assumption) | (with_reducible refine Keeps.upd ?_ rfl rfl rfl rfl rfl rfl rfl rfl rfl rfl rfl ?_) | exact fun h g => ⟨h, g⟩ | exact fun h g => ⟨Regs.wf_set _ _ h, g⟩ | exact fun h g => ⟨Regs.wf_set _ _ (Regs.wf_set _ _ h), g⟩ | exact fun h g => ⟨kept_setWords _ _ _ _ h, g⟩ | exact fun h _ => ⟨h, h⟩ | dsimp only | intro _)

theorem kept_State_refStart {s0 s : State} {w : RefWait} {src : Nat} (hk : Keeps s0 s) : Keeps s0 (State.refStart s w src) := by
  unfold State.refStart
  repeat' (first | with_reducible assumption | (with_reducible first | apply kept_State_unschedule | apply kept_State_after | apply kept_ite | apply kept_ite1 | apply kept_ite2 | apply kept_foldl) | split | (dsimp only; split) | (apply kept_eq1; assumption) | (apply kept_eq2; assumption) | (with_reducible refine Keeps.upd ?_ rfl rfl rfl rfl rfl rfl rfl rfl rfl rfl rfl ?_) | exact fun h g => ⟨h, g⟩ | exact fun h g => ⟨Regs.wf_set _ _ h, g⟩ | exact fun h g => ⟨Regs.wf_set _ _ (Regs.wf_set _ _ h), g⟩ | exact fun h g => ⟨kept_setWords _ _ _ _ h, g⟩ | exact fun h _ => ⟨h, h⟩ | dsimp only | intro _)

theorem kept_State_refEnters {s0 s : State}  (hk : Keeps s0 s) : Keeps s0 (State.refEnters s) := by
  unfold State.refEnters
  repeat' (first | with_reducible assumption | (with_reducible first | apply kept_State_refStart | apply kept_ite | apply kept_ite1 | apply kept_ite2 | apply kept_foldl) | split | (dsimp only; split) | (apply kept_eq1; assumption) | (apply kept_eq2; assumption) | (with_reducible refine Keeps.upd ?_ rfl rfl rfl rfl rfl rfl rfl rfl rfl rfl rfl ?_) | exact fun h g => ⟨h, g⟩ | exact fun h g => ⟨Regs.wf_set _ _ h, g⟩ | exact fun h g => ⟨Regs.wf_set _ _ (Regs.wf_set _ _ h), g⟩ | exact fun h g => ⟨kept_setWords _ _ _ _ h, g⟩ | exact fun h _ => ⟨h, h⟩ | dsimp only | intro _)

theorem kept_State_refFallback {s0 s : State}  (hk : Keeps s0 s) : Keeps s0 (State.refFallback s) := by
  unfold State.refFallback
  repeat' (first | with_reducible assumption | (with_reducible first | apply kept_State_refStart | apply kept_State_setFlag | apply kept_ite | apply kept_ite1 | apply kept_ite2 | apply kept_foldl) | split | (dsimp only; split) | (apply kept_eq1; assumption) | (apply kept_eq2; assumption) | (with_reducible refine Keeps.upd ?_ rfl rfl rfl rfl rfl rfl rfl rfl rfl rfl rfl ?_) | exact fun h g => ⟨h, g⟩ | exact fun h g => ⟨Regs.wf_set _ _ h, g⟩ | exact fun h g => ⟨Regs.wf_set _ _ (Regs.wf_set _ _ h), g⟩ | exact fun h g => ⟨kept_setWords _ _ _ _ h, g⟩ | exact fun h _ => ⟨h, h⟩ | dsimp only | intro _)

theorem kept_State_refLeaves {s0 s : State}  (hk : Keeps s0 s) : Keeps s0 (State.refLeaves s) := by
  unfold State.refLeaves
  repeat' (first | with_reducible assumption | (with_reducible first | apply kept_State_setFlag | apply kept_ite | apply kept_ite1 | apply kept_ite2 | apply kept_foldl) | split | (dsimp only; split) | (apply kept_eq1; assumption) | (apply kept_eq2; assumption) | (with_reducible refine Keeps.upd ?_ rfl rfl rfl rfl rfl rfl rfl rfl rfl rfl rfl ?_) | exact fun h g => ⟨h, g⟩ | exact fun h g => ⟨Regs.wf_set _ _ h, g⟩ | exact fun h g => ⟨Regs.wf_set _ _ (Regs.wf_set _ _ h), g⟩ | exact fun h g => ⟨kept_setWords _ _ _ _ h, g⟩ | exact fun h _ => ⟨h, h⟩ | dsimp only | intro _)

theorem kept_State_goMode {s0 s : State} {code : Nat} (hk : Keeps s0 s) : Keeps s0 (State.goMode s code) := by
  unfold State.goMode
  repeat' (first | with_reducible assumption | (with_reducible first | apply kept_State_cmdDone | apply kept_ite | apply kept_ite1 | apply kept_ite2 | apply kept_foldl) | split | (dsimp only; split) | (apply kept_eq1; assumption) | (apply kept_eq2; assumption) | (with_reducible refine Keeps.upd ?_ rfl rfl rfl rfl rfl rfl rfl rfl rfl rfl rfl ?_) | exact fun h g => ⟨h, g⟩ | exact fun h g => ⟨Regs.wf_set _ _ h, g⟩ | exact fun h g => ⟨Regs.wf_set _ _ (Regs.wf_set _ _ h), g⟩ | exact fun h g => ⟨kept_setWords _ _ _ _ h, g⟩ | exact fun h _ => ⟨h, h⟩ | dsimp only | intro _)

theorem kept_State_proceedHeld {s0 s : State}  (hk : Keeps s0 s) : Keeps s0 (State.proceedHeld s) := by
  unfold State.proceedHeld
  repeat' (first | with_reducible assumption | (with_reducible first | apply kept_State_goMode | apply kept_ite | apply kept_ite1 | apply kept_ite2 | apply kept_foldl) | split | (dsimp only; split) | (apply kept_eq1; assumption) | (apply kept_eq2; assumption) | (with_reducible refine Keeps.upd ?_ rfl rfl rfl rfl rfl rfl rfl rfl rfl rfl rfl ?_) | exact fun h g => ⟨h, g⟩ | exact fun h g => ⟨Regs.wf_set _ _ h, g⟩ | exact fun h g => ⟨Regs.wf_set _ _ (Regs.wf_set _ _ h), g⟩ | exact fun h g => ⟨kept_setWords _ _ _ _ h, g⟩ | exact fun h _ => ⟨h, h⟩ | dsimp only | intro _)

theorem kept_State_setMode {s0 s : State} {m : Mode} (hk : Keeps s0 s) : Keeps s0 (State.setMode s m) := by
  unfold State.setMode
  repeat' (first | with_reducible assumption | (with_reducible first | apply kept_State_calDiscard | apply kept_State_setFlag | apply kept_State_setReg | apply kept_ite | apply kept_ite1 | apply kept_ite2 | apply kept_foldl) | split | (dsimp only; split) | (apply kept_eq1; assumption) | (apply kept_eq2; assumption) | (with_reducible refine Keeps.upd ?_ rfl rfl rfl rfl rfl rfl rfl rfl rfl rfl rfl ?_) | exact fun h g => ⟨h, g⟩ | exact fun h g => ⟨Regs.wf_set _ _ h, g⟩ | exact fun h g => ⟨Regs.wf_set _ _ (Regs.wf_set _ _ h), g⟩ | exact fun h g => ⟨kept_setWords _ _ _ _ h, g⟩ | exact fun h _ => ⟨h, h⟩ | dsimp only | intro _)

theorem kept_State_idleRestart {s0 s : State}  (hk : Keeps s0 s) : Keeps s0 (State.idleRestart s) := by
  unfold State.idleRestart
  repeat' (first | with_reducible assumption | (with_reducible first | apply kept_State_idleCheck | apply kept_State_unschedule | apply kept_ite | apply kept_ite1 | apply kept_ite2 | apply kept_foldl) | split | (dsimp only; split) | (apply kept_eq1; assumption) | (apply kept_eq2; assumption) | (with_reducible refine Keeps.upd ?_ rfl rfl rfl rfl rfl rfl rfl rfl rfl rfl rfl ?_) | exact fun h g => ⟨h, g⟩ | exact fun h g => ⟨Regs.wf_set _ _ h, g⟩ | exact fun h g => ⟨Regs.wf_set _ _ (Regs.wf_set _ _ h), g⟩ | exact fun h g => ⟨kept_setWords _ _ _ _ h, g⟩ | exact fun h _ => ⟨h, h⟩ | dsimp only | intro _)

theorem kept_State_bootEnd {s0 s : State} {m : Mode} (hk : Keeps s0 s) : Keeps s0 (State.bootEnd s m) := by
  unfold State.bootEnd
  repeat' (first | with_reducible assumption | (with_reducible first | apply kept_State_idleRestart | apply kept_State_setMode | apply kept_State_proceedHeld | apply kept_State_after | apply kept_ite | apply kept_ite1 | apply kept_ite2 | apply kept_foldl) | split | (dsimp only; split) | (apply kept_eq1; assumption) | (apply kept_eq2; assumption) | (with_reducible refine Keeps.upd ?_ rfl rfl rfl rfl rfl rfl rfl rfl rfl rfl rfl ?_) | exact fun h g => ⟨h, g⟩ | exact fun h g => ⟨Regs.wf_set _ _ h, g⟩ | exact fun h g => ⟨Regs.wf_set _ _ (Regs.wf_set _ _ h), g⟩ | exact fun h g => ⟨kept_setWords _ _ _ _ h, g⟩ | exact fun h _ => ⟨h, h⟩ | dsimp only | intro _)

theorem kept_State_startBaseline {s0 s : State} {a : After} {b : Nat} (hk : Keeps s0 s) : Keeps s0 (State.startBaseline s a b) := by
  unfold State.startBaseline
  repeat' (first | with_reducible assumption | (with_reducible first | apply kept_State_formStart | apply kept_ite | apply kept_ite1 | apply kept_ite2 | apply kept_foldl) | split | (dsimp only; split) | (apply kept_eq1; assumption) | (apply kept_eq2; assumption) | (with_reducible refine Keeps.upd ?_ rfl rfl rfl rfl rfl rfl rfl rfl rfl rfl rfl ?_) | exact fun h g => ⟨h, g⟩ | exact fun h g => ⟨Regs.wf_set _ _ h, g⟩ | exact fun h g => ⟨Regs.wf_set _ _ (Regs.wf_set _ _ h), g⟩ | exact fun h g => ⟨kept_setWords _ _ _ _ h, g⟩ | exact fun h _ => ⟨h, h⟩ | dsimp only | intro _)

theorem kept_State_bootStep6 {s0 s : State} {b : Nat} (hk : Keeps s0 s) : Keeps s0 (State.bootStep6 s b) := by
  unfold State.bootStep6
  repeat' (first | with_reducible assumption | (with_reducible first | apply kept_State_startBaseline | apply kept_ite | apply kept_ite1 | apply kept_ite2 | apply kept_foldl) | split | (dsimp only; split) | (apply kept_eq1; assumption) | (apply kept_eq2; assumption) | (with_reducible refine Keeps.upd ?_ rfl rfl rfl rfl rfl rfl rfl rfl rfl rfl rfl ?_) | exact fun h g => ⟨h, g⟩ | exact fun h g => ⟨Regs.wf_set _ _ h, g⟩ | exact fun h g => ⟨Regs.wf_set _ _ (Regs.wf_set _ _ h), g⟩ | exact fun h g => ⟨kept_setWords _ _ _ _ h, g⟩ | exact fun h _ => ⟨h, h⟩ | dsimp only | intro _)

theorem kept_State_takeFilter {s0 s : State}  (hk : Keeps s0 s) : Keeps s0 (State.takeFilter s) := by
  unfold State.takeFilter
  repeat' (first | with_reducible assumption | (with_reducible first | apply kept_State_setReg | apply kept_ite | apply kept_ite1 | apply kept_ite2 | apply kept_foldl) | split | (dsimp only; split) | (apply kept_eq1; assumption) | (apply kept_eq2; assumption) | (with_reducible refine Keeps.upd ?_ rfl rfl rfl rfl rfl rfl rfl rfl rfl rfl rfl ?_) | exact fun h g => ⟨h, g⟩ | exact fun h g => ⟨Regs.wf_set _ _ h, g⟩ | exact fun h g => ⟨Regs.wf_set _ _ (Regs.wf_set _ _ h), g⟩ | exact fun h g => ⟨kept_setWords _ _ _ _ h, g⟩ | exact fun h _ => ⟨h, h⟩ | dsimp only | intro _)

theorem kept_State_takeSettings {s0 s : State}  (hk : Keeps s0 s) : Keeps s0 (State.takeSettings s) := by
  unfold State.takeSettings
  repeat' (first | with_reducible assumption | (with_reducible first | apply kept_State_setFlagIf | apply kept_ite | apply kept_ite1 | apply kept_ite2 | apply kept_foldl) | split | (dsimp only; split) | (apply kept_eq1; assumption) | (apply kept_eq2; assumption) | (with_reducible refine Keeps.upd ?_ rfl rfl rfl rfl rfl rfl rfl rfl rfl rfl rfl ?_) | exact fun h g => ⟨h, g⟩ | exact fun h g => ⟨Regs.wf_set _ _ h, g⟩ | exact fun h g => ⟨Regs.wf_set _ _ (Regs.wf_set _ _ h), g⟩ | exact fun h g => ⟨kept_setWords _ _ _ _ h, g⟩ | exact fun h _ => ⟨h, h⟩ | dsimp only | intro _)

theorem kept_State_imageTaken {s0 s : State}  (hk : Keeps s0 s) : Keeps s0 (State.imageTaken s) := by
  unfold State.imageTaken
  repeat' (first | with_reducible assumption | (with_reducible first | apply kept_State_takeSettings | apply kept_State_setUnc | apply kept_State_setWide | apply kept_ite | apply kept_ite1 | apply kept_ite2 | apply kept_foldl) | split | (dsimp only; split) | (apply kept_eq1; assumption) | (apply kept_eq2; assumption) | (with_reducible refine Keeps.upd ?_ rfl rfl rfl rfl rfl rfl rfl rfl rfl rfl rfl ?_) | exact fun h g => ⟨h, g⟩ | exact fun h g => ⟨Regs.wf_set _ _ h, g⟩ | exact fun h g => ⟨Regs.wf_set _ _ (Regs.wf_set _ _ h), g⟩ | exact fun h g => ⟨kept_setWords _ _ _ _ h, g⟩ | exact fun h _ => ⟨h, h⟩ | dsimp only | intro _)

theorem kept_State_step4End {s0 s : State}  (hk : Keeps s0 s) : Keeps s0 (State.step4End s) := by
  unfold State.step4End
  repeat' (first | with_reducible assumption | (with_reducible first | apply kept_State_takeFilter | apply kept_State_bootStep6 | apply kept_State_bootEnd | apply kept_State_startSlot | apply kept_State_calBegin | apply kept_ite | apply kept_ite1 | apply kept_ite2 | apply kept_foldl) | split | (dsimp only; split) | (apply kept_eq1; assumption) | (apply kept_eq2; assumption) | (with_reducible refine Keeps.upd ?_ rfl rfl rfl rfl rfl rfl rfl rfl rfl rfl rfl ?_) | exact fun h g => ⟨h, g⟩ | exact fun h g => ⟨Regs.wf_set _ _ h, g⟩ | exact fun h g => ⟨Regs.wf_set _ _ (Regs.wf_set _ _ h), g⟩ | exact fun h g => ⟨kept_setWords _ _ _ _ h, g⟩ | exact fun h _ => ⟨h, h⟩ | dsimp only | intro _)

theorem kept_State_stepCheck {s0 s : State}  (hk : Keeps s0 s) : Keeps s0 (State.stepCheck s) := by
  unfold State.stepCheck
  repeat' (first | with_reducible assumption | (with_reducible first | apply kept_State_refStart | apply kept_State_periodStart | apply kept_ite | apply kept_ite1 | apply kept_ite2 | apply kept_foldl) | split | (dsimp only; split) | (apply kept_eq1; assumption) | (apply kept_eq2; assumption) | (with_reducible refine Keeps.upd ?_ rfl rfl rfl rfl rfl rfl rfl rfl rfl rfl rfl ?_) | exact fun h g => ⟨h, g⟩ | exact fun h g => ⟨Regs.wf_set _ _ h, g⟩ | exact fun h g => ⟨Regs.wf_set _ _ (Regs.wf_set _ _ h), g⟩ | exact fun h g => ⟨kept_setWords _ _ _ _ h, g⟩ | exact fun h _ => ⟨h, h⟩ | dsimp only | intro _)

theorem kept_State_refSettled {s0 s : State}  (hk : Keeps s0 s) : Keeps s0 (State.refSettled s) := by
  unfold State.refSettled
  repeat' (first | with_reducible assumption | (with_reducible first | apply kept_State_step4End | apply kept_State_formStart | apply kept_ite | apply kept_ite1 | apply kept_ite2 | apply kept_foldl) | split | (dsimp only; split) | (apply kept_eq1; assumption) | (apply kept_eq2; assumption) | (with_reducible refine Keeps.upd ?_ rfl rfl rfl rfl rfl rfl rfl rfl rfl rfl rfl ?_) | exact fun h g => ⟨h, g⟩ | exact fun h g => ⟨Regs.wf_set _ _ h, g⟩ | exact fun h g => ⟨Regs.wf_set _ _ (Regs.wf_set _ _ h), g⟩ | exact fun h g => ⟨kept_setWords _ _ _ _ h, g⟩ | exact fun h _ => ⟨h, h⟩ | dsimp only | intro _)

theorem kept_State_cmdReject {s0 s : State} {cmd : Bool} {state : Bool} {arg : Bool} (hk : Keeps s0 s) : Keeps s0 (State.cmdReject s cmd state arg) := by
  unfold State.cmdReject
  repeat' (first | with_reducible assumption | (with_reducible first | apply kept_State_setFlag | apply kept_ite | apply kept_ite1 | apply kept_ite2 | apply kept_foldl) | split | (dsimp only; split) | (apply kept_eq1; assumption) | (apply kept_eq2; assumption) | (with_reducible refine Keeps.upd ?_ rfl rfl rfl rfl rfl rfl rfl rfl rfl rfl rfl ?_) | exact fun h g => ⟨h, g⟩ | exact fun h g => ⟨Regs.wf_set _ _ h, g⟩ | exact fun h g => ⟨Regs.wf_set _ _ (Regs.wf_set _ _ h), g⟩ | exact fun h g => ⟨kept_setWords _ _ _ _ h, g⟩ | exact fun h _ => ⟨h, h⟩ | dsimp only | intro _)

theorem kept_State_cmdStart {s0 s : State} {c : Nat} {arg : Nat} (hk : Keeps s0 s) : Keeps s0 (State.cmdStart s c arg) := by
  unfold State.cmdStart
  repeat' (first | with_reducible assumption | (with_reducible first | apply kept_State_goMode | apply kept_State_solveStart | apply kept_State_cmdDone | apply kept_ite | apply kept_ite1 | apply kept_ite2 | apply kept_foldl) | split | (dsimp only; split) | (apply kept_eq1; assumption) | (apply kept_eq2; assumption) | (with_reducible refine Keeps.upd ?_ rfl rfl rfl rfl rfl rfl rfl rfl rfl rfl rfl ?_) | exact fun h g => ⟨h, g⟩ | exact fun h g => ⟨Regs.wf_set _ _ h, g⟩ | exact fun h g => ⟨Regs.wf_set _ _ (Regs.wf_set _ _ h), g⟩ | exact fun h g => ⟨kept_setWords _ _ _ _ h, g⟩ | exact fun h _ => ⟨h, h⟩ | dsimp only | intro _)

theorem kept_State_command {s0 s : State} {v : Word} (hk : Keeps s0 s) : Keeps s0 (State.command s v) := by
  unfold State.command
  repeat' (first | with_reducible assumption | (with_reducible first | apply kept_State_cmdStart | apply kept_State_cmdReject | apply kept_ite | apply kept_ite1 | apply kept_ite2 | apply kept_foldl) | split | (dsimp only; split) | (apply kept_eq1; assumption) | (apply kept_eq2; assumption) | (with_reducible refine Keeps.upd ?_ rfl rfl rfl rfl rfl rfl rfl rfl rfl rfl rfl ?_) | exact fun h g => ⟨h, g⟩ | exact fun h g => ⟨Regs.wf_set _ _ h, g⟩ | exact fun h g => ⟨Regs.wf_set _ _ (Regs.wf_set _ _ h), g⟩ | exact fun h g => ⟨kept_setWords _ _ _ _ h, g⟩ | exact fun h _ => ⟨h, h⟩ | dsimp only | intro _)

theorem kept_State_setGang {s0 s : State} {g : Nat} {x : Gang} (hk : Keeps s0 s) : Keeps s0 (State.setGang s g x) := by
  unfold State.setGang
  repeat' (first | with_reducible assumption | (with_reducible first | apply kept_ite | apply kept_ite1 | apply kept_ite2 | apply kept_foldl) | split | (dsimp only; split) | (apply kept_eq1; assumption) | (apply kept_eq2; assumption) | (with_reducible refine Keeps.upd ?_ rfl rfl rfl rfl rfl rfl rfl rfl rfl rfl rfl ?_) | exact fun h g => ⟨h, g⟩ | exact fun h g => ⟨Regs.wf_set _ _ h, g⟩ | exact fun h g => ⟨Regs.wf_set _ _ (Regs.wf_set _ _ h), g⟩ | exact fun h g => ⟨kept_setWords _ _ _ _ h, g⟩ | exact fun h _ => ⟨h, h⟩ | dsimp only | intro _)

theorem kept_State_skEnter {s0 s : State}  (hk : Keeps s0 s) : Keeps s0 (State.skEnter s) := by
  unfold State.skEnter
  repeat' (first | with_reducible assumption | (with_reducible first | apply kept_State_setFlagIf | apply kept_ite | apply kept_ite1 | apply kept_ite2 | apply kept_foldl) | split | (dsimp only; split) | (apply kept_eq1; assumption) | (apply kept_eq2; assumption) | (with_reducible refine Keeps.upd ?_ rfl rfl rfl rfl rfl rfl rfl rfl rfl rfl rfl ?_) | exact fun h g => ⟨h, g⟩ | exact fun h g => ⟨Regs.wf_set _ _ h, g⟩ | exact fun h g => ⟨Regs.wf_set _ _ (Regs.wf_set _ _ h), g⟩ | exact fun h g => ⟨kept_setWords _ _ _ _ h, g⟩ | exact fun h _ => ⟨h, h⟩ | dsimp only | intro _)

theorem kept_State_tapTouch {s0 s : State} {g : Nat} {t : Nat} {q : Nat} (hk : Keeps s0 s) : Keeps s0 (State.tapTouch s g t q) := by
  unfold State.tapTouch
  repeat' (first | with_reducible assumption | (with_reducible first | apply kept_ite | apply kept_ite1 | apply kept_ite2 | apply kept_foldl) | split | (dsimp only; split) | (apply kept_eq1; assumption) | (apply kept_eq2; assumption) | (with_reducible refine Keeps.upd ?_ rfl rfl rfl rfl rfl rfl rfl rfl rfl rfl rfl ?_) | exact fun h g => ⟨h, g⟩ | exact fun h g => ⟨Regs.wf_set _ _ h, g⟩ | exact fun h g => ⟨Regs.wf_set _ _ (Regs.wf_set _ _ h), g⟩ | exact fun h g => ⟨kept_setWords _ _ _ _ h, g⟩ | exact fun h _ => ⟨h, h⟩ | dsimp only | intro _)

theorem kept_State_touch {s0 s : State} {g : Nat} {q : Nat} {t : Nat} (hk : Keeps s0 s) : Keeps s0 (State.touch s g q t).1 := by
  unfold State.touch
  repeat' (first | with_reducible assumption | (with_reducible first | apply kept_State_tapTouch | apply kept_ite | apply kept_ite1 | apply kept_ite2 | apply kept_foldl) | split | (dsimp only; split) | (apply kept_eq1; assumption) | (apply kept_eq2; assumption) | (with_reducible refine Keeps.upd ?_ rfl rfl rfl rfl rfl rfl rfl rfl rfl rfl rfl ?_) | exact fun h g => ⟨h, g⟩ | exact fun h g => ⟨Regs.wf_set _ _ h, g⟩ | exact fun h g => ⟨Regs.wf_set _ _ (Regs.wf_set _ _ h), g⟩ | exact fun h g => ⟨kept_setWords _ _ _ _ h, g⟩ | exact fun h _ => ⟨h, h⟩ | dsimp only | intro _)

theorem kept_State_release {s0 s : State} {g : Nat} {t : Nat} (hk : Keeps s0 s) : Keeps s0 (State.release s g t).1 := by
  unfold State.release
  repeat' (first | with_reducible assumption | (with_reducible first | apply kept_ite | apply kept_ite1 | apply kept_ite2 | apply kept_foldl) | split | (dsimp only; split) | (apply kept_eq1; assumption) | (apply kept_eq2; assumption) | (with_reducible refine Keeps.upd ?_ rfl rfl rfl rfl rfl rfl rfl rfl rfl rfl rfl ?_) | exact fun h g => ⟨h, g⟩ | exact fun h g => ⟨Regs.wf_set _ _ h, g⟩ | exact fun h g => ⟨Regs.wf_set _ _ (Regs.wf_set _ _ h), g⟩ | exact fun h g => ⟨kept_setWords _ _ _ _ h, g⟩ | exact fun h _ => ⟨h, h⟩ | dsimp only | intro _)

theorem kept_State_lidLook {s0 s : State} {r : Int} (hk : Keeps s0 s) : Keeps s0 (State.lidLook s r).1 := by
  unfold State.lidLook
  repeat' (first | with_reducible assumption | (with_reducible first | apply kept_ite | apply kept_ite1 | apply kept_ite2 | apply kept_foldl) | split | (dsimp only; split) | (apply kept_eq1; assumption) | (apply kept_eq2; assumption) | (with_reducible refine Keeps.upd ?_ rfl rfl rfl rfl rfl rfl rfl rfl rfl rfl rfl ?_) | exact fun h g => ⟨h, g⟩ | exact fun h g => ⟨Regs.wf_set _ _ h, g⟩ | exact fun h g => ⟨Regs.wf_set _ _ (Regs.wf_set _ _ h), g⟩ | exact fun h g => ⟨kept_setWords _ _ _ _ h, g⟩ | exact fun h _ => ⟨h, h⟩ | dsimp only | intro _)

theorem kept_State_relearn {s0 s : State} {g : Nat} {bit : Nat} (hk : Keeps s0 s) : Keeps s0 (State.relearn s g bit) := by
  unfold State.relearn
  repeat' (first | with_reducible assumption | (with_reducible first | apply kept_State_setGang | apply kept_State_setFlag | apply kept_ite | apply kept_ite1 | apply kept_ite2 | apply kept_foldl) | split | (dsimp only; split) | (apply kept_eq1; assumption) | (apply kept_eq2; assumption) | (with_reducible refine Keeps.upd ?_ rfl rfl rfl rfl rfl rfl rfl rfl rfl rfl rfl ?_) | exact fun h g => ⟨h, g⟩ | exact fun h g => ⟨Regs.wf_set _ _ h, g⟩ | exact fun h g => ⟨Regs.wf_set _ _ (Regs.wf_set _ _ h), g⟩ | exact fun h g => ⟨kept_setWords _ _ _ _ h, g⟩ | exact fun h _ => ⟨h, h⟩ | dsimp only | intro _)

theorem kept_State_confirm {s0 s : State} {g : Nat} {t : Nat} {qs : List Int} (hk : Keeps s0 s) : Keeps s0 (State.confirm s g t qs).1 := by
  unfold State.confirm
  repeat' (first | with_reducible assumption | (with_reducible first | apply kept_State_lidLook | apply kept_State_touch | apply kept_State_setFlag | apply kept_ite | apply kept_ite1 | apply kept_ite2 | apply kept_foldl) | split | (dsimp only; split) | (apply kept_eq1; assumption) | (apply kept_eq2; assumption) | (with_reducible refine Keeps.upd ?_ rfl rfl rfl rfl rfl rfl rfl rfl rfl rfl rfl ?_) | exact fun h g => ⟨h, g⟩ | exact fun h g => ⟨Regs.wf_set _ _ h, g⟩ | exact fun h g => ⟨Regs.wf_set _ _ (Regs.wf_set _ _ h), g⟩ | exact fun h g => ⟨kept_setWords _ _ _ _ h, g⟩ | exact fun h _ => ⟨h, h⟩ | dsimp only | intro _)

theorem kept_State_gangResult {s0 s : State} {g : Nat} {t : Nat} {r : Int} (hk : Keeps s0 s) : Keeps s0 (State.gangResult s g t r).1 := by
  unfold State.gangResult
  repeat' (first | with_reducible assumption | (with_reducible first | apply kept_State_confirm | apply kept_State_relearn | apply kept_State_lidLook | apply kept_State_release | apply kept_State_setGang | apply kept_ite | apply kept_ite1 | apply kept_ite2 | apply kept_foldl) | split | (dsimp only; split) | (apply kept_eq1; assumption) | (apply kept_eq2; assumption) | (with_reducible refine Keeps.upd ?_ rfl rfl rfl rfl rfl rfl rfl rfl rfl rfl rfl ?_) | exact fun h g => ⟨h, g⟩ | exact fun h g => ⟨Regs.wf_set _ _ h, g⟩ | exact fun h g => ⟨Regs.wf_set _ _ (Regs.wf_set _ _ h), g⟩ | exact fun h g => ⟨kept_setWords _ _ _ _ h, g⟩ | exact fun h _ => ⟨h, h⟩ | dsimp only | intro _)

theorem kept_State_gangLook {s0 s : State} {c : Cycle} {g : Nat} (hk : Keeps s0 s) : Keeps s0 (State.gangLook s c g).1 := by
  unfold State.gangLook
  repeat' (first | with_reducible assumption | (with_reducible first | apply kept_State_gangResult | apply kept_ite | apply kept_ite1 | apply kept_ite2 | apply kept_foldl) | split | (dsimp only; split) | (apply kept_eq1; assumption) | (apply kept_eq2; assumption) | (with_reducible refine Keeps.upd ?_ rfl rfl rfl rfl rfl rfl rfl rfl rfl rfl rfl ?_) | exact fun h g => ⟨h, g⟩ | exact fun h g => ⟨Regs.wf_set _ _ h, g⟩ | exact fun h g => ⟨Regs.wf_set _ _ (Regs.wf_set _ _ h), g⟩ | exact fun h g => ⟨kept_setWords _ _ _ _ h, g⟩ | exact fun h _ => ⟨h, h⟩ | dsimp only | intro _)

theorem kept_State_confirmEnd {s0 s : State} {g : Nat} {t : Nat} {qs : List Int} (hk : Keeps s0 s) : Keeps s0 (State.confirmEnd s g t qs).1 := by
  unfold State.confirmEnd
  repeat' (first | with_reducible assumption | (with_reducible first | apply kept_State_confirm | apply kept_State_relearn | apply kept_ite | apply kept_ite1 | apply kept_ite2 | apply kept_foldl) | split | (dsimp only; split) | (apply kept_eq1; assumption) | (apply kept_eq2; assumption) | (with_reducible refine Keeps.upd ?_ rfl rfl rfl rfl rfl rfl rfl rfl rfl rfl rfl ?_) | exact fun h g => ⟨h, g⟩ | exact fun h g => ⟨Regs.wf_set _ _ h, g⟩ | exact fun h g => ⟨Regs.wf_set _ _ (Regs.wf_set _ _ h), g⟩ | exact fun h g => ⟨kept_setWords _ _ _ _ h, g⟩ | exact fun h _ => ⟨h, h⟩ | dsimp only | intro _)

theorem kept_State_quarterLook {s0 s : State} {c : Cycle} {g : Nat} {q : Nat} {u : QuarterUse} (hk : Keeps s0 s) : Keeps s0 (State.quarterLook s c g q u).1 := by
  unfold State.quarterLook
  repeat' (first | with_reducible assumption | (with_reducible first | apply kept_State_confirmEnd | apply kept_State_confirm | apply kept_State_relearn | apply kept_State_setGang | apply kept_ite | apply kept_ite1 | apply kept_ite2 | apply kept_foldl) | split | (dsimp only; split) | (apply kept_eq1; assumption) | (apply kept_eq2; assumption) | (with_reducible refine Keeps.upd ?_ rfl rfl rfl rfl rfl rfl rfl rfl rfl rfl rfl ?_) | exact fun h g => ⟨h, g⟩ | exact fun h g => ⟨Regs.wf_set _ _ h, g⟩ | exact fun h g => ⟨Regs.wf_set _ _ (Regs.wf_set _ _ h), g⟩ | exact fun h g => ⟨kept_setWords _ _ _ _ h, g⟩ | exact fun h _ => ⟨h, h⟩ | dsimp only | intro _)

theorem kept_foldl1 {α β} {f : State × β → α → State × β} {l : List α} {s0 : State} {p : State × β} (hs : Keeps s0 p.1)
    (hf : ∀ p a, Keeps s0 p.1 → Keeps s0 (f p a).1) : Keeps s0 (l.foldl f p).1 := by
  induction l generalizing p with
  | nil => exact hs
  | cons a t ih => exact ih (hf _ _ hs)

theorem kept_State_skShow {s0 s : State}  (hk : Keeps s0 s) : Keeps s0 (State.skShow s) := by
  unfold State.skShow
  repeat' (first | with_reducible assumption | (with_reducible first | apply kept_State_setReg | apply kept_ite | apply kept_ite1 | apply kept_ite2 | apply kept_foldl) | split | (dsimp only; split) | (apply kept_eq1; assumption) | (apply kept_eq2; assumption) | (with_reducible refine Keeps.upd ?_ rfl rfl rfl rfl rfl rfl rfl rfl rfl rfl rfl ?_) | exact fun h g => ⟨h, g⟩ | exact fun h g => ⟨Regs.wf_set _ _ h, g⟩ | exact fun h g => ⟨Regs.wf_set _ _ (Regs.wf_set _ _ h), g⟩ | exact fun h g => ⟨kept_setWords _ _ _ _ h, g⟩ | exact fun h _ => ⟨h, h⟩ | dsimp only | intro _)

theorem kept_State_expire {s0 s : State} {t : Nat} (hk : Keeps s0 s) : Keeps s0 (State.expire s t) := by
  unfold State.expire
  repeat' (first | with_reducible assumption | (with_reducible first | apply kept_ite | apply kept_ite1 | apply kept_ite2 | apply kept_foldl) | split | (dsimp only; split) | (apply kept_eq1; assumption) | (apply kept_eq2; assumption) | (with_reducible refine Keeps.upd ?_ rfl rfl rfl rfl rfl rfl rfl rfl rfl rfl rfl ?_) | exact fun h g => ⟨h, g⟩ | exact fun h g => ⟨Regs.wf_set _ _ h, g⟩ | exact fun h g => ⟨Regs.wf_set _ _ (Regs.wf_set _ _ h), g⟩ | exact fun h g => ⟨kept_setWords _ _ _ _ h, g⟩ | exact fun h _ => ⟨h, h⟩ | dsimp only | intro _)

theorem kept_State_cycleEnd {s0 s : State} {start : Nat} {t : Nat} (hk : Keeps s0 s) : Keeps s0 (State.cycleEnd s start t) := by
  unfold State.cycleEnd
  repeat' (first | with_reducible assumption | (with_reducible first | apply kept_State_expire | apply kept_ite | apply kept_ite1 | apply kept_ite2 | apply kept_foldl) | split | (dsimp only; split) | (apply kept_eq1; assumption) | (apply kept_eq2; assumption) | (with_reducible refine Keeps.upd ?_ rfl rfl rfl rfl rfl rfl rfl rfl rfl rfl rfl ?_) | exact fun h g => ⟨h, g⟩ | exact fun h g => ⟨Regs.wf_set _ _ h, g⟩ | exact fun h g => ⟨Regs.wf_set _ _ (Regs.wf_set _ _ h), g⟩ | exact fun h g => ⟨kept_setWords _ _ _ _ h, g⟩ | exact fun h _ => ⟨h, h⟩ | dsimp only | intro _)

theorem kept_State_passEnd {s0 s : State} {start : Nat} {t : Nat} (hk : Keeps s0 s) : Keeps s0 (State.passEnd s start t) := by
  unfold State.passEnd
  repeat' (first | with_reducible assumption | (with_reducible first | apply kept_State_skShow | apply kept_State_setGang | apply kept_ite | apply kept_ite1 | apply kept_ite2 | apply kept_foldl) | split | (dsimp only; split) | (apply kept_eq1; assumption) | (apply kept_eq2; assumption) | (with_reducible refine Keeps.upd ?_ rfl rfl rfl rfl rfl rfl rfl rfl rfl rfl rfl ?_) | exact fun h g => ⟨h, g⟩ | exact fun h g => ⟨Regs.wf_set _ _ h, g⟩ | exact fun h g => ⟨Regs.wf_set _ _ (Regs.wf_set _ _ h), g⟩ | exact fun h g => ⟨kept_setWords _ _ _ _ h, g⟩ | exact fun h _ => ⟨h, h⟩ | dsimp only | intro _)

theorem kept_State_skNext {s0 s : State} {c : Cycle} {t : Nat} {l : List SkLook} (hk : Keeps s0 s) : Keeps s0 (State.skNext s c t l) := by
  induction l generalizing s with
  | nil =>
    unfold State.skNext
    repeat' (first | with_reducible assumption | (with_reducible first | apply kept_State_passEnd | apply kept_State_cycleEnd | apply kept_ite | apply kept_ite1 | apply kept_ite2 | apply kept_foldl) | split | (dsimp only; split) | (apply kept_eq1; assumption) | (apply kept_eq2; assumption) | (with_reducible refine Keeps.upd ?_ rfl rfl rfl rfl rfl rfl rfl rfl rfl rfl rfl ?_) | exact fun h g => ⟨h, g⟩ | exact fun h g => ⟨Regs.wf_set _ _ h, g⟩ | exact fun h g => ⟨Regs.wf_set _ _ (Regs.wf_set _ _ h), g⟩ | exact fun h g => ⟨kept_setWords _ _ _ _ h, g⟩ | exact fun h _ => ⟨h, h⟩ | dsimp only | intro _)
  | cons x xs ih =>
    unfold State.skNext
    repeat' (first | with_reducible assumption | (with_reducible first | apply ih | apply kept_State_passEnd | apply kept_State_cycleEnd | apply kept_ite | apply kept_ite1 | apply kept_ite2 | apply kept_foldl) | split | (dsimp only; split) | (apply kept_eq1; assumption) | (apply kept_eq2; assumption) | (with_reducible refine Keeps.upd ?_ rfl rfl rfl rfl rfl rfl rfl rfl rfl rfl rfl ?_) | exact fun h g => ⟨h, g⟩ | exact fun h g => ⟨Regs.wf_set _ _ h, g⟩ | exact fun h g => ⟨Regs.wf_set _ _ (Regs.wf_set _ _ h), g⟩ | exact fun h g => ⟨kept_setWords _ _ _ _ h, g⟩ | exact fun h _ => ⟨h, h⟩ | dsimp only | intro _)

theorem kept_State_skCycle {s0 s : State} {ls : List GangLook} (hk : Keeps s0 s) : Keeps s0 (State.skCycle s ls) := by
  unfold State.skCycle
  repeat' (first | with_reducible assumption | (with_reducible first | apply kept_State_skNext | apply kept_State_setReg | apply kept_ite | apply kept_ite1 | apply kept_ite2 | apply kept_foldl) | split | (dsimp only; split) | (apply kept_eq1; assumption) | (apply kept_eq2; assumption) | (with_reducible refine Keeps.upd ?_ rfl rfl rfl rfl rfl rfl rfl rfl rfl rfl rfl ?_) | exact fun h g => ⟨h, g⟩ | exact fun h g => ⟨Regs.wf_set _ _ h, g⟩ | exact fun h g => ⟨Regs.wf_set _ _ (Regs.wf_set _ _ h), g⟩ | exact fun h g => ⟨kept_setWords _ _ _ _ h, g⟩ | exact fun h _ => ⟨h, h⟩ | dsimp only | intro _)

theorem kept_State_wakeUp {s0 s : State} {mask : Nat} (hk : Keeps s0 s) : Keeps s0 (State.wakeUp s mask) := by
  unfold State.wakeUp
  repeat' (first | with_reducible assumption | (with_reducible first | apply kept_State_setFlag | apply kept_State_setReg | apply kept_ite | apply kept_ite1 | apply kept_ite2 | apply kept_foldl) | split | (dsimp only; split) | (apply kept_eq1; assumption) | (apply kept_eq2; assumption) | (with_reducible refine Keeps.upd ?_ rfl rfl rfl rfl rfl rfl rfl rfl rfl rfl rfl ?_) | exact fun h g => ⟨h, g⟩ | exact fun h g => ⟨Regs.wf_set _ _ h, g⟩ | exact fun h g => ⟨Regs.wf_set _ _ (Regs.wf_set _ _ h), g⟩ | exact fun h g => ⟨kept_setWords _ _ _ _ h, g⟩ | exact fun h _ => ⟨h, h⟩ | dsimp only | intro _)

theorem kept_State_itemLook {s0 s : State} {c : Cycle} {i : SkLook} (hk : Keeps s0 s) : Keeps s0 (State.itemLook s c i).1 := by
  cases i with
  | gang g => exact kept_State_gangLook hk
  | quarter g q u => exact kept_State_quarterLook hk

theorem kept_State_itemWake {s0 s : State} {w : Nat} (hk : Keeps s0 s) : Keeps s0 (State.itemWake s w) := by
  unfold State.itemWake
  repeat' (first | with_reducible assumption | (with_reducible first | apply kept_State_wakeUp | apply kept_ite | apply kept_ite1 | apply kept_ite2 | apply kept_foldl) | split | (dsimp only; split) | (apply kept_eq1; assumption) | (apply kept_eq2; assumption) | (with_reducible refine Keeps.upd ?_ rfl rfl rfl rfl rfl rfl rfl rfl rfl rfl rfl ?_) | exact fun h g => ⟨h, g⟩ | exact fun h g => ⟨Regs.wf_set _ _ h, g⟩ | exact fun h g => ⟨Regs.wf_set _ _ (Regs.wf_set _ _ h), g⟩ | exact fun h g => ⟨kept_setWords _ _ _ _ h, g⟩ | exact fun h _ => ⟨h, h⟩ | dsimp only | intro _)

theorem kept_State_itemDone {s0 s : State}  (hk : Keeps s0 s) : Keeps s0 (State.itemDone s) := by
  unfold State.itemDone
  repeat' (first | with_reducible assumption | (with_reducible first | apply kept_State_itemWake | apply kept_State_itemLook | apply kept_State_skNext | apply kept_State_skShow | apply kept_ite | apply kept_ite1 | apply kept_ite2 | apply kept_foldl) | split | (dsimp only; split) | (apply kept_eq1; assumption) | (apply kept_eq2; assumption) | (with_reducible refine Keeps.upd ?_ rfl rfl rfl rfl rfl rfl rfl rfl rfl rfl rfl ?_) | exact fun h g => ⟨h, g⟩ | exact fun h g => ⟨Regs.wf_set _ _ h, g⟩ | exact fun h g => ⟨Regs.wf_set _ _ (Regs.wf_set _ _ h), g⟩ | exact fun h g => ⟨kept_setWords _ _ _ _ h, g⟩ | exact fun h _ => ⟨h, h⟩ | dsimp only | intro _)

theorem kept_State_hostWake {s0 s : State}  (hk : Keeps s0 s) : Keeps s0 (State.hostWake s) := by
  unfold State.hostWake
  repeat' (first | with_reducible assumption | (with_reducible first | apply kept_State_wakeUp | apply kept_ite | apply kept_ite1 | apply kept_ite2 | apply kept_foldl) | split | (dsimp only; split) | (apply kept_eq1; assumption) | (apply kept_eq2; assumption) | (with_reducible refine Keeps.upd ?_ rfl rfl rfl rfl rfl rfl rfl rfl rfl rfl rfl ?_) | exact fun h g => ⟨h, g⟩ | exact fun h g => ⟨Regs.wf_set _ _ h, g⟩ | exact fun h g => ⟨Regs.wf_set _ _ (Regs.wf_set _ _ h), g⟩ | exact fun h g => ⟨kept_setWords _ _ _ _ h, g⟩ | exact fun h _ => ⟨h, h⟩ | dsimp only | intro _)

theorem kept_State_dormantSet {s0 s : State}  (hk : Keeps s0 s) : Keeps s0 (State.dormantSet s) := by
  unfold State.dormantSet
  repeat' (first | with_reducible assumption | (with_reducible first | apply kept_State_wakeUp | apply kept_State_skEnter | apply kept_State_setMode | apply kept_State_unschedule | apply kept_State_cmdDone | apply kept_ite | apply kept_ite1 | apply kept_ite2 | apply kept_foldl) | split | (dsimp only; split) | (apply kept_eq1; assumption) | (apply kept_eq2; assumption) | (with_reducible refine Keeps.upd ?_ rfl rfl rfl rfl rfl rfl rfl rfl rfl rfl rfl ?_) | exact fun h g => ⟨h, g⟩ | exact fun h g => ⟨Regs.wf_set _ _ h, g⟩ | exact fun h g => ⟨Regs.wf_set _ _ (Regs.wf_set _ _ h), g⟩ | exact fun h g => ⟨kept_setWords _ _ _ _ h, g⟩ | exact fun h _ => ⟨h, h⟩ | dsimp only | intro _)

theorem kept_State_exitBegin {s0 s : State}  (hk : Keeps s0 s) : Keeps s0 (State.exitBegin s) := by
  unfold State.exitBegin
  repeat' (first | with_reducible assumption | (with_reducible first | apply kept_State_startRelock | apply kept_State_pinsStart | apply kept_State_clocheExit | apply kept_State_changeDeclaration | apply kept_State_advance | apply kept_State_writeAnchor | apply kept_ite | apply kept_ite1 | apply kept_ite2 | apply kept_foldl) | split | (dsimp only; split) | (apply kept_eq1; assumption) | (apply kept_eq2; assumption) | (with_reducible refine Keeps.upd ?_ rfl rfl rfl rfl rfl rfl rfl rfl rfl rfl rfl ?_) | exact fun h g => ⟨h, g⟩ | exact fun h g => ⟨Regs.wf_set _ _ h, g⟩ | exact fun h g => ⟨Regs.wf_set _ _ (Regs.wf_set _ _ h), g⟩ | exact fun h g => ⟨kept_setWords _ _ _ _ h, g⟩ | exact fun h _ => ⟨h, h⟩ | dsimp only | intro _)

theorem kept_State_exitStart {s0 s : State}  (hk : Keeps s0 s) : Keeps s0 (State.exitStart s) := by
  unfold State.exitStart
  repeat' (first | with_reducible assumption | (with_reducible first | apply kept_State_exitBegin | apply kept_ite | apply kept_ite1 | apply kept_ite2 | apply kept_foldl) | split | (dsimp only; split) | (apply kept_eq1; assumption) | (apply kept_eq2; assumption) | (with_reducible refine Keeps.upd ?_ rfl rfl rfl rfl rfl rfl rfl rfl rfl rfl rfl ?_) | exact fun h g => ⟨h, g⟩ | exact fun h g => ⟨Regs.wf_set _ _ h, g⟩ | exact fun h g => ⟨Regs.wf_set _ _ (Regs.wf_set _ _ h), g⟩ | exact fun h g => ⟨kept_setWords _ _ _ _ h, g⟩ | exact fun h _ => ⟨h, h⟩ | dsimp only | intro _)

theorem kept_State_relockEnd {s0 s : State} {code : Word} (hk : Keeps s0 s) : Keeps s0 (State.relockEnd s code) := by
  unfold State.relockEnd
  repeat' (first | with_reducible assumption | (with_reducible first | apply kept_State_stepCheck | apply kept_State_refStart | apply kept_State_emitCut | apply kept_State_injStart | apply kept_State_periodStart | apply kept_State_queueLife | apply kept_State_setReg | apply kept_ite | apply kept_ite1 | apply kept_ite2 | apply kept_foldl) | split | (dsimp only; split) | (apply kept_eq1; assumption) | (apply kept_eq2; assumption) | (with_reducible refine Keeps.upd ?_ rfl rfl rfl rfl rfl rfl rfl rfl rfl rfl rfl ?_) | exact fun h g => ⟨h, g⟩ | exact fun h g => ⟨Regs.wf_set _ _ h, g⟩ | exact fun h g => ⟨Regs.wf_set _ _ (Regs.wf_set _ _ h), g⟩ | exact fun h g => ⟨kept_setWords _ _ _ _ h, g⟩ | exact fun h _ => ⟨h, h⟩ | dsimp only | intro _)

theorem kept_State_delayLock {s0 s : State} {code : Word} (hk : Keeps s0 s) : Keeps s0 (State.delayLock s code) := by
  unfold State.delayLock
  repeat' (first | with_reducible assumption | (with_reducible first | apply kept_State_relockEnd | apply kept_ite | apply kept_ite1 | apply kept_ite2 | apply kept_foldl) | split | (dsimp only; split) | (apply kept_eq1; assumption) | (apply kept_eq2; assumption) | (with_reducible refine Keeps.upd ?_ rfl rfl rfl rfl rfl rfl rfl rfl rfl rfl rfl ?_) | exact fun h g => ⟨h, g⟩ | exact fun h g => ⟨Regs.wf_set _ _ h, g⟩ | exact fun h g => ⟨Regs.wf_set _ _ (Regs.wf_set _ _ h), g⟩ | exact fun h g => ⟨kept_setWords _ _ _ _ h, g⟩ | exact fun h _ => ⟨h, h⟩ | dsimp only | intro _)

theorem kept_State_baseEntry {s0 s : State} {c : FrameCtx} (hk : Keeps s0 s) : Keeps s0 (State.baseEntry s c) := by
  unfold State.baseEntry
  repeat' (first | with_reducible assumption | (with_reducible first | apply kept_State_waterEnter | apply kept_State_clocheFrame | apply kept_State_baseForm | apply kept_State_baseAccumulate | apply kept_State_countFrame | apply kept_ite | apply kept_ite1 | apply kept_ite2 | apply kept_foldl) | split | (dsimp only; split) | (apply kept_eq1; assumption) | (apply kept_eq2; assumption) | (with_reducible refine Keeps.upd ?_ rfl rfl rfl rfl rfl rfl rfl rfl rfl rfl rfl ?_) | exact fun h g => ⟨h, g⟩ | exact fun h g => ⟨Regs.wf_set _ _ h, g⟩ | exact fun h g => ⟨Regs.wf_set _ _ (Regs.wf_set _ _ h), g⟩ | exact fun h g => ⟨kept_setWords _ _ _ _ h, g⟩ | exact fun h _ => ⟨h, h⟩ | dsimp only | intro _)

theorem kept_State_normalEntry {s0 s : State} {c : FrameCtx} (hk : Keeps s0 s) : Keeps s0 (State.normalEntry s c) := by
  unfold State.normalEntry
  repeat' (first | with_reducible assumption | (with_reducible first | apply kept_State_calFrame | apply kept_State_waterEnter | apply kept_State_clocheFrame | apply kept_State_trellisFrame | apply kept_State_resamplerEnter | apply kept_State_countFrame | apply kept_ite | apply kept_ite1 | apply kept_ite2 | apply kept_foldl) | split | (dsimp only; split) | (apply kept_eq1; assumption) | (apply kept_eq2; assumption) | (with_reducible refine Keeps.upd ?_ rfl rfl rfl rfl rfl rfl rfl rfl rfl rfl rfl ?_) | exact fun h g => ⟨h, g⟩ | exact fun h g => ⟨Regs.wf_set _ _ h, g⟩ | exact fun h g => ⟨Regs.wf_set _ _ (Regs.wf_set _ _ h), g⟩ | exact fun h g => ⟨kept_setWords _ _ _ _ h, g⟩ | exact fun h _ => ⟨h, h⟩ | dsimp only | intro _)

theorem kept_State_frameEntry {s0 s : State} {c : FrameCtx} (hk : Keeps s0 s) : Keeps s0 (State.frameEntry s c) := by
  unfold State.frameEntry
  repeat' (first | with_reducible assumption | (with_reducible first | apply kept_State_normalEntry | apply kept_State_baseEntry | apply kept_State_impulsePassed | apply kept_State_impulseDiscard | apply kept_State_peekLoad | apply kept_State_countFrame | apply kept_ite | apply kept_ite1 | apply kept_ite2 | apply kept_foldl) | split | (dsimp only; split) | (apply kept_eq1; assumption) | (apply kept_eq2; assumption) | (with_reducible refine Keeps.upd ?_ rfl rfl rfl rfl rfl rfl rfl rfl rfl rfl rfl ?_) | exact fun h g => ⟨h, g⟩ | exact fun h g => ⟨Regs.wf_set _ _ h, g⟩ | exact fun h g => ⟨Regs.wf_set _ _ (Regs.wf_set _ _ h), g⟩ | exact fun h g => ⟨kept_setWords _ _ _ _ h, g⟩ | exact fun h _ => ⟨h, h⟩ | dsimp only | intro _)

theorem kept_State_recordsIn {s0 s : State} {r : SlotRecs} (hk : Keeps s0 s) : Keeps s0 (State.recordsIn s r) := by
  unfold State.recordsIn
  repeat' (first | with_reducible assumption | (with_reducible first | apply kept_State_frameEntry | apply kept_State_healthSlot | apply kept_State_clocheInjected | apply kept_ite | apply kept_ite1 | apply kept_ite2 | apply kept_foldl) | split | (dsimp only; split) | (apply kept_eq1; assumption) | (apply kept_eq2; assumption) | (with_reducible refine Keeps.upd ?_ rfl rfl rfl rfl rfl rfl rfl rfl rfl rfl rfl ?_) | exact fun h g => ⟨h, g⟩ | exact fun h g => ⟨Regs.wf_set _ _ h, g⟩ | exact fun h g => ⟨Regs.wf_set _ _ (Regs.wf_set _ _ h), g⟩ | exact fun h g => ⟨kept_setWords _ _ _ _ h, g⟩ | exact fun h _ => ⟨h, h⟩ | dsimp only | intro _)

theorem kept_State_recordsDue {s0 s : State}  (hk : Keeps s0 s) : Keeps s0 (State.recordsDue s) := by
  unfold State.recordsDue
  repeat' (first | with_reducible assumption | (with_reducible first | apply kept_State_recordsIn | apply kept_ite | apply kept_ite1 | apply kept_ite2 | apply kept_foldl) | split | (dsimp only; split) | (apply kept_eq1; assumption) | (apply kept_eq2; assumption) | (with_reducible refine Keeps.upd ?_ rfl rfl rfl rfl rfl rfl rfl rfl rfl rfl rfl ?_) | exact fun h g => ⟨h, g⟩ | exact fun h g => ⟨Regs.wf_set _ _ h, g⟩ | exact fun h g => ⟨Regs.wf_set _ _ (Regs.wf_set _ _ h), g⟩ | exact fun h g => ⟨kept_setWords _ _ _ _ h, g⟩ | exact fun h _ => ⟨h, h⟩ | dsimp only | intro _)

theorem kept_State_scanStop {s0 s : State}  (hk : Keeps s0 s) : Keeps s0 (State.scanStop s) := by
  unfold State.scanStop
  repeat' (first | with_reducible assumption | (with_reducible first | apply kept_State_periodStart | apply kept_ite | apply kept_ite1 | apply kept_ite2 | apply kept_foldl) | split | (dsimp only; split) | (apply kept_eq1; assumption) | (apply kept_eq2; assumption) | (with_reducible refine Keeps.upd ?_ rfl rfl rfl rfl rfl rfl rfl rfl rfl rfl rfl ?_) | exact fun h g => ⟨h, g⟩ | exact fun h g => ⟨Regs.wf_set _ _ h, g⟩ | exact fun h g => ⟨Regs.wf_set _ _ (Regs.wf_set _ _ h), g⟩ | exact fun h g => ⟨kept_setWords _ _ _ _ h, g⟩ | exact fun h _ => ⟨h, h⟩ | dsimp only | intro _)

theorem kept_State_enterDormant {s0 s : State}  (hk : Keeps s0 s) : Keeps s0 (State.enterDormant s) := by
  unfold State.enterDormant
  repeat' (first | with_reducible assumption | (with_reducible first | apply kept_State_scanStop | apply kept_State_recordsIn | apply kept_State_clocheDormant | apply kept_State_forceAll | apply kept_State_outputCount | apply kept_State_unschedule | apply kept_State_after | apply kept_State_setReg | apply kept_ite | apply kept_ite1 | apply kept_ite2 | apply kept_foldl) | split | (dsimp only; split) | (apply kept_eq1; assumption) | (apply kept_eq2; assumption) | (with_reducible refine Keeps.upd ?_ rfl rfl rfl rfl rfl rfl rfl rfl rfl rfl rfl ?_) | exact fun h g => ⟨h, g⟩ | exact fun h g => ⟨Regs.wf_set _ _ h, g⟩ | exact fun h g => ⟨Regs.wf_set _ _ (Regs.wf_set _ _ h), g⟩ | exact fun h g => ⟨kept_setWords _ _ _ _ h, g⟩ | exact fun h _ => ⟨h, h⟩ | dsimp only | intro _)

theorem kept_State_goDormantOp {s0 s : State}  (hk : Keeps s0 s) : Keeps s0 (State.goDormantOp s) := by
  unfold State.goDormantOp
  repeat' (first | with_reducible assumption | (with_reducible first | apply kept_State_enterDormant | apply kept_State_scanStop | apply kept_ite | apply kept_ite1 | apply kept_ite2 | apply kept_foldl) | split | (dsimp only; split) | (apply kept_eq1; assumption) | (apply kept_eq2; assumption) | (with_reducible refine Keeps.upd ?_ rfl rfl rfl rfl rfl rfl rfl rfl rfl rfl rfl ?_) | exact fun h g => ⟨h, g⟩ | exact fun h g => ⟨Regs.wf_set _ _ h, g⟩ | exact fun h g => ⟨Regs.wf_set _ _ (Regs.wf_set _ _ h), g⟩ | exact fun h g => ⟨kept_setWords _ _ _ _ h, g⟩ | exact fun h _ => ⟨h, h⟩ | dsimp only | intro _)

theorem kept_State_activityEnd {s0 s : State}  (hk : Keeps s0 s) : Keeps s0 (State.activityEnd s) := by
  unfold State.activityEnd
  repeat' (first | with_reducible assumption | (with_reducible first | apply kept_State_bootEnd | apply kept_State_idleRestart | apply kept_State_setMode | apply kept_State_proceedHeld | apply kept_State_forceAll | apply kept_State_after | apply kept_ite | apply kept_ite1 | apply kept_ite2 | apply kept_foldl) | split | (dsimp only; split) | (apply kept_eq1; assumption) | (apply kept_eq2; assumption) | (with_reducible refine Keeps.upd ?_ rfl rfl rfl rfl rfl rfl rfl rfl rfl rfl rfl ?_) | exact fun h g => ⟨h, g⟩ | exact fun h g => ⟨Regs.wf_set _ _ h, g⟩ | exact fun h g => ⟨Regs.wf_set _ _ (Regs.wf_set _ _ h), g⟩ | exact fun h g => ⟨kept_setWords _ _ _ _ h, g⟩ | exact fun h _ => ⟨h, h⟩ | dsimp only | intro _)

theorem kept_State_dropRepeat {s0 s : State}  (hk : Keeps s0 s) : Keeps s0 (State.dropRepeat s) := by
  unfold State.dropRepeat
  repeat' (first | with_reducible assumption | (with_reducible first | apply kept_ite | apply kept_ite1 | apply kept_ite2 | apply kept_foldl) | split | (dsimp only; split) | (apply kept_eq1; assumption) | (apply kept_eq2; assumption) | (with_reducible refine Keeps.upd ?_ rfl rfl rfl rfl rfl rfl rfl rfl rfl rfl rfl ?_) | exact fun h g => ⟨h, g⟩ | exact fun h g => ⟨Regs.wf_set _ _ h, g⟩ | exact fun h g => ⟨Regs.wf_set _ _ (Regs.wf_set _ _ h), g⟩ | exact fun h g => ⟨kept_setWords _ _ _ _ h, g⟩ | exact fun h _ => ⟨h, h⟩ | dsimp only | intro _)

theorem kept_State_refGone {s0 s : State}  (hk : Keeps s0 s) : Keeps s0 (State.refGone s) := by
  unfold State.refGone
  repeat' (first | with_reducible assumption | (with_reducible first | apply kept_State_setFlag | apply kept_ite | apply kept_ite1 | apply kept_ite2 | apply kept_foldl) | split | (dsimp only; split) | (apply kept_eq1; assumption) | (apply kept_eq2; assumption) | (with_reducible refine Keeps.upd ?_ rfl rfl rfl rfl rfl rfl rfl rfl rfl rfl rfl ?_) | exact fun h g => ⟨h, g⟩ | exact fun h g => ⟨Regs.wf_set _ _ h, g⟩ | exact fun h g => ⟨Regs.wf_set _ _ (Regs.wf_set _ _ h), g⟩ | exact fun h g => ⟨kept_setWords _ _ _ _ h, g⟩ | exact fun h _ => ⟨h, h⟩ | dsimp only | intro _)

theorem kept_State_modeBoundary {s0 s : State}  (hk : Keeps s0 s) : Keeps s0 (State.modeBoundary s).1 := by
  unfold State.modeBoundary
  repeat' (first | with_reducible assumption | (with_reducible first | apply kept_State_refGone | apply kept_State_dropRepeat | apply kept_State_goDormantOp | apply kept_State_idleRestart | apply kept_State_setMode | apply kept_State_forceAll | apply kept_State_writeAnchor | apply kept_State_cmdDone | apply kept_State_setFlag | apply kept_ite | apply kept_ite1 | apply kept_ite2 | apply kept_foldl) | split | (dsimp only; split) | (apply kept_eq1; assumption) | (apply kept_eq2; assumption) | (with_reducible refine Keeps.upd ?_ rfl rfl rfl rfl rfl rfl rfl rfl rfl rfl rfl ?_) | exact fun h g => ⟨h, g⟩ | exact fun h g => ⟨Regs.wf_set _ _ h, g⟩ | exact fun h g => ⟨Regs.wf_set _ _ (Regs.wf_set _ _ h), g⟩ | exact fun h g => ⟨kept_setWords _ _ _ _ h, g⟩ | exact fun h _ => ⟨h, h⟩ | dsimp only | intro _)

theorem kept_State_monitorsIn {s0 s : State} {m : Monitors} (hk : Keeps s0 s) : Keeps s0 (State.monitorsIn s m) := by
  unfold State.monitorsIn
  repeat' (first | with_reducible assumption | (with_reducible first | apply kept_State_monitorDiag | apply kept_State_setReg | apply kept_ite | apply kept_ite1 | apply kept_ite2 | apply kept_foldl) | split | (dsimp only; split) | (apply kept_eq1; assumption) | (apply kept_eq2; assumption) | (with_reducible refine Keeps.upd ?_ rfl rfl rfl rfl rfl rfl rfl rfl rfl rfl rfl ?_) | exact fun h g => ⟨h, g⟩ | exact fun h g => ⟨Regs.wf_set _ _ h, g⟩ | exact fun h g => ⟨Regs.wf_set _ _ (Regs.wf_set _ _ h), g⟩ | exact fun h g => ⟨kept_setWords _ _ _ _ h, g⟩ | exact fun h _ => ⟨h, h⟩ | dsimp only | intro _)

theorem kept_State_refBoundary {s0 s : State} {src : Nat} (hk : Keeps s0 s) : Keeps s0 (State.refBoundary s src) := by
  unfold State.refBoundary
  repeat' (first | with_reducible assumption | (with_reducible first | apply kept_State_refGone | apply kept_State_scanStop | apply kept_State_refStart | apply kept_ite | apply kept_ite1 | apply kept_ite2 | apply kept_foldl) | split | (dsimp only; split) | (apply kept_eq1; assumption) | (apply kept_eq2; assumption) | (with_reducible refine Keeps.upd ?_ rfl rfl rfl rfl rfl rfl rfl rfl rfl rfl rfl ?_) | exact fun h g => ⟨h, g⟩ | exact fun h g => ⟨Regs.wf_set _ _ h, g⟩ | exact fun h g => ⟨Regs.wf_set _ _ (Regs.wf_set _ _ h), g⟩ | exact fun h g => ⟨kept_setWords _ _ _ _ h, g⟩ | exact fun h _ => ⟨h, h⟩ | dsimp only | intro _)

theorem kept_State_calBoundary {s0 s : State} {c : Nat} (hk : Keeps s0 s) : Keeps s0 (State.calBoundary s c) := by
  unfold State.calBoundary
  repeat' (first | with_reducible assumption | (with_reducible first | apply kept_State_startSlot | apply kept_State_calBegin | apply kept_State_forceAll | apply kept_ite | apply kept_ite1 | apply kept_ite2 | apply kept_foldl) | split | (dsimp only; split) | (apply kept_eq1; assumption) | (apply kept_eq2; assumption) | (with_reducible refine Keeps.upd ?_ rfl rfl rfl rfl rfl rfl rfl rfl rfl rfl rfl ?_) | exact fun h g => ⟨h, g⟩ | exact fun h g => ⟨Regs.wf_set _ _ h, g⟩ | exact fun h g => ⟨Regs.wf_set _ _ (Regs.wf_set _ _ h), g⟩ | exact fun h g => ⟨kept_setWords _ _ _ _ h, g⟩ | exact fun h _ => ⟨h, h⟩ | dsimp only | intro _)

theorem kept_State_addReacq {s0 s : State} {k : ReacqKind} {frame : Nat} (hk : Keeps s0 s) : Keeps s0 (State.addReacq s k frame) := by
  unfold State.addReacq
  repeat' (first | with_reducible assumption | (with_reducible first | apply kept_ite | apply kept_ite1 | apply kept_ite2 | apply kept_foldl) | split | (dsimp only; split) | (apply kept_eq1; assumption) | (apply kept_eq2; assumption) | (with_reducible refine Keeps.upd ?_ rfl rfl rfl rfl rfl rfl rfl rfl rfl rfl rfl ?_) | exact fun h g => ⟨h, g⟩ | exact fun h g => ⟨Regs.wf_set _ _ h, g⟩ | exact fun h g => ⟨Regs.wf_set _ _ (Regs.wf_set _ _ h), g⟩ | exact fun h g => ⟨kept_setWords _ _ _ _ h, g⟩ | exact fun h _ => ⟨h, h⟩ | dsimp only | intro _)

theorem kept_State_planReacq {s0 s : State} {old : Plan} {seq : Word} {frame : Nat} (hk : Keeps s0 s) : Keeps s0 (State.planReacq s old seq frame) := by
  unfold State.planReacq
  repeat' (first | with_reducible assumption | (with_reducible first | apply kept_State_addReacq | apply kept_State_calDiscard | apply kept_ite | apply kept_ite1 | apply kept_ite2 | apply kept_foldl) | split | (dsimp only; split) | (apply kept_eq1; assumption) | (apply kept_eq2; assumption) | (with_reducible refine Keeps.upd ?_ rfl rfl rfl rfl rfl rfl rfl rfl rfl rfl rfl ?_) | exact fun h g => ⟨h, g⟩ | exact fun h g => ⟨Regs.wf_set _ _ h, g⟩ | exact fun h g => ⟨Regs.wf_set _ _ (Regs.wf_set _ _ h), g⟩ | exact fun h g => ⟨kept_setWords _ _ _ _ h, g⟩ | exact fun h _ => ⟨h, h⟩ | dsimp only | intro _)

theorem kept_State_filterBoundary {s0 s : State} {frame : Nat} (hk : Keeps s0 s) : Keeps s0 (State.filterBoundary s frame).1 := by
  unfold State.filterBoundary
  repeat' (first | with_reducible assumption | (with_reducible first | apply kept_State_addReacq | apply kept_State_calDiscard | apply kept_State_formStart | apply kept_State_setReg | apply kept_ite | apply kept_ite1 | apply kept_ite2 | apply kept_foldl) | split | (dsimp only; split) | (apply kept_eq1; assumption) | (apply kept_eq2; assumption) | (with_reducible refine Keeps.upd ?_ rfl rfl rfl rfl rfl rfl rfl rfl rfl rfl rfl ?_) | exact fun h g => ⟨h, g⟩ | exact fun h g => ⟨Regs.wf_set _ _ h, g⟩ | exact fun h g => ⟨Regs.wf_set _ _ (Regs.wf_set _ _ h), g⟩ | exact fun h g => ⟨kept_setWords _ _ _ _ h, g⟩ | exact fun h _ => ⟨h, h⟩ | dsimp only | intro _)

theorem kept_State_panelBoundary {s0 s : State} {frame : Nat} (hk : Keeps s0 s) : Keeps s0 (State.panelBoundary s frame) := by
  unfold State.panelBoundary
  repeat' (first | with_reducible assumption | (with_reducible first | apply kept_State_addReacq | apply kept_State_forceAll | apply kept_State_setFlagIf | apply kept_ite | apply kept_ite1 | apply kept_ite2 | apply kept_foldl) | split | (dsimp only; split) | (apply kept_eq1; assumption) | (apply kept_eq2; assumption) | (with_reducible refine Keeps.upd ?_ rfl rfl rfl rfl rfl rfl rfl rfl rfl rfl rfl ?_) | exact fun h g => ⟨h, g⟩ | exact fun h g => ⟨Regs.wf_set _ _ h, g⟩ | exact fun h g => ⟨Regs.wf_set _ _ (Regs.wf_set _ _ h), g⟩ | exact fun h g => ⟨kept_setWords _ _ _ _ h, g⟩ | exact fun h _ => ⟨h, h⟩ | dsimp only | intro _)

theorem kept_State_settingsBoundary {s0 s : State} {frame : Nat} (hk : Keeps s0 s) : Keeps s0 (State.settingsBoundary s frame).1 := by
  unfold State.settingsBoundary
  repeat' (first | with_reducible assumption | (with_reducible first | apply kept_State_panelBoundary | apply kept_State_filterBoundary | apply kept_State_addReacq | apply kept_State_calDiscard | apply kept_State_formStart | apply kept_State_forceAll | apply kept_ite | apply kept_ite1 | apply kept_ite2 | apply kept_foldl) | split | (dsimp only; split) | (apply kept_eq1; assumption) | (apply kept_eq2; assumption) | (with_reducible refine Keeps.upd ?_ rfl rfl rfl rfl rfl rfl rfl rfl rfl rfl rfl ?_) | exact fun h g => ⟨h, g⟩ | exact fun h g => ⟨Regs.wf_set _ _ h, g⟩ | exact fun h g => ⟨Regs.wf_set _ _ (Regs.wf_set _ _ h), g⟩ | exact fun h g => ⟨kept_setWords _ _ _ _ h, g⟩ | exact fun h _ => ⟨h, h⟩ | dsimp only | intro _)

theorem kept_State_frameStart {s0 s : State}  (hk : Keeps s0 s) : Keeps s0 (State.frameStart s) := by
  unfold State.frameStart
  repeat' (first | with_reducible assumption | (with_reducible first | apply kept_State_startSlot | apply kept_ite | apply kept_ite1 | apply kept_ite2 | apply kept_foldl) | split | (dsimp only; split) | (apply kept_eq1; assumption) | (apply kept_eq2; assumption) | (with_reducible refine Keeps.upd ?_ rfl rfl rfl rfl rfl rfl rfl rfl rfl rfl rfl ?_) | exact fun h g => ⟨h, g⟩ | exact fun h g => ⟨Regs.wf_set _ _ h, g⟩ | exact fun h g => ⟨Regs.wf_set _ _ (Regs.wf_set _ _ h), g⟩ | exact fun h g => ⟨kept_setWords _ _ _ _ h, g⟩ | exact fun h _ => ⟨h, h⟩ | dsimp only | intro _)

theorem kept_State_frameEnd {s0 s : State}  (hk : Keeps s0 s) : Keeps s0 (State.frameEnd s) := by
  unfold State.frameEnd
  repeat' (first | with_reducible assumption | (with_reducible first | apply kept_ite | apply kept_ite1 | apply kept_ite2 | apply kept_foldl) | split | (dsimp only; split) | (apply kept_eq1; assumption) | (apply kept_eq2; assumption) | (with_reducible refine Keeps.upd ?_ rfl rfl rfl rfl rfl rfl rfl rfl rfl rfl rfl ?_) | exact fun h g => ⟨h, g⟩ | exact fun h g => ⟨Regs.wf_set _ _ h, g⟩ | exact fun h g => ⟨Regs.wf_set _ _ (Regs.wf_set _ _ h), g⟩ | exact fun h g => ⟨kept_setWords _ _ _ _ h, g⟩ | exact fun h _ => ⟨h, h⟩ | dsimp only | intro _)

theorem kept_State_injHeldNow {s0 s : State} {rep : Bool} (hk : Keeps s0 s) : Keeps s0 (State.injHeldNow s rep) := by
  unfold State.injHeldNow
  repeat' (first | with_reducible assumption | (with_reducible first | apply kept_State_injHandle | apply kept_State_injStart | apply kept_State_noteInj | apply kept_ite | apply kept_ite1 | apply kept_ite2 | apply kept_foldl) | split | (dsimp only; split) | (apply kept_eq1; assumption) | (apply kept_eq2; assumption) | (with_reducible refine Keeps.upd ?_ rfl rfl rfl rfl rfl rfl rfl rfl rfl rfl rfl ?_) | exact fun h g => ⟨h, g⟩ | exact fun h g => ⟨Regs.wf_set _ _ h, g⟩ | exact fun h g => ⟨Regs.wf_set _ _ (Regs.wf_set _ _ h), g⟩ | exact fun h g => ⟨kept_setWords _ _ _ _ h, g⟩ | exact fun h _ => ⟨h, h⟩ | dsimp only | intro _)

theorem kept_State_epochBoundary {s0 s : State}  (hk : Keeps s0 s) : Keeps s0 (State.epochBoundary s) := by
  unfold State.epochBoundary
  repeat' (first | with_reducible assumption | (with_reducible first | apply kept_State_shedEpoch | apply kept_ite | apply kept_ite1 | apply kept_ite2 | apply kept_foldl) | split | (dsimp only; split) | (apply kept_eq1; assumption) | (apply kept_eq2; assumption) | (with_reducible refine Keeps.upd ?_ rfl rfl rfl rfl rfl rfl rfl rfl rfl rfl rfl ?_) | exact fun h g => ⟨h, g⟩ | exact fun h g => ⟨Regs.wf_set _ _ h, g⟩ | exact fun h g => ⟨Regs.wf_set _ _ (Regs.wf_set _ _ h), g⟩ | exact fun h g => ⟨kept_setWords _ _ _ _ h, g⟩ | exact fun h _ => ⟨h, h⟩ | dsimp only | intro _)

theorem kept_State_settingsTaken {s0 s : State} {frames : Bool} (hk : Keeps s0 s) : Keeps s0 (State.settingsTaken s frames) := by
  unfold State.settingsTaken
  repeat' (first | with_reducible assumption | (with_reducible first | apply kept_State_settingsBoundary | apply kept_State_planReacq | apply kept_State_solveBoundary | apply kept_State_syncReset | apply kept_State_planBoundary | apply kept_State_listenWrites | apply kept_State_roam | apply kept_State_writeAnchor | apply kept_ite | apply kept_ite1 | apply kept_ite2 | apply kept_foldl) | split | (dsimp only; split) | (apply kept_eq1; assumption) | (apply kept_eq2; assumption) | (with_reducible refine Keeps.upd ?_ rfl rfl rfl rfl rfl rfl rfl rfl rfl rfl rfl ?_) | exact fun h g => ⟨h, g⟩ | exact fun h g => ⟨Regs.wf_set _ _ h, g⟩ | exact fun h g => ⟨Regs.wf_set _ _ (Regs.wf_set _ _ h), g⟩ | exact fun h g => ⟨kept_setWords _ _ _ _ h, g⟩ | exact fun h _ => ⟨h, h⟩ | dsimp only | intro _)

theorem kept_State_boundaryFrame {s0 s : State}  (hk : Keeps s0 s) : Keeps s0 (State.boundaryFrame s) := by
  unfold State.boundaryFrame
  repeat' (first | with_reducible assumption | (with_reducible first | apply kept_State_injHeldNow | apply kept_State_frameStart | apply kept_ite | apply kept_ite1 | apply kept_ite2 | apply kept_foldl) | split | (dsimp only; split) | (apply kept_eq1; assumption) | (apply kept_eq2; assumption) | (with_reducible refine Keeps.upd ?_ rfl rfl rfl rfl rfl rfl rfl rfl rfl rfl rfl ?_) | exact fun h g => ⟨h, g⟩ | exact fun h g => ⟨Regs.wf_set _ _ h, g⟩ | exact fun h g => ⟨Regs.wf_set _ _ (Regs.wf_set _ _ h), g⟩ | exact fun h g => ⟨kept_setWords _ _ _ _ h, g⟩ | exact fun h _ => ⟨h, h⟩ | dsimp only | intro _)

theorem kept_State_boundaryStart {s0 s : State} {service : Bool} (hk : Keeps s0 s) : Keeps s0 (State.boundaryStart s service) := by
  unfold State.boundaryStart
  repeat' (first | with_reducible assumption | (with_reducible first | apply kept_State_boundaryFrame | apply kept_State_settingsTaken | apply kept_State_calBoundary | apply kept_State_refBoundary | apply kept_ite | apply kept_ite1 | apply kept_ite2 | apply kept_foldl) | split | (dsimp only; split) | (apply kept_eq1; assumption) | (apply kept_eq2; assumption) | (with_reducible refine Keeps.upd ?_ rfl rfl rfl rfl rfl rfl rfl rfl rfl rfl rfl ?_) | exact fun h g => ⟨h, g⟩ | exact fun h g => ⟨Regs.wf_set _ _ h, g⟩ | exact fun h g => ⟨Regs.wf_set _ _ (Regs.wf_set _ _ h), g⟩ | exact fun h g => ⟨kept_setWords _ _ _ _ h, g⟩ | exact fun h _ => ⟨h, h⟩ | dsimp only | intro _)

theorem kept_State_formatTaken {s0 s : State} (hk : Keeps s0 s) : Keeps s0 (State.formatTaken s) :=
  Keeps.upd hk rfl rfl rfl rfl rfl rfl rfl rfl rfl rfl rfl fun h g => ⟨h, Regs.wf_set _ _ (Regs.wf_set _ _ g)⟩

theorem kept_State_boundary {s0 s : State} {m : Monitors} (hk : Keeps s0 s) : Keeps s0 (State.boundary s m) := by
  unfold State.boundary
  repeat' (first | with_reducible assumption | (with_reducible first | apply kept_State_formatTaken | apply kept_State_boundaryStart | apply kept_State_epochBoundary | apply kept_State_frameEnd | apply kept_State_monitorsIn | apply kept_State_modeBoundary | apply kept_State_activityEnd | apply kept_State_calDiscard | apply kept_State_driveBoundary | apply kept_State_remapBoundary | apply kept_State_cmdDone | apply kept_ite | apply kept_ite1 | apply kept_ite2 | apply kept_foldl) | split | (dsimp only; split) | (apply kept_eq1; assumption) | (apply kept_eq2; assumption) | (with_reducible refine Keeps.upd ?_ rfl rfl rfl rfl rfl rfl rfl rfl rfl rfl rfl ?_) | exact fun h g => ⟨h, g⟩ | exact fun h g => ⟨Regs.wf_set _ _ h, g⟩ | exact fun h g => ⟨Regs.wf_set _ _ (Regs.wf_set _ _ h), g⟩ | exact fun h g => ⟨kept_setWords _ _ _ _ h, g⟩ | exact fun h _ => ⟨h, h⟩ | dsimp only | intro _)

theorem kept_State_latch {s0 s : State} {base : Nat} {n : Nat} (hk : Keeps s0 s) : Keeps s0 (State.latch s base n) := by
  unfold State.latch
  repeat' (first | with_reducible assumption | (with_reducible first | apply kept_State_setTimer | apply kept_ite | apply kept_ite1 | apply kept_ite2 | apply kept_foldl) | split | (dsimp only; split) | (apply kept_eq1; assumption) | (apply kept_eq2; assumption) | (with_reducible refine Keeps.upd ?_ rfl rfl rfl rfl rfl rfl rfl rfl rfl rfl rfl ?_) | exact fun h g => ⟨h, g⟩ | exact fun h g => ⟨Regs.wf_set _ _ h, g⟩ | exact fun h g => ⟨Regs.wf_set _ _ (Regs.wf_set _ _ h), g⟩ | exact fun h g => ⟨kept_setWords _ _ _ _ h, g⟩ | exact fun h _ => ⟨h, h⟩ | dsimp only | intro _)

theorem kept_State_readHigher {s0 s : State} {a : Nat} {base : Nat} {n : Nat} (hk : Keeps s0 s) : Keeps s0 (State.readHigher s a base n).2 := by
  unfold State.readHigher
  repeat' (first | with_reducible assumption | (with_reducible first | apply kept_ite | apply kept_ite1 | apply kept_ite2 | apply kept_foldl) | split | (dsimp only; split) | (apply kept_eq1; assumption) | (apply kept_eq2; assumption) | (with_reducible refine Keeps.upd ?_ rfl rfl rfl rfl rfl rfl rfl rfl rfl rfl rfl ?_) | exact fun h g => ⟨h, g⟩ | exact fun h g => ⟨Regs.wf_set _ _ h, g⟩ | exact fun h g => ⟨Regs.wf_set _ _ (Regs.wf_set _ _ h), g⟩ | exact fun h g => ⟨kept_setWords _ _ _ _ h, g⟩ | exact fun h _ => ⟨h, h⟩ | dsimp only | intro _)

theorem kept_State_coefRead {s0 s : State}  (hk : Keeps s0 s) : Keeps s0 (State.coefRead s).2 := by
  unfold State.coefRead
  repeat' (first | with_reducible assumption | (with_reducible first | apply kept_State_setFlag | apply kept_State_setReg | apply kept_ite | apply kept_ite1 | apply kept_ite2 | apply kept_foldl) | split | (dsimp only; split) | (apply kept_eq1; assumption) | (apply kept_eq2; assumption) | (with_reducible refine Keeps.upd ?_ rfl rfl rfl rfl rfl rfl rfl rfl rfl rfl rfl ?_) | exact fun h g => ⟨h, g⟩ | exact fun h g => ⟨Regs.wf_set _ _ h, g⟩ | exact fun h g => ⟨Regs.wf_set _ _ (Regs.wf_set _ _ h), g⟩ | exact fun h g => ⟨kept_setWords _ _ _ _ h, g⟩ | exact fun h _ => ⟨h, h⟩ | dsimp only | intro _)

theorem kept_State_readEffect {s0 s : State} {a : Nat} (hk : Keeps s0 s) : Keeps s0 (State.readEffect s a) := by
  unfold State.readEffect
  repeat' (first | with_reducible assumption | (with_reducible first | apply kept_State_setReg | apply kept_ite | apply kept_ite1 | apply kept_ite2 | apply kept_foldl) | split | (dsimp only; split) | (apply kept_eq1; assumption) | (apply kept_eq2; assumption) | (with_reducible refine Keeps.upd ?_ rfl rfl rfl rfl rfl rfl rfl rfl rfl rfl rfl ?_) | exact fun h g => ⟨h, g⟩ | exact fun h g => ⟨Regs.wf_set _ _ h, g⟩ | exact fun h g => ⟨Regs.wf_set _ _ (Regs.wf_set _ _ h), g⟩ | exact fun h g => ⟨kept_setWords _ _ _ _ h, g⟩ | exact fun h _ => ⟨h, h⟩ | dsimp only | intro _)

theorem kept_State_readWord {s0 s : State} {a : Nat} (hk : Keeps s0 s) : Keeps s0 (State.readWord s a).2 := by
  unfold State.readWord
  repeat' (first | with_reducible assumption | (with_reducible first | apply kept_State_readEffect | apply kept_State_coefRead | apply kept_State_readHigher | apply kept_State_latch | apply kept_ite | apply kept_ite1 | apply kept_ite2 | apply kept_foldl) | split | (dsimp only; split) | (apply kept_eq1; assumption) | (apply kept_eq2; assumption) | (with_reducible refine Keeps.upd ?_ rfl rfl rfl rfl rfl rfl rfl rfl rfl rfl rfl ?_) | exact fun h g => ⟨h, g⟩ | exact fun h g => ⟨Regs.wf_set _ _ h, g⟩ | exact fun h g => ⟨Regs.wf_set _ _ (Regs.wf_set _ _ h), g⟩ | exact fun h g => ⟨kept_setWords _ _ _ _ h, g⟩ | exact fun h _ => ⟨h, h⟩ | dsimp only | intro _)

theorem kept_State_readWords {s0 s : State} {l : List Nat} (hk : Keeps s0 s) : Keeps s0 (State.readWords s l).2 := by
  induction l generalizing s  with
  | nil => exact hk
  | cons x xs ih =>
    unfold State.readWords
    repeat' (first | with_reducible assumption | (with_reducible first | apply ih | apply kept_State_readWord | apply kept_ite | apply kept_ite1 | apply kept_ite2 | apply kept_foldl) | split | (dsimp only; split) | (apply kept_eq1; assumption) | (apply kept_eq2; assumption) | (with_reducible refine Keeps.upd ?_ rfl rfl rfl rfl rfl rfl rfl rfl rfl rfl rfl ?_) | exact fun h g => ⟨h, g⟩ | exact fun h g => ⟨Regs.wf_set _ _ h, g⟩ | exact fun h g => ⟨Regs.wf_set _ _ (Regs.wf_set _ _ h), g⟩ | exact fun h g => ⟨kept_setWords _ _ _ _ h, g⟩ | exact fun h _ => ⟨h, h⟩ | dsimp only | intro _)

theorem kept_State_lockWrite {s0 s : State} {p : Nat} {v : Word} (hk : Keeps s0 s) : Keeps s0 (State.lockWrite s p v) := by
  unfold State.lockWrite
  repeat' (first | with_reducible assumption | (with_reducible first | apply kept_State_setReg | apply kept_ite | apply kept_ite1 | apply kept_ite2 | apply kept_foldl) | split | (dsimp only; split) | (apply kept_eq1; assumption) | (apply kept_eq2; assumption) | (with_reducible refine Keeps.upd ?_ rfl rfl rfl rfl rfl rfl rfl rfl rfl rfl rfl ?_) | exact fun h g => ⟨h, g⟩ | exact fun h g => ⟨Regs.wf_set _ _ h, g⟩ | exact fun h g => ⟨Regs.wf_set _ _ (Regs.wf_set _ _ h), g⟩ | exact fun h g => ⟨kept_setWords _ _ _ _ h, g⟩ | exact fun h _ => ⟨h, h⟩ | dsimp only | intro _)

theorem kept_State_deny {s0 s : State} {p : Nat} (hk : Keeps s0 s) : Keeps s0 (State.deny s p) := by
  unfold State.deny
  repeat' (first | with_reducible assumption | (with_reducible first | apply kept_State_setReg | apply kept_ite | apply kept_ite1 | apply kept_ite2 | apply kept_foldl) | split | (dsimp only; split) | (apply kept_eq1; assumption) | (apply kept_eq2; assumption) | (with_reducible refine Keeps.upd ?_ rfl rfl rfl rfl rfl rfl rfl rfl rfl rfl rfl ?_) | exact fun h g => ⟨h, g⟩ | exact fun h g => ⟨Regs.wf_set _ _ h, g⟩ | exact fun h g => ⟨Regs.wf_set _ _ (Regs.wf_set _ _ h), g⟩ | exact fun h g => ⟨kept_setWords _ _ _ _ h, g⟩ | exact fun h _ => ⟨h, h⟩ | dsimp only | intro _)

theorem kept_State_storeWord {s0 s : State} {a : Nat} {v : Word} (hk : Keeps s0 s) : Keeps s0 (State.storeWord s a v) := by
  unfold State.storeWord
  repeat' (first | with_reducible assumption | (with_reducible first | apply kept_State_setReg | apply kept_ite | apply kept_ite1 | apply kept_ite2 | apply kept_foldl) | split | (dsimp only; split) | (apply kept_eq1; assumption) | (apply kept_eq2; assumption) | (with_reducible refine Keeps.upd ?_ rfl rfl rfl rfl rfl rfl rfl rfl rfl rfl rfl ?_) | exact fun h g => ⟨h, g⟩ | exact fun h g => ⟨Regs.wf_set _ _ h, g⟩ | exact fun h g => ⟨Regs.wf_set _ _ (Regs.wf_set _ _ h), g⟩ | exact fun h g => ⟨kept_setWords _ _ _ _ h, g⟩ | exact fun h _ => ⟨h, h⟩ | dsimp only | intro _)

theorem kept_State_declare_ {s0 s : State} {v : Word} (hk : Keeps s0 s) : Keeps s0 (State.declare_ s v) := by
  unfold State.declare_
  repeat' (first | with_reducible assumption | (with_reducible first | apply kept_State_stepCheck | apply kept_State_pinsStart | apply kept_State_shedToHc | apply kept_State_changeDeclaration | apply kept_State_firstDeclaration | apply kept_State_gaugeTick | apply kept_State_setReg | apply kept_ite | apply kept_ite1 | apply kept_ite2 | apply kept_foldl) | split | (dsimp only; split) | (apply kept_eq1; assumption) | (apply kept_eq2; assumption) | (with_reducible refine Keeps.upd ?_ rfl rfl rfl rfl rfl rfl rfl rfl rfl rfl rfl ?_) | exact fun h g => ⟨h, g⟩ | exact fun h g => ⟨Regs.wf_set _ _ h, g⟩ | exact fun h g => ⟨Regs.wf_set _ _ (Regs.wf_set _ _ h), g⟩ | exact fun h g => ⟨kept_setWords _ _ _ _ h, g⟩ | exact fun h _ => ⟨h, h⟩ | dsimp only | intro _)

theorem kept_State_toneCommit {s0 s : State}  (hk : Keeps s0 s) : Keeps s0 (State.toneCommit s) := by
  unfold State.toneCommit
  repeat' (first | with_reducible assumption | (with_reducible first | apply kept_ite | apply kept_ite1 | apply kept_ite2 | apply kept_foldl) | split | (dsimp only; split) | (apply kept_eq1; assumption) | (apply kept_eq2; assumption) | (with_reducible refine Keeps.upd ?_ rfl rfl rfl rfl rfl rfl rfl rfl rfl rfl rfl ?_) | exact fun h g => ⟨h, g⟩ | exact fun h g => ⟨Regs.wf_set _ _ h, g⟩ | exact fun h g => ⟨Regs.wf_set _ _ (Regs.wf_set _ _ h), g⟩ | exact fun h g => ⟨kept_setWords _ _ _ _ h, g⟩ | exact fun h _ => ⟨h, h⟩ | dsimp only | intro _)

theorem kept_State_toneSnap {s0 s : State}  (hk : Keeps s0 s) : Keeps s0 (State.toneSnap s) := by
  unfold State.toneSnap
  repeat' (first | with_reducible assumption | (with_reducible first | apply kept_ite | apply kept_ite1 | apply kept_ite2 | apply kept_foldl) | split | (dsimp only; split) | (apply kept_eq1; assumption) | (apply kept_eq2; assumption) | (with_reducible refine Keeps.upd ?_ rfl rfl rfl rfl rfl rfl rfl rfl rfl rfl rfl ?_) | exact fun h g => ⟨h, g⟩ | exact fun h g => ⟨Regs.wf_set _ _ h, g⟩ | exact fun h g => ⟨Regs.wf_set _ _ (Regs.wf_set _ _ h), g⟩ | exact fun h g => ⟨kept_setWords _ _ _ _ h, g⟩ | exact fun h _ => ⟨h, h⟩ | dsimp only | intro _)

theorem kept_State_toneCtrl {s0 s : State} {v : Word} (hk : Keeps s0 s) : Keeps s0 (State.toneCtrl s v) := by
  unfold State.toneCtrl
  repeat' (first | with_reducible assumption | (with_reducible first | apply kept_State_toneSnap | apply kept_State_toneCommit | apply kept_State_setReg | apply kept_ite | apply kept_ite1 | apply kept_ite2 | apply kept_foldl) | split | (dsimp only; split) | (apply kept_eq1; assumption) | (apply kept_eq2; assumption) | (with_reducible refine Keeps.upd ?_ rfl rfl rfl rfl rfl rfl rfl rfl rfl rfl rfl ?_) | exact fun h g => ⟨h, g⟩ | exact fun h g => ⟨Regs.wf_set _ _ h, g⟩ | exact fun h g => ⟨Regs.wf_set _ _ (Regs.wf_set _ _ h), g⟩ | exact fun h g => ⟨kept_setWords _ _ _ _ h, g⟩ | exact fun h _ => ⟨h, h⟩ | dsimp only | intro _)

theorem kept_State_igoOp {s0 s : State}  (hk : Keeps s0 s) : Keeps s0 (State.igoOp s) := by
  unfold State.igoOp
  repeat' (first | with_reducible assumption | (with_reducible first | apply kept_State_after | apply kept_ite | apply kept_ite1 | apply kept_ite2 | apply kept_foldl) | split | (dsimp only; split) | (apply kept_eq1; assumption) | (apply kept_eq2; assumption) | (with_reducible refine Keeps.upd ?_ rfl rfl rfl rfl rfl rfl rfl rfl rfl rfl rfl ?_) | exact fun h g => ⟨h, g⟩ | exact fun h g => ⟨Regs.wf_set _ _ h, g⟩ | exact fun h g => ⟨Regs.wf_set _ _ (Regs.wf_set _ _ h), g⟩ | exact fun h g => ⟨kept_setWords _ _ _ _ h, g⟩ | exact fun h _ => ⟨h, h⟩ | dsimp only | intro _)

theorem kept_State_adcCtrl {s0 s : State} {v : Word} (hk : Keeps s0 s) : Keeps s0 (State.adcCtrl s v) := by
  unfold State.adcCtrl
  repeat' (first | with_reducible assumption | (with_reducible first | apply kept_State_igoOp | apply kept_State_storeWord | apply kept_ite | apply kept_ite1 | apply kept_ite2 | apply kept_foldl) | split | (dsimp only; split) | (apply kept_eq1; assumption) | (apply kept_eq2; assumption) | (with_reducible refine Keeps.upd ?_ rfl rfl rfl rfl rfl rfl rfl rfl rfl rfl rfl ?_) | exact fun h g => ⟨h, g⟩ | exact fun h g => ⟨Regs.wf_set _ _ h, g⟩ | exact fun h g => ⟨Regs.wf_set _ _ (Regs.wf_set _ _ h), g⟩ | exact fun h g => ⟨kept_setWords _ _ _ _ h, g⟩ | exact fun h _ => ⟨h, h⟩ | dsimp only | intro _)

theorem kept_State_rsyncOp {s0 s : State}  (hk : Keeps s0 s) : Keeps s0 (State.rsyncOp s) := by
  unfold State.rsyncOp
  repeat' (first | with_reducible assumption | (with_reducible first | apply kept_ite | apply kept_ite1 | apply kept_ite2 | apply kept_foldl) | split | (dsimp only; split) | (apply kept_eq1; assumption) | (apply kept_eq2; assumption) | (with_reducible refine Keeps.upd ?_ rfl rfl rfl rfl rfl rfl rfl rfl rfl rfl rfl ?_) | exact fun h g => ⟨h, g⟩ | exact fun h g => ⟨Regs.wf_set _ _ h, g⟩ | exact fun h g => ⟨Regs.wf_set _ _ (Regs.wf_set _ _ h), g⟩ | exact fun h g => ⟨kept_setWords _ _ _ _ h, g⟩ | exact fun h _ => ⟨h, h⟩ | dsimp only | intro _)

theorem kept_State_sieveCtrl {s0 s : State} {v : Word} (hk : Keeps s0 s) : Keeps s0 (State.sieveCtrl s v) := by
  unfold State.sieveCtrl
  repeat' (first | with_reducible assumption | (with_reducible first | apply kept_State_rsyncOp | apply kept_State_storeWord | apply kept_ite | apply kept_ite1 | apply kept_ite2 | apply kept_foldl) | split | (dsimp only; split) | (apply kept_eq1; assumption) | (apply kept_eq2; assumption) | (with_reducible refine Keeps.upd ?_ rfl rfl rfl rfl rfl rfl rfl rfl rfl rfl rfl ?_) | exact fun h g => ⟨h, g⟩ | exact fun h g => ⟨Regs.wf_set _ _ h, g⟩ | exact fun h g => ⟨Regs.wf_set _ _ (Regs.wf_set _ _ h), g⟩ | exact fun h g => ⟨kept_setWords _ _ _ _ h, g⟩ | exact fun h _ => ⟨h, h⟩ | dsimp only | intro _)

theorem kept_State_ntapWrite {s0 s : State} {b : Nat} {v : Word} (hk : Keeps s0 s) : Keeps s0 (State.ntapWrite s b v) := by
  unfold State.ntapWrite
  repeat' (first | with_reducible assumption | (with_reducible first | apply kept_State_storeWord | apply kept_State_setFlag | apply kept_ite | apply kept_ite1 | apply kept_ite2 | apply kept_foldl) | split | (dsimp only; split) | (apply kept_eq1; assumption) | (apply kept_eq2; assumption) | (with_reducible refine Keeps.upd ?_ rfl rfl rfl rfl rfl rfl rfl rfl rfl rfl rfl ?_) | exact fun h g => ⟨h, g⟩ | exact fun h g => ⟨Regs.wf_set _ _ h, g⟩ | exact fun h g => ⟨Regs.wf_set _ _ (Regs.wf_set _ _ h), g⟩ | exact fun h g => ⟨kept_setWords _ _ _ _ h, g⟩ | exact fun h _ => ⟨h, h⟩ | dsimp only | intro _)

theorem kept_State_listenWrite {s0 s : State} {i : Nat} {v : Word} (hk : Keeps s0 s) : Keeps s0 (State.listenWrite s i v) := by
  unfold State.listenWrite
  repeat' (first | with_reducible assumption | (with_reducible first | apply kept_ite | apply kept_ite1 | apply kept_ite2 | apply kept_foldl) | split | (dsimp only; split) | (apply kept_eq1; assumption) | (apply kept_eq2; assumption) | (with_reducible refine Keeps.upd ?_ rfl rfl rfl rfl rfl rfl rfl rfl rfl rfl rfl ?_) | exact fun h g => ⟨h, g⟩ | exact fun h g => ⟨Regs.wf_set _ _ h, g⟩ | exact fun h g => ⟨Regs.wf_set _ _ (Regs.wf_set _ _ h), g⟩ | exact fun h g => ⟨kept_setWords _ _ _ _ h, g⟩ | exact fun h _ => ⟨h, h⟩ | dsimp only | intro _)

theorem kept_State_replayWrite {s0 s : State} {v : Word} (hk : Keeps s0 s) : Keeps s0 (State.replayWrite s v) := by
  unfold State.replayWrite
  repeat' (first | with_reducible assumption | (with_reducible first | apply kept_State_setFlag | apply kept_ite | apply kept_ite1 | apply kept_ite2 | apply kept_foldl) | split | (dsimp only; split) | (apply kept_eq1; assumption) | (apply kept_eq2; assumption) | (with_reducible refine Keeps.upd ?_ rfl rfl rfl rfl rfl rfl rfl rfl rfl rfl rfl ?_) | exact fun h g => ⟨h, g⟩ | exact fun h g => ⟨Regs.wf_set _ _ h, g⟩ | exact fun h g => ⟨Regs.wf_set _ _ (Regs.wf_set _ _ h), g⟩ | exact fun h g => ⟨kept_setWords _ _ _ _ h, g⟩ | exact fun h _ => ⟨h, h⟩ | dsimp only | intro _)

theorem kept_State_syncTimers {s0 s : State} {mask : Word} (hk : Keeps s0 s) : Keeps s0 (State.syncTimers s mask) := by
  unfold State.syncTimers
  repeat' (first | with_reducible assumption | (with_reducible first | apply kept_State_setTimer | apply kept_ite | apply kept_ite1 | apply kept_ite2 | apply kept_foldl) | split | (dsimp only; split) | (apply kept_eq1; assumption) | (apply kept_eq2; assumption) | (with_reducible refine Keeps.upd ?_ rfl rfl rfl rfl rfl rfl rfl rfl rfl rfl rfl ?_) | exact fun h g => ⟨h, g⟩ | exact fun h g => ⟨Regs.wf_set _ _ h, g⟩ | exact fun h g => ⟨Regs.wf_set _ _ (Regs.wf_set _ _ h), g⟩ | exact fun h g => ⟨kept_setWords _ _ _ _ h, g⟩ | exact fun h _ => ⟨h, h⟩ | dsimp only | intro _)

theorem kept_State_swcap {s0 s : State} {t : Nat} (hk : Keeps s0 s) : Keeps s0 (State.swcap s t) := by
  unfold State.swcap
  repeat' (first | with_reducible assumption | (with_reducible first | apply kept_State_setTimer | apply kept_ite | apply kept_ite1 | apply kept_ite2 | apply kept_foldl) | split | (dsimp only; split) | (apply kept_eq1; assumption) | (apply kept_eq2; assumption) | (with_reducible refine Keeps.upd ?_ rfl rfl rfl rfl rfl rfl rfl rfl rfl rfl rfl ?_) | exact fun h g => ⟨h, g⟩ | exact fun h g => ⟨Regs.wf_set _ _ h, g⟩ | exact fun h g => ⟨Regs.wf_set _ _ (Regs.wf_set _ _ h), g⟩ | exact fun h g => ⟨kept_setWords _ _ _ _ h, g⟩ | exact fun h _ => ⟨h, h⟩ | dsimp only | intro _)

theorem kept_State_timerCtrl {s0 s : State} {t : Nat} {v : Word} (hk : Keeps s0 s) : Keeps s0 (State.timerCtrl s t v) := by
  unfold State.timerCtrl
  repeat' (first | with_reducible assumption | (with_reducible first | apply kept_State_swcap | apply kept_State_setTimer | apply kept_ite | apply kept_ite1 | apply kept_ite2 | apply kept_foldl) | split | (dsimp only; split) | (apply kept_eq1; assumption) | (apply kept_eq2; assumption) | (with_reducible refine Keeps.upd ?_ rfl rfl rfl rfl rfl rfl rfl rfl rfl rfl rfl ?_) | exact fun h g => ⟨h, g⟩ | exact fun h g => ⟨Regs.wf_set _ _ h, g⟩ | exact fun h g => ⟨Regs.wf_set _ _ (Regs.wf_set _ _ h), g⟩ | exact fun h g => ⟨kept_setWords _ _ _ _ h, g⟩ | exact fun h _ => ⟨h, h⟩ | dsimp only | intro _)

theorem kept_State_timerWrite {s0 s : State} {t : Nat} {o : Nat} {v : Word} (hk : Keeps s0 s) : Keeps s0 (State.timerWrite s t o v) := by
  unfold State.timerWrite
  repeat' (first | with_reducible assumption | (with_reducible first | apply kept_State_timerCtrl | apply kept_State_setTimer | apply kept_ite | apply kept_ite1 | apply kept_ite2 | apply kept_foldl) | split | (dsimp only; split) | (apply kept_eq1; assumption) | (apply kept_eq2; assumption) | (with_reducible refine Keeps.upd ?_ rfl rfl rfl rfl rfl rfl rfl rfl rfl rfl rfl ?_) | exact fun h g => ⟨h, g⟩ | exact fun h g => ⟨Regs.wf_set _ _ h, g⟩ | exact fun h g => ⟨Regs.wf_set _ _ (Regs.wf_set _ _ h), g⟩ | exact fun h g => ⟨kept_setWords _ _ _ _ h, g⟩ | exact fun h _ => ⟨h, h⟩ | dsimp only | intro _)

theorem kept_State_gaugeCtrl {s0 s : State} {v : Word} (hk : Keeps s0 s) : Keeps s0 (State.gaugeCtrl s v) := by
  unfold State.gaugeCtrl
  repeat' (first | with_reducible assumption | (with_reducible first | apply kept_State_gaugeEnableOp | apply kept_State_setReg | apply kept_ite | apply kept_ite1 | apply kept_ite2 | apply kept_foldl) | split | (dsimp only; split) | (apply kept_eq1; assumption) | (apply kept_eq2; assumption) | (with_reducible refine Keeps.upd ?_ rfl rfl rfl rfl rfl rfl rfl rfl rfl rfl rfl ?_) | exact fun h g => ⟨h, g⟩ | exact fun h g => ⟨Regs.wf_set _ _ h, g⟩ | exact fun h g => ⟨Regs.wf_set _ _ (Regs.wf_set _ _ h), g⟩ | exact fun h g => ⟨kept_setWords _ _ _ _ h, g⟩ | exact fun h _ => ⟨h, h⟩ | dsimp only | intro _)

theorem kept_State_shedCommand {s0 s : State} {v : Word} (hk : Keeps s0 s) : Keeps s0 (State.shedCommand s v) := by
  unfold State.shedCommand
  repeat' (first | with_reducible assumption | (with_reducible first | apply kept_State_shedForget | apply kept_State_shedSave | apply kept_ite | apply kept_ite1 | apply kept_ite2 | apply kept_foldl) | split | (dsimp only; split) | (apply kept_eq1; assumption) | (apply kept_eq2; assumption) | (with_reducible refine Keeps.upd ?_ rfl rfl rfl rfl rfl rfl rfl rfl rfl rfl rfl ?_) | exact fun h g => ⟨h, g⟩ | exact fun h g => ⟨Regs.wf_set _ _ h, g⟩ | exact fun h g => ⟨Regs.wf_set _ _ (Regs.wf_set _ _ h), g⟩ | exact fun h g => ⟨kept_setWords _ _ _ _ h, g⟩ | exact fun h _ => ⟨h, h⟩ | dsimp only | intro _)

theorem kept_State_dctrlWrite {s0 s : State} {v : Word} (hk : Keeps s0 s) : Keeps s0 (State.dctrlWrite s v) := by
  unfold State.dctrlWrite
  repeat' (first | with_reducible assumption | (with_reducible first | apply kept_State_storeWord | apply kept_State_setFlag | apply kept_ite | apply kept_ite1 | apply kept_ite2 | apply kept_foldl) | split | (dsimp only; split) | (apply kept_eq1; assumption) | (apply kept_eq2; assumption) | (with_reducible refine Keeps.upd ?_ rfl rfl rfl rfl rfl rfl rfl rfl rfl rfl rfl ?_) | exact fun h g => ⟨h, g⟩ | exact fun h g => ⟨Regs.wf_set _ _ h, g⟩ | exact fun h g => ⟨Regs.wf_set _ _ (Regs.wf_set _ _ h), g⟩ | exact fun h g => ⟨kept_setWords _ _ _ _ h, g⟩ | exact fun h _ => ⟨h, h⟩ | dsimp only | intro _)

theorem kept_State_erngWrite {s0 s : State} {a : Nat} {v : Word} (hk : Keeps s0 s) : Keeps s0 (State.erngWrite s a v) := by
  unfold State.erngWrite
  repeat' (first | with_reducible assumption | (with_reducible first | apply kept_State_storeWord | apply kept_ite | apply kept_ite1 | apply kept_ite2 | apply kept_foldl) | split | (dsimp only; split) | (apply kept_eq1; assumption) | (apply kept_eq2; assumption) | (with_reducible refine Keeps.upd ?_ rfl rfl rfl rfl rfl rfl rfl rfl rfl rfl rfl ?_) | exact fun h g => ⟨h, g⟩ | exact fun h g => ⟨Regs.wf_set _ _ h, g⟩ | exact fun h g => ⟨Regs.wf_set _ _ (Regs.wf_set _ _ h), g⟩ | exact fun h g => ⟨kept_setWords _ _ _ _ h, g⟩ | exact fun h _ => ⟨h, h⟩ | dsimp only | intro _)

theorem kept_State_snapWrite {s0 s : State}  (hk : Keeps s0 s) : Keeps s0 (State.snapWrite s) := by
  unfold State.snapWrite
  repeat' (first | with_reducible assumption | (with_reducible first | apply kept_State_snapshot | apply kept_ite | apply kept_ite1 | apply kept_ite2 | apply kept_foldl) | split | (dsimp only; split) | (apply kept_eq1; assumption) | (apply kept_eq2; assumption) | (with_reducible refine Keeps.upd ?_ rfl rfl rfl rfl rfl rfl rfl rfl rfl rfl rfl ?_) | exact fun h g => ⟨h, g⟩ | exact fun h g => ⟨Regs.wf_set _ _ h, g⟩ | exact fun h g => ⟨Regs.wf_set _ _ (Regs.wf_set _ _ h), g⟩ | exact fun h g => ⟨kept_setWords _ _ _ _ h, g⟩ | exact fun h _ => ⟨h, h⟩ | dsimp only | intro _)

theorem kept_State_writeBlock {s0 s : State} {a : Nat} {v : Word} (hk : Keeps s0 s) : Keeps s0 (State.writeBlock s a v) := by
  unfold State.writeBlock
  repeat' (first | with_reducible assumption | (with_reducible first | apply kept_State_snapWrite | apply kept_State_erngWrite | apply kept_State_dctrlWrite | apply kept_State_shedCommand | apply kept_State_gaugeCtrl | apply kept_State_timerWrite | apply kept_State_syncTimers | apply kept_State_replayWrite | apply kept_State_listenWrite | apply kept_State_ntapWrite | apply kept_State_sieveCtrl | apply kept_State_adcCtrl | apply kept_State_toneCtrl | apply kept_State_declare_ | apply kept_State_storeWord | apply kept_State_command | apply kept_State_blkmaxWrite | apply kept_State_blankWrite | apply kept_State_blankSeen | apply kept_State_curveWrite | apply kept_State_coefWrite | apply kept_State_setUnc | apply kept_ite | apply kept_ite1 | apply kept_ite2 | apply kept_foldl) | split | (dsimp only; split) | (apply kept_eq1; assumption) | (apply kept_eq2; assumption) | (with_reducible refine Keeps.upd ?_ rfl rfl rfl rfl rfl rfl rfl rfl rfl rfl rfl ?_) | exact fun h g => ⟨h, g⟩ | exact fun h g => ⟨Regs.wf_set _ _ h, g⟩ | exact fun h g => ⟨Regs.wf_set _ _ (Regs.wf_set _ _ h), g⟩ | exact fun h g => ⟨kept_setWords _ _ _ _ h, g⟩ | exact fun h _ => ⟨h, h⟩ | dsimp only | intro _)

theorem kept_State_ienWrite {s0 s : State} {p : Nat} {v : Word} (hk : Keeps s0 s) : Keeps s0 (State.ienWrite s p v) := by
  unfold State.ienWrite
  repeat' (first | with_reducible assumption | (with_reducible first | apply kept_State_setReg | apply kept_ite | apply kept_ite1 | apply kept_ite2 | apply kept_foldl) | split | (dsimp only; split) | (apply kept_eq1; assumption) | (apply kept_eq2; assumption) | (with_reducible refine Keeps.upd ?_ rfl rfl rfl rfl rfl rfl rfl rfl rfl rfl rfl ?_) | exact fun h g => ⟨h, g⟩ | exact fun h g => ⟨Regs.wf_set _ _ h, g⟩ | exact fun h g => ⟨Regs.wf_set _ _ (Regs.wf_set _ _ h), g⟩ | exact fun h g => ⟨kept_setWords _ _ _ _ h, g⟩ | exact fun h _ => ⟨h, h⟩ | dsimp only | intro _)

theorem kept_State_writePlain {s0 s : State} {a : Nat} {v : Word} (hk : Keeps s0 s) : Keeps s0 (State.writePlain s a v) := by
  unfold State.writePlain
  repeat' (first | with_reducible assumption | (with_reducible first | apply kept_State_ienWrite | apply kept_State_writeBlock | apply kept_State_deny | apply kept_State_lockWrite | apply kept_State_setFlags | apply kept_State_setReg | apply kept_ite | apply kept_ite1 | apply kept_ite2 | apply kept_foldl) | split | (dsimp only; split) | (apply kept_eq1; assumption) | (apply kept_eq2; assumption) | (with_reducible refine Keeps.upd ?_ rfl rfl rfl rfl rfl rfl rfl rfl rfl rfl rfl ?_) | exact fun h g => ⟨h, g⟩ | exact fun h g => ⟨Regs.wf_set _ _ h, g⟩ | exact fun h g => ⟨Regs.wf_set _ _ (Regs.wf_set _ _ h), g⟩ | exact fun h g => ⟨kept_setWords _ _ _ _ h, g⟩ | exact fun h _ => ⟨h, h⟩ | dsimp only | intro _)

theorem kept_State_stageWord {s0 s : State} {base : Nat} {i : Nat} {v : Word} (hk : Keeps s0 s) : Keeps s0 (State.stageWord s base i v) := by
  unfold State.stageWord
  repeat' (first | with_reducible assumption | (with_reducible first | apply kept_ite | apply kept_ite1 | apply kept_ite2 | apply kept_foldl) | split | (dsimp only; split) | (apply kept_eq1; assumption) | (apply kept_eq2; assumption) | (with_reducible refine Keeps.upd ?_ rfl rfl rfl rfl rfl rfl rfl rfl rfl rfl rfl ?_) | exact fun h g => ⟨h, g⟩ | exact fun h g => ⟨Regs.wf_set _ _ h, g⟩ | exact fun h g => ⟨Regs.wf_set _ _ (Regs.wf_set _ _ h), g⟩ | exact fun h g => ⟨kept_setWords _ _ _ _ h, g⟩ | exact fun h _ => ⟨h, h⟩ | dsimp only | intro _)

theorem kept_State_unstage {s0 s : State} {base : Nat} (hk : Keeps s0 s) : Keeps s0 (State.unstage s base) := by
  unfold State.unstage
  repeat' (first | with_reducible assumption | (with_reducible first | apply kept_ite | apply kept_ite1 | apply kept_ite2 | apply kept_foldl) | split | (dsimp only; split) | (apply kept_eq1; assumption) | (apply kept_eq2; assumption) | (with_reducible refine Keeps.upd ?_ rfl rfl rfl rfl rfl rfl rfl rfl rfl rfl rfl ?_) | exact fun h g => ⟨h, g⟩ | exact fun h g => ⟨Regs.wf_set _ _ h, g⟩ | exact fun h g => ⟨Regs.wf_set _ _ (Regs.wf_set _ _ h), g⟩ | exact fun h g => ⟨kept_setWords _ _ _ _ h, g⟩ | exact fun h _ => ⟨h, h⟩ | dsimp only | intro _)

theorem kept_State_commitValue {s0 s : State} {base : Nat} {v : Nat} (hk : Keeps s0 s) : Keeps s0 (State.commitValue s base v) := by
  unfold State.commitValue
  repeat' (first | with_reducible assumption | (with_reducible first | apply kept_State_setTimer | apply kept_State_setWide | apply kept_State_staleIf | apply kept_ite | apply kept_ite1 | apply kept_ite2 | apply kept_foldl) | split | (dsimp only; split) | (apply kept_eq1; assumption) | (apply kept_eq2; assumption) | (with_reducible refine Keeps.upd ?_ rfl rfl rfl rfl rfl rfl rfl rfl rfl rfl rfl ?_) | exact fun h g => ⟨h, g⟩ | exact fun h g => ⟨Regs.wf_set _ _ h, g⟩ | exact fun h g => ⟨Regs.wf_set _ _ (Regs.wf_set _ _ h), g⟩ | exact fun h g => ⟨kept_setWords _ _ _ _ h, g⟩ | exact fun h _ => ⟨h, h⟩ | dsimp only | intro _)

theorem kept_State_commitWord {s0 s : State} {base : Nat} {lo : Word} (hk : Keeps s0 s) : Keeps s0 (State.commitWord s base lo) := by
  unfold State.commitWord
  repeat' (first | with_reducible assumption | (with_reducible first | apply kept_State_commitValue | apply kept_State_unstage | apply kept_ite | apply kept_ite1 | apply kept_ite2 | apply kept_foldl) | split | (dsimp only; split) | (apply kept_eq1; assumption) | (apply kept_eq2; assumption) | (with_reducible refine Keeps.upd ?_ rfl rfl rfl rfl rfl rfl rfl rfl rfl rfl rfl ?_) | exact fun h g => ⟨h, g⟩ | exact fun h g => ⟨Regs.wf_set _ _ h, g⟩ | exact fun h g => ⟨Regs.wf_set _ _ (Regs.wf_set _ _ h), g⟩ | exact fun h g => ⟨kept_setWords _ _ _ _ h, g⟩ | exact fun h _ => ⟨h, h⟩ | dsimp only | intro _)

theorem kept_State_writeWide {s0 s : State} {a : Nat} {base : Nat} {v : Word} (hk : Keeps s0 s) : Keeps s0 (State.writeWide s a base v) := by
  unfold State.writeWide
  repeat' (first | with_reducible assumption | (with_reducible first | apply kept_State_commitWord | apply kept_State_stageWord | apply kept_ite | apply kept_ite1 | apply kept_ite2 | apply kept_foldl) | split | (dsimp only; split) | (apply kept_eq1; assumption) | (apply kept_eq2; assumption) | (with_reducible refine Keeps.upd ?_ rfl rfl rfl rfl rfl rfl rfl rfl rfl rfl rfl ?_) | exact fun h g => ⟨h, g⟩ | exact fun h g => ⟨Regs.wf_set _ _ h, g⟩ | exact fun h g => ⟨Regs.wf_set _ _ (Regs.wf_set _ _ h), g⟩ | exact fun h g => ⟨kept_setWords _ _ _ _ h, g⟩ | exact fun h _ => ⟨h, h⟩ | dsimp only | intro _)

theorem kept_State_writeWord {s0 s : State} {a : Nat} {v : Word} (hk : Keeps s0 s) : Keeps s0 (State.writeWord s a v) := by
  unfold State.writeWord
  repeat' (first | with_reducible assumption | (with_reducible first | apply kept_State_writeWide | apply kept_State_writePlain | apply kept_ite | apply kept_ite1 | apply kept_ite2 | apply kept_foldl) | split | (dsimp only; split) | (apply kept_eq1; assumption) | (apply kept_eq2; assumption) | (with_reducible refine Keeps.upd ?_ rfl rfl rfl rfl rfl rfl rfl rfl rfl rfl rfl ?_) | exact fun h g => ⟨h, g⟩ | exact fun h g => ⟨Regs.wf_set _ _ h, g⟩ | exact fun h g => ⟨Regs.wf_set _ _ (Regs.wf_set _ _ h), g⟩ | exact fun h g => ⟨kept_setWords _ _ _ _ h, g⟩ | exact fun h _ => ⟨h, h⟩ | dsimp only | intro _)

theorem kept_State_applyPosted {s0 s : State} {p : Posted} (hk : Keeps s0 s) : Keeps s0 (State.applyPosted s p) := by
  unfold State.applyPosted
  repeat' (first | with_reducible assumption | (with_reducible first | apply kept_State_writeWord | apply kept_State_commitWord | apply kept_State_stageWord | apply kept_ite | apply kept_ite1 | apply kept_ite2 | apply kept_foldl) | split | (dsimp only; split) | (apply kept_eq1; assumption) | (apply kept_eq2; assumption) | (with_reducible refine Keeps.upd ?_ rfl rfl rfl rfl rfl rfl rfl rfl rfl rfl rfl ?_) | exact fun h g => ⟨h, g⟩ | exact fun h g => ⟨Regs.wf_set _ _ h, g⟩ | exact fun h g => ⟨Regs.wf_set _ _ (Regs.wf_set _ _ h), g⟩ | exact fun h g => ⟨kept_setWords _ _ _ _ h, g⟩ | exact fun h _ => ⟨h, h⟩ | dsimp only | intro _)

theorem kept_State_hostRead {s0 s : State} {a : Word} (hk : Keeps s0 s) : Keeps s0 (State.hostRead s a) := by
  unfold State.hostRead
  split
  · exact hk
  · have h1 := kept_State_readWord (a := a.toNat) hk
    generalize State.readWord s a.toNat = e at h1 ⊢
    obtain ⟨w, s'⟩ := e
    exact Keeps.upd h1 rfl rfl rfl rfl rfl rfl rfl rfl rfl rfl rfl fun h g => ⟨h, g⟩

theorem kept_State_firstRequest {s0 s : State}  (hk : Keeps s0 s) : Keeps s0 (State.firstRequest s) := by
  unfold State.firstRequest
  repeat' (first | with_reducible assumption | (with_reducible first | apply kept_ite | apply kept_ite1 | apply kept_ite2 | apply kept_foldl) | split | (dsimp only; split) | (apply kept_eq1; assumption) | (apply kept_eq2; assumption) | (with_reducible refine Keeps.upd ?_ rfl rfl rfl rfl rfl rfl rfl rfl rfl rfl rfl ?_) | exact fun h g => ⟨h, g⟩ | exact fun h g => ⟨Regs.wf_set _ _ h, g⟩ | exact fun h g => ⟨Regs.wf_set _ _ (Regs.wf_set _ _ h), g⟩ | exact fun h g => ⟨kept_setWords _ _ _ _ h, g⟩ | exact fun h _ => ⟨h, h⟩ | dsimp only | intro _)

theorem kept_State_dropCopy {s0 s : State} {tag : Nat} (hk : Keeps s0 s) : Keeps s0 (State.dropCopy s tag) := by
  unfold State.dropCopy
  repeat' (first | with_reducible assumption | (with_reducible first | apply kept_ite | apply kept_ite1 | apply kept_ite2 | apply kept_foldl) | split | (dsimp only; split) | (apply kept_eq1; assumption) | (apply kept_eq2; assumption) | (with_reducible refine Keeps.upd ?_ rfl rfl rfl rfl rfl rfl rfl rfl rfl rfl rfl ?_) | exact fun h g => ⟨h, g⟩ | exact fun h g => ⟨Regs.wf_set _ _ h, g⟩ | exact fun h g => ⟨Regs.wf_set _ _ (Regs.wf_set _ _ h), g⟩ | exact fun h g => ⟨kept_setWords _ _ _ _ h, g⟩ | exact fun h _ => ⟨h, h⟩ | dsimp only | intro _)

theorem kept_State_grantOp {s0 s : State} {f : Frame} (hk : Keeps s0 s) : Keeps s0 (State.grantOp s f) := by
  unfold State.grantOp
  repeat' (first | with_reducible assumption | (with_reducible first | apply kept_ite | apply kept_ite1 | apply kept_ite2 | apply kept_foldl) | split | (dsimp only; split) | (apply kept_eq1; assumption) | (apply kept_eq2; assumption) | (with_reducible refine Keeps.upd ?_ rfl rfl rfl rfl rfl rfl rfl rfl rfl rfl rfl ?_) | exact fun h g => ⟨h, g⟩ | exact fun h g => ⟨Regs.wf_set _ _ h, g⟩ | exact fun h g => ⟨Regs.wf_set _ _ (Regs.wf_set _ _ h), g⟩ | exact fun h g => ⟨kept_setWords _ _ _ _ h, g⟩ | exact fun h _ => ⟨h, h⟩ | dsimp only | intro _)

theorem kept_State_epochReportOp {s0 s : State}  (hk : Keeps s0 s) : Keeps s0 (State.epochReportOp s) := by
  unfold State.epochReportOp
  repeat' (first | with_reducible assumption | (with_reducible first | apply kept_State_queueEpoch | apply kept_ite | apply kept_ite1 | apply kept_ite2 | apply kept_foldl) | split | (dsimp only; split) | (apply kept_eq1; assumption) | (apply kept_eq2; assumption) | (with_reducible refine Keeps.upd ?_ rfl rfl rfl rfl rfl rfl rfl rfl rfl rfl rfl ?_) | exact fun h g => ⟨h, g⟩ | exact fun h g => ⟨Regs.wf_set _ _ h, g⟩ | exact fun h g => ⟨Regs.wf_set _ _ (Regs.wf_set _ _ h), g⟩ | exact fun h g => ⟨kept_setWords _ _ _ _ h, g⟩ | exact fun h _ => ⟨h, h⟩ | dsimp only | intro _)

theorem kept_State_attnSet {s0 s : State} {low : Bool} (hk : Keeps s0 s) : Keeps s0 (State.attnSet s low) := by
  unfold State.attnSet
  repeat' (first | with_reducible assumption | (with_reducible first | apply kept_State_timerEvent | apply kept_ite | apply kept_ite1 | apply kept_ite2 | apply kept_foldl) | split | (dsimp only; split) | (apply kept_eq1; assumption) | (apply kept_eq2; assumption) | (with_reducible refine Keeps.upd ?_ rfl rfl rfl rfl rfl rfl rfl rfl rfl rfl rfl ?_) | exact fun h g => ⟨h, g⟩ | exact fun h g => ⟨Regs.wf_set _ _ h, g⟩ | exact fun h g => ⟨Regs.wf_set _ _ (Regs.wf_set _ _ h), g⟩ | exact fun h g => ⟨kept_setWords _ _ _ _ h, g⟩ | exact fun h _ => ⟨h, h⟩ | dsimp only | intro _)

theorem kept_State_attnUpdate {s0 s : State} {h : Nat} (hk : Keeps s0 s) : Keeps s0 (State.attnUpdate s h) := by
  unfold State.attnUpdate
  repeat' (first | with_reducible assumption | (with_reducible first | apply kept_State_attnSet | apply kept_ite | apply kept_ite1 | apply kept_ite2 | apply kept_foldl) | split | (dsimp only; split) | (apply kept_eq1; assumption) | (apply kept_eq2; assumption) | (with_reducible refine Keeps.upd ?_ rfl rfl rfl rfl rfl rfl rfl rfl rfl rfl rfl ?_) | exact fun h g => ⟨h, g⟩ | exact fun h g => ⟨Regs.wf_set _ _ h, g⟩ | exact fun h g => ⟨Regs.wf_set _ _ (Regs.wf_set _ _ h), g⟩ | exact fun h g => ⟨kept_setWords _ _ _ _ h, g⟩ | exact fun h _ => ⟨h, h⟩ | dsimp only | intro _)

theorem kept_State_sendFrame {s0 s : State} {t : Turn} {d : DevFrame} (hk : Keeps s0 s) : Keeps s0 (State.sendFrame s t d) := by
  unfold State.sendFrame
  repeat' (first | with_reducible assumption | (with_reducible first | apply kept_ite | apply kept_ite1 | apply kept_ite2 | apply kept_foldl) | split | (dsimp only; split) | (apply kept_eq1; assumption) | (apply kept_eq2; assumption) | (with_reducible refine Keeps.upd ?_ rfl rfl rfl rfl rfl rfl rfl rfl rfl rfl rfl ?_) | exact fun h g => ⟨h, g⟩ | exact fun h g => ⟨Regs.wf_set _ _ h, g⟩ | exact fun h g => ⟨Regs.wf_set _ _ (Regs.wf_set _ _ h), g⟩ | exact fun h g => ⟨kept_setWords _ _ _ _ h, g⟩ | exact fun h _ => ⟨h, h⟩ | dsimp only | intro _)

theorem kept_State_replayDone {s0 s : State} {d : DevFrame} (hk : Keeps s0 s) : Keeps s0 (State.replayDone s d) := by
  unfold State.replayDone
  repeat' (first | with_reducible assumption | (with_reducible first | apply kept_ite | apply kept_ite1 | apply kept_ite2 | apply kept_foldl) | split | (dsimp only; split) | (apply kept_eq1; assumption) | (apply kept_eq2; assumption) | (with_reducible refine Keeps.upd ?_ rfl rfl rfl rfl rfl rfl rfl rfl rfl rfl rfl ?_) | exact fun h g => ⟨h, g⟩ | exact fun h g => ⟨Regs.wf_set _ _ h, g⟩ | exact fun h g => ⟨Regs.wf_set _ _ (Regs.wf_set _ _ h), g⟩ | exact fun h g => ⟨kept_setWords _ _ _ _ h, g⟩ | exact fun h _ => ⟨h, h⟩ | dsimp only | intro _)

theorem kept_State_replayCheck {s0 s : State}  (hk : Keeps s0 s) : Keeps s0 (State.replayCheck s) := by
  unfold State.replayCheck
  repeat' (first | with_reducible assumption | (with_reducible first | apply kept_State_setFlag | apply kept_ite | apply kept_ite1 | apply kept_ite2 | apply kept_foldl) | split | (dsimp only; split) | (apply kept_eq1; assumption) | (apply kept_eq2; assumption) | (with_reducible refine Keeps.upd ?_ rfl rfl rfl rfl rfl rfl rfl rfl rfl rfl rfl ?_) | exact fun h g => ⟨h, g⟩ | exact fun h g => ⟨Regs.wf_set _ _ h, g⟩ | exact fun h g => ⟨Regs.wf_set _ _ (Regs.wf_set _ _ h), g⟩ | exact fun h g => ⟨kept_setWords _ _ _ _ h, g⟩ | exact fun h _ => ⟨h, h⟩ | dsimp only | intro _)

theorem kept_State_turnOver {s0 s : State}  (hk : Keeps s0 s) : Keeps s0 (State.turnOver s) := by
  unfold State.turnOver
  repeat' (first | with_reducible assumption | (with_reducible first | apply kept_State_after | apply kept_ite | apply kept_ite1 | apply kept_ite2 | apply kept_foldl) | split | (dsimp only; split) | (apply kept_eq1; assumption) | (apply kept_eq2; assumption) | (with_reducible refine Keeps.upd ?_ rfl rfl rfl rfl rfl rfl rfl rfl rfl rfl rfl ?_) | exact fun h g => ⟨h, g⟩ | exact fun h g => ⟨Regs.wf_set _ _ h, g⟩ | exact fun h g => ⟨Regs.wf_set _ _ (Regs.wf_set _ _ h), g⟩ | exact fun h g => ⟨kept_setWords _ _ _ _ h, g⟩ | exact fun h _ => ⟨h, h⟩ | dsimp only | intro _)

theorem kept_State_tickTimers {s0 s : State} {ticks : Nat} (hk : Keeps s0 s) : Keeps s0 (State.tickTimers s ticks) := by
  unfold State.tickTimers
  repeat' (first | with_reducible assumption | (with_reducible first | apply kept_State_countClk | apply kept_ite | apply kept_ite1 | apply kept_ite2 | apply kept_foldl) | split | (dsimp only; split) | (apply kept_eq1; assumption) | (apply kept_eq2; assumption) | (with_reducible refine Keeps.upd ?_ rfl rfl rfl rfl rfl rfl rfl rfl rfl rfl rfl ?_) | exact fun h g => ⟨h, g⟩ | exact fun h g => ⟨Regs.wf_set _ _ h, g⟩ | exact fun h g => ⟨Regs.wf_set _ _ (Regs.wf_set _ _ h), g⟩ | exact fun h g => ⟨kept_setWords _ _ _ _ h, g⟩ | exact fun h _ => ⟨h, h⟩ | dsimp only | intro _)

theorem kept_State_tickTime {s0 s : State}  (hk : Keeps s0 s) : Keeps s0 (State.tickTime s) := by
  unfold State.tickTime
  repeat' (first | with_reducible assumption | (with_reducible first | apply kept_State_accumulate | apply kept_State_after | apply kept_ite | apply kept_ite1 | apply kept_ite2 | apply kept_foldl) | split | (dsimp only; split) | (apply kept_eq1; assumption) | (apply kept_eq2; assumption) | (with_reducible refine Keeps.upd ?_ rfl rfl rfl rfl rfl rfl rfl rfl rfl rfl rfl ?_) | exact fun h g => ⟨h, g⟩ | exact fun h g => ⟨Regs.wf_set _ _ h, g⟩ | exact fun h g => ⟨Regs.wf_set _ _ (Regs.wf_set _ _ h), g⟩ | exact fun h g => ⟨kept_setWords _ _ _ _ h, g⟩ | exact fun h _ => ⟨h, h⟩ | dsimp only | intro _)

theorem kept_State_countHc {s0 s : State}  (hk : Keeps s0 s) : Keeps s0 (State.countHc s) := by
  unfold State.countHc
  repeat' (first | with_reducible assumption | (with_reducible first | apply kept_State_tickTime | apply kept_State_tickTimers | apply kept_State_lateReports | apply kept_State_gaugeTick | apply kept_ite | apply kept_ite1 | apply kept_ite2 | apply kept_foldl) | split | (dsimp only; split) | (apply kept_eq1; assumption) | (apply kept_eq2; assumption) | (with_reducible refine Keeps.upd ?_ rfl rfl rfl rfl rfl rfl rfl rfl rfl rfl rfl ?_) | exact fun h g => ⟨h, g⟩ | exact fun h g => ⟨Regs.wf_set _ _ h, g⟩ | exact fun h g => ⟨Regs.wf_set _ _ (Regs.wf_set _ _ h), g⟩ | exact fun h g => ⟨kept_setWords _ _ _ _ h, g⟩ | exact fun h _ => ⟨h, h⟩ | dsimp only | intro _)

theorem kept_State_tickSlot {s0 s : State}  (hk : Keeps s0 s) : Keeps s0 (State.tickSlot s) := by
  unfold State.tickSlot
  repeat' (first | with_reducible assumption | (with_reducible first | apply kept_State_slotBegin | apply kept_State_after | apply kept_ite | apply kept_ite1 | apply kept_ite2 | apply kept_foldl) | split | (dsimp only; split) | (apply kept_eq1; assumption) | (apply kept_eq2; assumption) | (with_reducible refine Keeps.upd ?_ rfl rfl rfl rfl rfl rfl rfl rfl rfl rfl rfl ?_) | exact fun h g => ⟨h, g⟩ | exact fun h g => ⟨Regs.wf_set _ _ h, g⟩ | exact fun h g => ⟨Regs.wf_set _ _ (Regs.wf_set _ _ h), g⟩ | exact fun h g => ⟨kept_setWords _ _ _ _ h, g⟩ | exact fun h _ => ⟨h, h⟩ | dsimp only | intro _)

theorem kept_State_tickBlank {s0 s : State}  (hk : Keeps s0 s) : Keeps s0 (State.tickBlank s) := by
  unfold State.tickBlank
  repeat' (first | with_reducible assumption | (with_reducible first | apply kept_State_after | apply kept_ite | apply kept_ite1 | apply kept_ite2 | apply kept_foldl) | split | (dsimp only; split) | (apply kept_eq1; assumption) | (apply kept_eq2; assumption) | (with_reducible refine Keeps.upd ?_ rfl rfl rfl rfl rfl rfl rfl rfl rfl rfl rfl ?_) | exact fun h g => ⟨h, g⟩ | exact fun h g => ⟨Regs.wf_set _ _ h, g⟩ | exact fun h g => ⟨Regs.wf_set _ _ (Regs.wf_set _ _ h), g⟩ | exact fun h g => ⟨kept_setWords _ _ _ _ h, g⟩ | exact fun h _ => ⟨h, h⟩ | dsimp only | intro _)

theorem kept_State_tickLatch {s0 s : State}  (hk : Keeps s0 s) : Keeps s0 (State.tickLatch s) := by
  unfold State.tickLatch
  repeat' (first | with_reducible assumption | (with_reducible first | apply kept_State_setTimer | apply kept_State_after | apply kept_ite | apply kept_ite1 | apply kept_ite2 | apply kept_foldl) | split | (dsimp only; split) | (apply kept_eq1; assumption) | (apply kept_eq2; assumption) | (with_reducible refine Keeps.upd ?_ rfl rfl rfl rfl rfl rfl rfl rfl rfl rfl rfl ?_) | exact fun h g => ⟨h, g⟩ | exact fun h g => ⟨Regs.wf_set _ _ h, g⟩ | exact fun h g => ⟨Regs.wf_set _ _ (Regs.wf_set _ _ h), g⟩ | exact fun h g => ⟨kept_setWords _ _ _ _ h, g⟩ | exact fun h _ => ⟨h, h⟩ | dsimp only | intro _)

theorem kept_State_tickRamp {s0 s : State}  (hk : Keeps s0 s) : Keeps s0 (State.tickRamp s) := by
  unfold State.tickRamp
  repeat' (first | with_reducible assumption | (with_reducible first | apply kept_State_setFlagIf | apply kept_ite | apply kept_ite1 | apply kept_ite2 | apply kept_foldl) | split | (dsimp only; split) | (apply kept_eq1; assumption) | (apply kept_eq2; assumption) | (with_reducible refine Keeps.upd ?_ rfl rfl rfl rfl rfl rfl rfl rfl rfl rfl rfl ?_) | exact fun h g => ⟨h, g⟩ | exact fun h g => ⟨Regs.wf_set _ _ h, g⟩ | exact fun h g => ⟨Regs.wf_set _ _ (Regs.wf_set _ _ h), g⟩ | exact fun h g => ⟨kept_setWords _ _ _ _ h, g⟩ | exact fun h _ => ⟨h, h⟩ | dsimp only | intro _)

theorem kept_State_trackLine {s0 s : State}  (hk : Keeps s0 s) : Keeps s0 (State.trackLine s) := by
  unfold State.trackLine
  repeat' (first | with_reducible assumption | (with_reducible first | apply kept_State_setReg | apply kept_ite | apply kept_ite1 | apply kept_ite2 | apply kept_foldl) | split | (dsimp only; split) | (apply kept_eq1; assumption) | (apply kept_eq2; assumption) | (with_reducible refine Keeps.upd ?_ rfl rfl rfl rfl rfl rfl rfl rfl rfl rfl rfl ?_) | exact fun h g => ⟨h, g⟩ | exact fun h g => ⟨Regs.wf_set _ _ h, g⟩ | exact fun h g => ⟨Regs.wf_set _ _ (Regs.wf_set _ _ h), g⟩ | exact fun h g => ⟨kept_setWords _ _ _ _ h, g⟩ | exact fun h _ => ⟨h, h⟩ | dsimp only | intro _)

theorem kept_State_slotOver {s0 s : State}  (hk : Keeps s0 s) : Keeps s0 (State.slotOver s) := by
  unfold State.slotOver
  repeat' (first | with_reducible assumption | (with_reducible first | apply kept_State_periodStart | apply kept_ite | apply kept_ite1 | apply kept_ite2 | apply kept_foldl) | split | (dsimp only; split) | (apply kept_eq1; assumption) | (apply kept_eq2; assumption) | (with_reducible refine Keeps.upd ?_ rfl rfl rfl rfl rfl rfl rfl rfl rfl rfl rfl ?_) | exact fun h g => ⟨h, g⟩ | exact fun h g => ⟨Regs.wf_set _ _ h, g⟩ | exact fun h g => ⟨Regs.wf_set _ _ (Regs.wf_set _ _ h), g⟩ | exact fun h g => ⟨kept_setWords _ _ _ _ h, g⟩ | exact fun h _ => ⟨h, h⟩ | dsimp only | intro _)

theorem kept_State_ftLook {s0 s : State}  (hk : Keeps s0 s) : Keeps s0 (State.ftLook s) := by
  unfold State.ftLook
  repeat' (first | with_reducible assumption | (with_reducible first | apply kept_State_itemDone | apply kept_ite | apply kept_ite1 | apply kept_ite2 | apply kept_foldl) | split | (dsimp only; split) | (apply kept_eq1; assumption) | (apply kept_eq2; assumption) | (with_reducible refine Keeps.upd ?_ rfl rfl rfl rfl rfl rfl rfl rfl rfl rfl rfl ?_) | exact fun h g => ⟨h, g⟩ | exact fun h g => ⟨Regs.wf_set _ _ h, g⟩ | exact fun h g => ⟨Regs.wf_set _ _ (Regs.wf_set _ _ h), g⟩ | exact fun h g => ⟨kept_setWords _ _ _ _ h, g⟩ | exact fun h _ => ⟨h, h⟩ | dsimp only | intro _)

theorem kept_State_ftExit {s0 s : State}  (hk : Keeps s0 s) : Keeps s0 (State.ftExit s) := by
  unfold State.ftExit
  repeat' (first | with_reducible assumption | (with_reducible first | apply kept_State_exitBegin | apply kept_ite | apply kept_ite1 | apply kept_ite2 | apply kept_foldl) | split | (dsimp only; split) | (apply kept_eq1; assumption) | (apply kept_eq2; assumption) | (with_reducible refine Keeps.upd ?_ rfl rfl rfl rfl rfl rfl rfl rfl rfl rfl rfl ?_) | exact fun h g => ⟨h, g⟩ | exact fun h g => ⟨Regs.wf_set _ _ h, g⟩ | exact fun h g => ⟨Regs.wf_set _ _ (Regs.wf_set _ _ h), g⟩ | exact fun h g => ⟨kept_setWords _ _ _ _ h, g⟩ | exact fun h _ => ⟨h, h⟩ | dsimp only | intro _)

end Machine
end Sys2Proof
end

