-- ==== Sys2Proof/Laws/KeepsCmds.lean ====
section
/-! SUPPORT. What the operations beside single commands keep. -/

set_option linter.unusedTactic false
set_option linter.unreachableTactic false
set_option linter.unusedSimpArgs false

namespace Sys2Proof
namespace Machine

theorem kept_State_blankCome {s0 s : State} {level : Bool} (hk : Keeps s0 s) : Keeps s0 (State.blankCome s level) := by
  unfold State.blankCome
  repeat' (first | with_reducible assumption | (with_reducible first | apply kept_State_countHc | apply kept_State_blankTake | apply kept_State_blankPin | apply kept_ite | apply kept_ite1 | apply kept_ite2 | apply kept_foldl) | split | (dsimp only; split) | (apply kept_eq1; assumption) | (apply kept_eq2; assumption) | (with_reducible refine Keeps.upd ?_ rfl rfl rfl rfl rfl rfl rfl rfl rfl rfl rfl ?_) | exact fun h g => ⟨h, g⟩ | exact fun h g => ⟨Regs.wf_set _ _ h, g⟩ | exact fun h g => ⟨Regs.wf_set _ _ (Regs.wf_set _ _ h), g⟩ | exact fun h g => ⟨kept_setWords _ _ _ _ h, g⟩ | exact fun h _ => ⟨h, h⟩ | dsimp only | intro _)

theorem kept_State_vsyncOp {s0 s : State}  (hk : Keeps s0 s) : Keeps s0 (State.vsyncOp s) := by
  unfold State.vsyncOp
  repeat' (first | with_reducible assumption | (with_reducible first | apply kept_State_vsyncTarget | apply kept_State_timerSource | apply kept_ite | apply kept_ite1 | apply kept_ite2 | apply kept_foldl) | split | (dsimp only; split) | (apply kept_eq1; assumption) | (apply kept_eq2; assumption) | (with_reducible refine Keeps.upd ?_ rfl rfl rfl rfl rfl rfl rfl rfl rfl rfl rfl ?_) | exact fun h g => ⟨h, g⟩ | exact fun h g => ⟨Regs.wf_set _ _ h, g⟩ | exact fun h g => ⟨Regs.wf_set _ _ (Regs.wf_set _ _ h), g⟩ | exact fun h g => ⟨kept_setWords _ _ _ _ h, g⟩ | exact fun h _ => ⟨h, h⟩ | dsimp only | intro _)

theorem kept_State_vsTake {s0 s : State}  (hk : Keeps s0 s) : Keeps s0 (State.vsTake s) := by
  unfold State.vsTake
  repeat' (first | with_reducible assumption | (with_reducible first | apply kept_ite | apply kept_ite1 | apply kept_ite2 | apply kept_foldl) | split | (dsimp only; split) | (apply kept_eq1; assumption) | (apply kept_eq2; assumption) | (with_reducible refine Keeps.upd ?_ rfl rfl rfl rfl rfl rfl rfl rfl rfl rfl rfl ?_) | exact fun h g => ⟨h, g⟩ | exact fun h g => ⟨Regs.wf_set _ _ h, g⟩ | exact fun h g => ⟨Regs.wf_set _ _ (Regs.wf_set _ _ h), g⟩ | exact fun h g => ⟨kept_setWords _ _ _ _ h, g⟩ | exact fun h _ => ⟨h, h⟩ | dsimp only | intro _)

theorem kept_State_selectionOp {s0 s : State}  (hk : Keeps s0 s) : Keeps s0 (State.selectionOp s) := by
  unfold State.selectionOp
  repeat' (first | with_reducible assumption | (with_reducible first | apply kept_State_imageTaken | apply kept_State_bankSelect | apply kept_ite | apply kept_ite1 | apply kept_ite2 | apply kept_foldl) | split | (dsimp only; split) | (apply kept_eq1; assumption) | (apply kept_eq2; assumption) | (with_reducible refine Keeps.upd ?_ rfl rfl rfl rfl rfl rfl rfl rfl rfl rfl rfl ?_) | exact fun h g => ⟨h, g⟩ | exact fun h g => ⟨Regs.wf_set _ _ h, g⟩ | exact fun h g => ⟨Regs.wf_set _ _ (Regs.wf_set _ _ h), g⟩ | exact fun h g => ⟨kept_setWords _ _ _ _ h, g⟩ | exact fun h _ => ⟨h, h⟩ | dsimp only | intro _)

theorem kept_State_presenceOp {s0 s : State}  (hk : Keeps s0 s) : Keeps s0 (State.presenceOp s) := by
  unfold State.presenceOp
  repeat' (first | with_reducible assumption | (with_reducible first | apply kept_State_stepCheck | apply kept_ite | apply kept_ite1 | apply kept_ite2 | apply kept_foldl) | split | (dsimp only; split) | (apply kept_eq1; assumption) | (apply kept_eq2; assumption) | (with_reducible refine Keeps.upd ?_ rfl rfl rfl rfl rfl rfl rfl rfl rfl rfl rfl ?_) | exact fun h g => ⟨h, g⟩ | exact fun h g => ⟨Regs.wf_set _ _ h, g⟩ | exact fun h g => ⟨Regs.wf_set _ _ (Regs.wf_set _ _ h), g⟩ | exact fun h g => ⟨kept_setWords _ _ _ _ h, g⟩ | exact fun h _ => ⟨h, h⟩ | dsimp only | intro _)

theorem kept_State_boundaryOp {s0 s : State} {m : Monitors} (hk : Keeps s0 s) : Keeps s0 (State.boundaryOp s m) := by
  unfold State.boundaryOp
  repeat' (first | with_reducible assumption | (with_reducible first | apply kept_State_boundary | apply kept_State_timerSource | apply kept_ite | apply kept_ite1 | apply kept_ite2 | apply kept_foldl) | split | (dsimp only; split) | (apply kept_eq1; assumption) | (apply kept_eq2; assumption) | (with_reducible refine Keeps.upd ?_ rfl rfl rfl rfl rfl rfl rfl rfl rfl rfl rfl ?_) | exact fun h g => ⟨h, g⟩ | exact fun h g => ⟨Regs.wf_set _ _ h, g⟩ | exact fun h g => ⟨Regs.wf_set _ _ (Regs.wf_set _ _ h), g⟩ | exact fun h g => ⟨kept_setWords _ _ _ _ h, g⟩ | exact fun h _ => ⟨h, h⟩ | dsimp only | intro _)

theorem kept_State_stopOp {s0 s : State} {inFlight : Bool} (hk : Keeps s0 s) : Keeps s0 (State.stopOp s inFlight) := by
  unfold State.stopOp
  repeat' (first | with_reducible assumption | (with_reducible first | apply kept_State_setFlagIf | apply kept_ite | apply kept_ite1 | apply kept_ite2 | apply kept_foldl) | split | (dsimp only; split) | (apply kept_eq1; assumption) | (apply kept_eq2; assumption) | (with_reducible refine Keeps.upd ?_ rfl rfl rfl rfl rfl rfl rfl rfl rfl rfl rfl ?_) | exact fun h g => ⟨h, g⟩ | exact fun h g => ⟨Regs.wf_set _ _ h, g⟩ | exact fun h g => ⟨Regs.wf_set _ _ (Regs.wf_set _ _ h), g⟩ | exact fun h g => ⟨kept_setWords _ _ _ _ h, g⟩ | exact fun h _ => ⟨h, h⟩ | dsimp only | intro _)

theorem kept_State_tripOp {s0 s : State}  (hk : Keeps s0 s) : Keeps s0 (State.tripOp s) := by
  unfold State.tripOp
  repeat' (first | with_reducible assumption | (with_reducible first | apply kept_ite | apply kept_ite1 | apply kept_ite2 | apply kept_foldl) | split | (dsimp only; split) | (apply kept_eq1; assumption) | (apply kept_eq2; assumption) | (with_reducible refine Keeps.upd ?_ rfl rfl rfl rfl rfl rfl rfl rfl rfl rfl rfl ?_) | exact fun h g => ⟨h, g⟩ | exact fun h g => ⟨Regs.wf_set _ _ h, g⟩ | exact fun h g => ⟨Regs.wf_set _ _ (Regs.wf_set _ _ h), g⟩ | exact fun h g => ⟨kept_setWords _ _ _ _ h, g⟩ | exact fun h _ => ⟨h, h⟩ | dsimp only | intro _)

theorem kept_State_resumeTime {s0 s : State} {apply : Bool} (hk : Keeps s0 s) : Keeps s0 (State.resumeTime s apply) := by
  unfold State.resumeTime
  repeat' (first | with_reducible assumption | (with_reducible first | apply kept_State_changeDeclaration | apply kept_State_advance | apply kept_State_writeAnchor | apply kept_State_setWide | apply kept_State_setReg | apply kept_ite | apply kept_ite1 | apply kept_ite2 | apply kept_foldl) | split | (dsimp only; split) | (apply kept_eq1; assumption) | (apply kept_eq2; assumption) | (with_reducible refine Keeps.upd ?_ rfl rfl rfl rfl rfl rfl rfl rfl rfl rfl rfl ?_) | exact fun h g => ⟨h, g⟩ | exact fun h g => ⟨Regs.wf_set _ _ h, g⟩ | exact fun h g => ⟨Regs.wf_set _ _ (Regs.wf_set _ _ h), g⟩ | exact fun h g => ⟨kept_setWords _ _ _ _ h, g⟩ | exact fun h _ => ⟨h, h⟩ | dsimp only | intro _)

theorem kept_State_resumeRelock {s0 s : State} {freeze : Bool} {relock : Bool} (hk : Keeps s0 s) : Keeps s0 (State.resumeRelock s freeze relock) := by
  unfold State.resumeRelock
  repeat' (first | with_reducible assumption | (with_reducible first | apply kept_State_shiftPeriod | apply kept_State_restartRelock | apply kept_State_unend | apply kept_State_freezeSlot | apply kept_ite | apply kept_ite1 | apply kept_ite2 | apply kept_foldl) | split | (dsimp only; split) | (apply kept_eq1; assumption) | (apply kept_eq2; assumption) | (with_reducible refine Keeps.upd ?_ rfl rfl rfl rfl rfl rfl rfl rfl rfl rfl rfl ?_) | exact fun h g => ⟨h, g⟩ | exact fun h g => ⟨Regs.wf_set _ _ h, g⟩ | exact fun h g => ⟨Regs.wf_set _ _ (Regs.wf_set _ _ h), g⟩ | exact fun h g => ⟨kept_setWords _ _ _ _ h, g⟩ | exact fun h _ => ⟨h, h⟩ | dsimp only | intro _)

theorem kept_State_resumeOp {s0 s : State}  (hk : Keeps s0 s) : Keeps s0 (State.resumeOp s) := by
  unfold State.resumeOp
  repeat' (first | with_reducible assumption | (with_reducible first | apply kept_State_resumeRelock | apply kept_State_resumeTime | apply kept_State_attnUpdate | apply kept_State_pinsFollow | apply kept_ite | apply kept_ite1 | apply kept_ite2 | apply kept_foldl) | split | (dsimp only; split) | (apply kept_eq1; assumption) | (apply kept_eq2; assumption) | (with_reducible refine Keeps.upd ?_ rfl rfl rfl rfl rfl rfl rfl rfl rfl rfl rfl ?_) | exact fun h g => ⟨h, g⟩ | exact fun h g => ⟨Regs.wf_set _ _ h, g⟩ | exact fun h g => ⟨Regs.wf_set _ _ (Regs.wf_set _ _ h), g⟩ | exact fun h g => ⟨kept_setWords _ _ _ _ h, g⟩ | exact fun h _ => ⟨h, h⟩ | dsimp only | intro _)

theorem kept_State_jumpOp {s0 s : State}  (hk : Keeps s0 s) : Keeps s0 (State.jumpOp s) := by
  unfold State.jumpOp
  repeat' (first | with_reducible assumption | (with_reducible first | apply kept_State_resumeRelock | apply kept_State_startRelock | apply kept_State_setUnc | apply kept_State_setReg | apply kept_ite | apply kept_ite1 | apply kept_ite2 | apply kept_foldl) | split | (dsimp only; split) | (apply kept_eq1; assumption) | (apply kept_eq2; assumption) | (with_reducible refine Keeps.upd ?_ rfl rfl rfl rfl rfl rfl rfl rfl rfl rfl rfl ?_) | exact fun h g => ⟨h, g⟩ | exact fun h g => ⟨Regs.wf_set _ _ h, g⟩ | exact fun h g => ⟨Regs.wf_set _ _ (Regs.wf_set _ _ h), g⟩ | exact fun h g => ⟨kept_setWords _ _ _ _ h, g⟩ | exact fun h _ => ⟨h, h⟩ | dsimp only | intro _)

theorem kept_State_measureStore {s0 s : State} {n : Nat} (hk : Keeps s0 s) : Keeps s0 (State.measureStore s n) := by
  unfold State.measureStore
  repeat' (first | with_reducible assumption | (with_reducible first | apply kept_State_setReg | apply kept_ite | apply kept_ite1 | apply kept_ite2 | apply kept_foldl) | split | (dsimp only; split) | (apply kept_eq1; assumption) | (apply kept_eq2; assumption) | (with_reducible refine Keeps.upd ?_ rfl rfl rfl rfl rfl rfl rfl rfl rfl rfl rfl ?_) | exact fun h g => ⟨h, g⟩ | exact fun h g => ⟨Regs.wf_set _ _ h, g⟩ | exact fun h g => ⟨Regs.wf_set _ _ (Regs.wf_set _ _ h), g⟩ | exact fun h g => ⟨kept_setWords _ _ _ _ h, g⟩ | exact fun h _ => ⟨h, h⟩ | dsimp only | intro _)

theorem kept_State_measureOp {s0 s : State} {n : Nat} (hk : Keeps s0 s) : Keeps s0 (State.measureOp s n) := by
  unfold State.measureOp
  repeat' (first | with_reducible assumption | (with_reducible first | apply kept_State_measureStore | apply kept_State_tickMeasure | apply kept_State_setReg | apply kept_ite | apply kept_ite1 | apply kept_ite2 | apply kept_foldl) | split | (dsimp only; split) | (apply kept_eq1; assumption) | (apply kept_eq2; assumption) | (with_reducible refine Keeps.upd ?_ rfl rfl rfl rfl rfl rfl rfl rfl rfl rfl rfl ?_) | exact fun h g => ⟨h, g⟩ | exact fun h g => ⟨Regs.wf_set _ _ h, g⟩ | exact fun h g => ⟨Regs.wf_set _ _ (Regs.wf_set _ _ h), g⟩ | exact fun h g => ⟨kept_setWords _ _ _ _ h, g⟩ | exact fun h _ => ⟨h, h⟩ | dsimp only | intro _)

theorem kept_State_firstEdge {s0 s : State}  (hk : Keeps s0 s) : Keeps s0 (State.firstEdge s) := by
  unfold State.firstEdge
  repeat' (first | with_reducible assumption | (with_reducible first | apply kept_State_startRelock | apply kept_ite | apply kept_ite1 | apply kept_ite2 | apply kept_foldl) | split | (dsimp only; split) | (apply kept_eq1; assumption) | (apply kept_eq2; assumption) | (with_reducible refine Keeps.upd ?_ rfl rfl rfl rfl rfl rfl rfl rfl rfl rfl rfl ?_) | exact fun h g => ⟨h, g⟩ | exact fun h g => ⟨Regs.wf_set _ _ h, g⟩ | exact fun h g => ⟨Regs.wf_set _ _ (Regs.wf_set _ _ h), g⟩ | exact fun h g => ⟨kept_setWords _ _ _ _ h, g⟩ | exact fun h _ => ⟨h, h⟩ | dsimp only | intro _)

theorem kept_State_regularNext {s0 s : State} {e : Nat} (hk : Keeps s0 s) : Keeps s0 (State.regularNext s e) := by
  unfold State.regularNext
  repeat' (first | with_reducible assumption | (with_reducible first | apply kept_State_afterEntry | apply kept_State_frameTail | apply kept_State_injStart | apply kept_ite | apply kept_ite1 | apply kept_ite2 | apply kept_foldl) | split | (dsimp only; split) | (apply kept_eq1; assumption) | (apply kept_eq2; assumption) | (with_reducible refine Keeps.upd ?_ rfl rfl rfl rfl rfl rfl rfl rfl rfl rfl rfl ?_) | exact fun h g => ⟨h, g⟩ | exact fun h g => ⟨Regs.wf_set _ _ h, g⟩ | exact fun h g => ⟨Regs.wf_set _ _ (Regs.wf_set _ _ h), g⟩ | exact fun h g => ⟨kept_setWords _ _ _ _ h, g⟩ | exact fun h _ => ⟨h, h⟩ | dsimp only | intro _)

theorem kept_State_calNext {s0 s : State} {d : SlotData} (hk : Keeps s0 s) : Keeps s0 (State.calNext s d) := by
  unfold State.calNext
  repeat' (first | with_reducible assumption | (with_reducible first | apply kept_State_bootStep6 | apply kept_State_startBaseline | apply kept_State_startSlot | apply kept_State_showCalRange | apply kept_State_calSlot | apply kept_ite | apply kept_ite1 | apply kept_ite2 | apply kept_foldl) | split | (dsimp only; split) | (apply kept_eq1; assumption) | (apply kept_eq2; assumption) | (with_reducible refine Keeps.upd ?_ rfl rfl rfl rfl rfl rfl rfl rfl rfl rfl rfl ?_) | exact fun h g => ⟨h, g⟩ | exact fun h g => ⟨Regs.wf_set _ _ h, g⟩ | exact fun h g => ⟨Regs.wf_set _ _ (Regs.wf_set _ _ h), g⟩ | exact fun h g => ⟨kept_setWords _ _ _ _ h, g⟩ | exact fun h _ => ⟨h, h⟩ | dsimp only | intro _)

theorem kept_State_slotRecords {s0 s : State} {k : SlotKind} {d : SlotData} (hk : Keeps s0 s) : Keeps s0 (State.slotRecords s k d) := by
  unfold State.slotRecords
  repeat' (first | with_reducible assumption | (with_reducible first | apply kept_State_emitPause | apply kept_State_showRanges | apply kept_State_visitEnd | apply kept_State_after | apply kept_State_setFlagIf | apply kept_ite | apply kept_ite1 | apply kept_ite2 | apply kept_foldl) | split | (dsimp only; split) | (apply kept_eq1; assumption) | (apply kept_eq2; assumption) | (with_reducible refine Keeps.upd ?_ rfl rfl rfl rfl rfl rfl rfl rfl rfl rfl rfl ?_) | exact fun h g => ⟨h, g⟩ | exact fun h g => ⟨Regs.wf_set _ _ h, g⟩ | exact fun h g => ⟨Regs.wf_set _ _ (Regs.wf_set _ _ h), g⟩ | exact fun h g => ⟨kept_setWords _ _ _ _ h, g⟩ | exact fun h _ => ⟨h, h⟩ | dsimp only | intro _)

theorem kept_State_slotClose {s0 s : State} {k : SlotKind} {d : SlotData} (hk : Keeps s0 s) : Keeps s0 (State.slotClose s k d) := by
  unfold State.slotClose
  repeat' (first | with_reducible assumption | (with_reducible first | apply kept_State_slotRecords | apply kept_State_calNext | apply kept_State_regularNext | apply kept_State_injSlotDone | apply kept_ite | apply kept_ite1 | apply kept_ite2 | apply kept_foldl) | split | (dsimp only; split) | (apply kept_eq1; assumption) | (apply kept_eq2; assumption) | (with_reducible refine Keeps.upd ?_ rfl rfl rfl rfl rfl rfl rfl rfl rfl rfl rfl ?_) | exact fun h g => ⟨h, g⟩ | exact fun h g => ⟨Regs.wf_set _ _ h, g⟩ | exact fun h g => ⟨Regs.wf_set _ _ (Regs.wf_set _ _ h), g⟩ | exact fun h g => ⟨kept_setWords _ _ _ _ h, g⟩ | exact fun h _ => ⟨h, h⟩ | dsimp only | intro _)

theorem kept_State_slotEndOp {s0 s : State} {d : SlotData} (hk : Keeps s0 s) : Keeps s0 (State.slotEndOp s d) := by
  unfold State.slotEndOp
  repeat' (first | with_reducible assumption | (with_reducible first | apply kept_State_slotClose | apply kept_ite | apply kept_ite1 | apply kept_ite2 | apply kept_foldl) | split | (dsimp only; split) | (apply kept_eq1; assumption) | (apply kept_eq2; assumption) | (with_reducible refine Keeps.upd ?_ rfl rfl rfl rfl rfl rfl rfl rfl rfl rfl rfl ?_) | exact fun h g => ⟨h, g⟩ | exact fun h g => ⟨Regs.wf_set _ _ h, g⟩ | exact fun h g => ⟨Regs.wf_set _ _ (Regs.wf_set _ _ h), g⟩ | exact fun h g => ⟨kept_setWords _ _ _ _ h, g⟩ | exact fun h _ => ⟨h, h⟩ | dsimp only | intro _)

theorem kept_State_tripNow {s0 s : State}  (hk : Keeps s0 s) : Keeps s0 (State.tripNow s) := by
  unfold State.tripNow
  repeat' (first | with_reducible assumption | (with_reducible first | apply kept_State_injTrigger | apply kept_State_replanSoon | apply kept_State_setFlag | apply kept_ite | apply kept_ite1 | apply kept_ite2 | apply kept_foldl) | split | (dsimp only; split) | (apply kept_eq1; assumption) | (apply kept_eq2; assumption) | (with_reducible refine Keeps.upd ?_ rfl rfl rfl rfl rfl rfl rfl rfl rfl rfl rfl ?_) | exact fun h g => ⟨h, g⟩ | exact fun h g => ⟨Regs.wf_set _ _ h, g⟩ | exact fun h g => ⟨Regs.wf_set _ _ (Regs.wf_set _ _ h), g⟩ | exact fun h g => ⟨kept_setWords _ _ _ _ h, g⟩ | exact fun h _ => ⟨h, h⟩ | dsimp only | intro _)

theorem kept_State_outputSeen {s0 s : State} {o : Output} (hk : Keeps s0 s) : Keeps s0 (State.outputSeen s o) :=
  kept_State_after (kept_State_outputCount hk)

theorem kept_State_outputsReady {s0 s : State}  (hk : Keeps s0 s) : Keeps s0 (State.outputsReady s) := by
  unfold State.outputsReady
  repeat' (first | with_reducible assumption | (with_reducible first | apply kept_State_outputSeen | apply kept_ite | apply kept_ite1 | apply kept_ite2 | apply kept_foldl) | split | (dsimp only; split) | (apply kept_eq1; assumption) | (apply kept_eq2; assumption) | (with_reducible refine Keeps.upd ?_ rfl rfl rfl rfl rfl rfl rfl rfl rfl rfl rfl ?_) | exact fun h g => ⟨h, g⟩ | exact fun h g => ⟨Regs.wf_set _ _ h, g⟩ | exact fun h g => ⟨Regs.wf_set _ _ (Regs.wf_set _ _ h), g⟩ | exact fun h g => ⟨kept_setWords _ _ _ _ h, g⟩ | exact fun h _ => ⟨h, h⟩ | dsimp only | intro _)

theorem kept_State_trellisNext {s0 s : State}  (hk : Keeps s0 s) : Keeps s0 (State.trellisNext s) := by
  unfold State.trellisNext
  repeat' (first | with_reducible assumption | (with_reducible first | apply kept_State_trellisProcess | apply kept_State_after | apply kept_ite | apply kept_ite1 | apply kept_ite2 | apply kept_foldl) | split | (dsimp only; split) | (apply kept_eq1; assumption) | (apply kept_eq2; assumption) | (with_reducible refine Keeps.upd ?_ rfl rfl rfl rfl rfl rfl rfl rfl rfl rfl rfl ?_) | exact fun h g => ⟨h, g⟩ | exact fun h g => ⟨Regs.wf_set _ _ h, g⟩ | exact fun h g => ⟨Regs.wf_set _ _ (Regs.wf_set _ _ h), g⟩ | exact fun h g => ⟨kept_setWords _ _ _ _ h, g⟩ | exact fun h _ => ⟨h, h⟩ | dsimp only | intro _)

theorem kept_State_stuckOpen {s0 s : State} {id : Nat} (hk : Keeps s0 s) : Keeps s0 (State.stuckOpen s id) := by
  unfold State.stuckOpen
  repeat' (first | with_reducible assumption | (with_reducible first | apply kept_State_stuckClose | apply kept_State_forceUps | apply kept_ite | apply kept_ite1 | apply kept_ite2 | apply kept_foldl) | split | (dsimp only; split) | (apply kept_eq1; assumption) | (apply kept_eq2; assumption) | (with_reducible refine Keeps.upd ?_ rfl rfl rfl rfl rfl rfl rfl rfl rfl rfl rfl ?_) | exact fun h g => ⟨h, g⟩ | exact fun h g => ⟨Regs.wf_set _ _ h, g⟩ | exact fun h g => ⟨Regs.wf_set _ _ (Regs.wf_set _ _ h), g⟩ | exact fun h g => ⟨kept_setWords _ _ _ _ h, g⟩ | exact fun h _ => ⟨h, h⟩ | dsimp only | intro _)

theorem kept_State_overload {s0 s : State} {drives : List Nat} (hk : Keeps s0 s) : Keeps s0 (State.overload s drives) := by
  unfold State.overload
  repeat' (first | with_reducible assumption | (with_reducible first | apply kept_State_setFlag | apply kept_State_setReg | apply kept_ite | apply kept_ite1 | apply kept_ite2 | apply kept_foldl) | split | (dsimp only; split) | (apply kept_eq1; assumption) | (apply kept_eq2; assumption) | (with_reducible refine Keeps.upd ?_ rfl rfl rfl rfl rfl rfl rfl rfl rfl rfl rfl ?_) | exact fun h g => ⟨h, g⟩ | exact fun h g => ⟨Regs.wf_set _ _ h, g⟩ | exact fun h g => ⟨Regs.wf_set _ _ (Regs.wf_set _ _ h), g⟩ | exact fun h g => ⟨kept_setWords _ _ _ _ h, g⟩ | exact fun h _ => ⟨h, h⟩ | dsimp only | intro _)

theorem kept_State_phaseStep {s0 s : State} {p : PowerPhase} {q : PowerPhase} (hk : Keeps s0 s) : Keeps s0 (State.phaseStep s p q) := by
  unfold State.phaseStep
  repeat' (first | with_reducible assumption | (with_reducible first | apply kept_ite | apply kept_ite1 | apply kept_ite2 | apply kept_foldl) | split | (dsimp only; split) | (apply kept_eq1; assumption) | (apply kept_eq2; assumption) | (with_reducible refine Keeps.upd ?_ rfl rfl rfl rfl rfl rfl rfl rfl rfl rfl rfl ?_) | exact fun h g => ⟨h, g⟩ | exact fun h g => ⟨Regs.wf_set _ _ h, g⟩ | exact fun h g => ⟨Regs.wf_set _ _ (Regs.wf_set _ _ h), g⟩ | exact fun h g => ⟨kept_setWords _ _ _ _ h, g⟩ | exact fun h _ => ⟨h, h⟩ | dsimp only | intro _)

theorem kept_State_wireFlag {s0 s : State} {bit : Nat} (hk : Keeps s0 s) : Keeps s0 (State.wireFlag s bit) := by
  unfold State.wireFlag
  repeat' (first | with_reducible assumption | (with_reducible first | apply kept_State_setFlagIf | apply kept_ite | apply kept_ite1 | apply kept_ite2 | apply kept_foldl) | split | (dsimp only; split) | (apply kept_eq1; assumption) | (apply kept_eq2; assumption) | (with_reducible refine Keeps.upd ?_ rfl rfl rfl rfl rfl rfl rfl rfl rfl rfl rfl ?_) | exact fun h g => ⟨h, g⟩ | exact fun h g => ⟨Regs.wf_set _ _ h, g⟩ | exact fun h g => ⟨Regs.wf_set _ _ (Regs.wf_set _ _ h), g⟩ | exact fun h g => ⟨kept_setWords _ _ _ _ h, g⟩ | exact fun h _ => ⟨h, h⟩ | dsimp only | intro _)

theorem kept_State_cycleOp {s0 s : State} {looks : List GangLook} (hk : Keeps s0 s) : Keeps s0 (State.cycleOp s looks) := by
  unfold State.cycleOp
  repeat' (first | with_reducible assumption | (with_reducible first | apply kept_State_skCycle | apply kept_ite | apply kept_ite1 | apply kept_ite2 | apply kept_foldl) | split | (dsimp only; split) | (apply kept_eq1; assumption) | (apply kept_eq2; assumption) | (with_reducible refine Keeps.upd ?_ rfl rfl rfl rfl rfl rfl rfl rfl rfl rfl rfl ?_) | exact fun h g => ⟨h, g⟩ | exact fun h g => ⟨Regs.wf_set _ _ h, g⟩ | exact fun h g => ⟨Regs.wf_set _ _ (Regs.wf_set _ _ h), g⟩ | exact fun h g => ⟨kept_setWords _ _ _ _ h, g⟩ | exact fun h _ => ⟨h, h⟩ | dsimp only | intro _)

theorem kept_State_wrapOp {s0 s : State} {t : Nat} (hk : Keeps s0 s) : Keeps s0 (State.wrapOp s t) := by
  unfold State.wrapOp
  repeat' (first | with_reducible assumption | (with_reducible first | apply kept_State_wrapEvents | apply kept_State_setTimer | apply kept_ite | apply kept_ite1 | apply kept_ite2 | apply kept_foldl) | split | (dsimp only; split) | (apply kept_eq1; assumption) | (apply kept_eq2; assumption) | (with_reducible refine Keeps.upd ?_ rfl rfl rfl rfl rfl rfl rfl rfl rfl rfl rfl ?_) | exact fun h g => ⟨h, g⟩ | exact fun h g => ⟨Regs.wf_set _ _ h, g⟩ | exact fun h g => ⟨Regs.wf_set _ _ (Regs.wf_set _ _ h), g⟩ | exact fun h g => ⟨kept_setWords _ _ _ _ h, g⟩ | exact fun h _ => ⟨h, h⟩ | dsimp only | intro _)

theorem kept_State_captureOp {s0 s : State} {t : Nat} (hk : Keeps s0 s) : Keeps s0 (State.captureOp s t) := by
  unfold State.captureOp
  repeat' (first | with_reducible assumption | (with_reducible first | apply kept_State_latch | apply kept_State_installCap | apply kept_ite | apply kept_ite1 | apply kept_ite2 | apply kept_foldl) | split | (dsimp only; split) | (apply kept_eq1; assumption) | (apply kept_eq2; assumption) | (with_reducible refine Keeps.upd ?_ rfl rfl rfl rfl rfl rfl rfl rfl rfl rfl rfl ?_) | exact fun h g => ⟨h, g⟩ | exact fun h g => ⟨Regs.wf_set _ _ h, g⟩ | exact fun h g => ⟨Regs.wf_set _ _ (Regs.wf_set _ _ h), g⟩ | exact fun h g => ⟨kept_setWords _ _ _ _ h, g⟩ | exact fun h _ => ⟨h, h⟩ | dsimp only | intro _)

theorem kept_State_measureStart {s0 s : State} {t : Nat} (hk : Keeps s0 s) : Keeps s0 (State.measureStart s t) := by
  unfold State.measureStart
  repeat' (first | with_reducible assumption | (with_reducible first | apply kept_State_setTimer | apply kept_ite | apply kept_ite1 | apply kept_ite2 | apply kept_foldl) | split | (dsimp only; split) | (apply kept_eq1; assumption) | (apply kept_eq2; assumption) | (with_reducible refine Keeps.upd ?_ rfl rfl rfl rfl rfl rfl rfl rfl rfl rfl rfl ?_) | exact fun h g => ⟨h, g⟩ | exact fun h g => ⟨Regs.wf_set _ _ h, g⟩ | exact fun h g => ⟨Regs.wf_set _ _ (Regs.wf_set _ _ h), g⟩ | exact fun h g => ⟨kept_setWords _ _ _ _ h, g⟩ | exact fun h _ => ⟨h, h⟩ | dsimp only | intro _)

theorem kept_State_measureStop {s0 s : State} {t : Nat} (hk : Keeps s0 s) : Keeps s0 (State.measureStop s t) := by
  unfold State.measureStop
  repeat' (first | with_reducible assumption | (with_reducible first | apply kept_State_setTimer | apply kept_ite | apply kept_ite1 | apply kept_ite2 | apply kept_foldl) | split | (dsimp only; split) | (apply kept_eq1; assumption) | (apply kept_eq2; assumption) | (with_reducible refine Keeps.upd ?_ rfl rfl rfl rfl rfl rfl rfl rfl rfl rfl rfl ?_) | exact fun h g => ⟨h, g⟩ | exact fun h g => ⟨Regs.wf_set _ _ h, g⟩ | exact fun h g => ⟨Regs.wf_set _ _ (Regs.wf_set _ _ h), g⟩ | exact fun h g => ⟨kept_setWords _ _ _ _ h, g⟩ | exact fun h _ => ⟨h, h⟩ | dsimp only | intro _)

end Machine
end Sys2Proof
end

