-- ==== Sys2Proof/Laws/Memory.lean ====
section
/-! SUPPORT. Every memory operation keeps the canonical form of the Shed's bytes and of core memory, and a read after a write
gives the byte written and every other byte as before. -/

namespace Sys2Proof
namespace Machine

theorem memWfFrom_put {m : List Host.Cell} {a : Nat} {v : Byte} (hv : v ≠ 0xFF) :
    ∀ lo : Option Nat, memWfFrom lo m = true → (∀ l, lo = some l → l < a) → memWfFrom lo (memPut m a v) = true := by
  induction m with
  | nil => intro lo _ hl; cases lo <;> simp_all [memPut, memWfFrom]
  | cons e t ih =>
    obtain ⟨b, w⟩ := e
    intro lo h hl
    simp only [memWfFrom, Bool.and_eq_true, decide_eq_true_eq] at h
    obtain ⟨⟨h1, h2⟩, h3⟩ := h
    unfold memPut
    split
    · cases lo <;> simp_all [memWfFrom]
    · split
      · subst a; cases lo <;> simp_all [memWfFrom]
      · have := ih (some b) h3 (by intro l hl'; cases hl'; omega)
        cases lo <;> simp_all [memWfFrom]

theorem memWfFrom_weaken {m : List Host.Cell} : ∀ (lo lo' : Option Nat), memWfFrom lo m = true →
    (∀ l', lo' = some l' → ∃ l, lo = some l ∧ l' ≤ l) → memWfFrom lo' m = true := by
  cases m with
  | nil => intros; rfl
  | cons e t =>
    obtain ⟨b, w⟩ := e
    intro lo lo' h hl
    cases lo' with
    | none => cases lo <;> simp_all [memWfFrom]
    | some l' =>
      obtain ⟨l, rfl, h'⟩ := hl l' rfl
      simp only [memWfFrom, Bool.and_eq_true, decide_eq_true_eq] at h ⊢
      exact ⟨⟨by omega, h.1.2⟩, h.2⟩

theorem memWfFrom_drop {m : List Host.Cell} {a : Nat} : ∀ lo : Option Nat, memWfFrom lo m = true →
    memWfFrom lo (memDrop m a) = true := by
  induction m with
  | nil => intro lo _; cases lo <;> rfl
  | cons e t ih =>
    obtain ⟨b, w⟩ := e
    intro lo h
    simp only [memWfFrom, Bool.and_eq_true, decide_eq_true_eq] at h
    unfold memDrop
    split
    · refine memWfFrom_weaken (some b) lo (ih _ h.2) ?_
      intro l' hl'; subst hl'; simp only [decide_eq_true_eq] at h; exact ⟨b, rfl, by omega⟩
    · simp only [memWfFrom, Bool.and_eq_true, decide_eq_true_eq]
      exact ⟨h.1, ih _ h.2⟩

theorem wf_memSet {m : List Host.Cell} (a : Nat) (v : Byte) (h : Memory.wf m = true) : Memory.wf (memSet m a v) = true := by
  unfold memSet
  split
  · exact memWfFrom_drop _ h
  · exact memWfFrom_put ‹_› _ h (by simp)

theorem wf_memSetAll (l : List Byte) : ∀ {m : List Host.Cell} {a : Nat}, Memory.wf m = true → Memory.wf (memSetAll m a l) = true := by
  induction l with
  | nil => intro m a h; exact h
  | cons v vs ih => intro m a h; exact ih (wf_memSet a v h)

theorem coreWf_put {m : List Host.Cell} {a : Nat} {v : Byte} :
    ∀ lo : Option Nat, coreWfFrom lo m = true → (∀ l, lo = some l → l < a) → coreWfFrom lo (corePut m a v) = true := by
  induction m with
  | nil => intro lo _ hl; cases lo <;> simp_all [corePut, coreWfFrom]
  | cons e t ih =>
    obtain ⟨b, w⟩ := e
    intro lo h hl
    simp only [coreWfFrom, Bool.and_eq_true] at h
    obtain ⟨h1, h3⟩ := h
    unfold corePut
    split
    · cases lo <;> simp_all [coreWfFrom]
    · split
      · subst a; cases lo <;> simp_all [coreWfFrom]
      · have := ih (some b) h3 (by intro l hl'; cases hl'; omega)
        cases lo <;> simp_all [coreWfFrom]

theorem coreWf_puts (l : List Word) : ∀ {m : List Host.Cell} {a : Nat}, coreWfFrom none m = true → coreWfFrom none (corePuts m a l) = true := by
  induction l with
  | nil => intro m a h; exact h
  | cons v vs ih => intro m a h; exact ih (coreWf_put none (coreWf_put none h (by simp)) (by simp))

/-! resets -/

theorem memGet_put (m : List Host.Cell) (a b : Nat) (v : Byte) : memGet (memPut m a v) b = if b = a then v else memGet m b := by
  induction m with
  | nil => simp [memPut, memGet, eq_comm]
  | cons e t ih =>
    obtain ⟨c, w⟩ := e
    unfold memPut
    split
    · simp only [memGet]; by_cases h : b = a
      · simp [h]
      · rw [if_neg (Ne.symm h), if_neg h]
    · split
      · subst a; simp only [memGet]; by_cases h : b = c <;> simp [h, eq_comm]
      · simp only [memGet, ih]; by_cases h : b = a <;> by_cases h' : c = b <;> simp_all

theorem memGet_drop (m : List Host.Cell) (a b : Nat) : memGet (memDrop m a) b = if b = a then 0xFF else memGet m b := by
  induction m with
  | nil => simp [memDrop, memGet]
  | cons e t ih =>
    obtain ⟨c, w⟩ := e
    unfold memDrop
    split
    · subst c; rw [ih]; simp only [memGet]; split <;> simp_all [eq_comm]
    · simp only [memGet, ih]; by_cases h : b = a <;> by_cases h' : c = b <;> simp_all

/-- A read after a write of one byte of the Shed. -/
theorem memGet_set (m : List Host.Cell) (a b : Nat) (v : Byte) : memGet (memSet m a v) b = if b = a then v else memGet m b := by
  unfold memSet
  split
  · rw [memGet_drop]; split <;> simp_all
  · exact memGet_put ..

/-- A read after a run of bytes is written from `a`. -/
theorem memGet_setAll (l : List Byte) : ∀ (m : List Host.Cell) (a b : Nat),
    memGet (memSetAll m a l) b = if a ≤ b ∧ b < a + l.length then l.getD (b - a) 0 else memGet m b := by
  induction l with
  | nil => intro m a b; simp [memSetAll]
  | cons v vs ih =>
    intro m a b
    rw [memSetAll, ih, memGet_set]
    by_cases h : b = a
    · subst h; simp
    · by_cases h1 : a + 1 ≤ b ∧ b < a + 1 + vs.length
      · rw [if_pos h1, if_pos (by simp; omega)]
        have : b - a = (b - (a + 1)) + 1 := by omega
        simp [this]
      · rw [if_neg h1, if_neg h, if_neg (by simp; omega)]

/-- A read after a write of one byte of core memory. -/
theorem coreGet_put (m : List Host.Cell) (a b : Nat) (v : Byte) : coreGet (corePut m a v) b = if b = a then v else coreGet m b := by
  induction m with
  | nil => simp [corePut, coreGet, eq_comm]
  | cons e t ih =>
    obtain ⟨c, w⟩ := e
    unfold corePut
    split
    · simp only [coreGet]; by_cases h : b = a
      · simp [h]
      · rw [if_neg (Ne.symm h), if_neg h]
    · split
      · subst a; simp only [coreGet]; by_cases h : b = c <;> simp [h, eq_comm]
      · simp only [coreGet, ih]; by_cases h : b = a <;> by_cases h' : c = b <;> simp_all

end Machine
end Sys2Proof
end

