-- ==== Sys2Proof/Laws/Holds.lean ====
section
/-! SUPPORT. What the operations of the link, of resets and of page programs keep: the invariant, the clock, the queue of
commands, the factory area, and the limit on notices. -/

set_option linter.unusedTactic false
set_option linter.unreachableTactic false
set_option linter.unusedSimpArgs false

namespace Sys2Proof
namespace Machine

theorem Keeps.inv {s t : State} (k : Keeps s t) (h : s.Inv) : t.Inv := by
  obtain ⟨h1, h2, h3, h4, h5, h6, h7, h8⟩ := h
  have hw := k.wf ⟨h1, h2⟩
  refine ⟨hw.1, hw.2, ?_, ?_, ?_, ?_, ?_, k.used h8⟩
  · rw [k.mem]; exact h3
  · rw [k.core]; exact h4
  · rw [k.wbuf]; exact h5
  · unfold State.notices at *; rw [k.resp]; exact h6
  · rw [k.cout]; exact h7

structure Holds (s t : State) : Prop where
  pending : t.pending = s.pending
  now : t.now = s.now
  ft : t.ft = s.ft
  fac : t.fac = s.fac
  mem : t.sh.mem = s.sh.mem
  notes : s.notices ≤ 8 → t.notices ≤ 8
  inv : s.Inv → t.Inv

theorem Keeps.holds {s t : State} (k : Keeps s t) : Holds s t := ⟨k.pending, k.now, k.ft, k.fac, k.mem, by unfold State.notices; rw [k.resp]; exact id, k.inv⟩
theorem Holds.refl (s : State) : Holds s s := ⟨rfl, rfl, rfl, rfl, rfl, id, id⟩
theorem Holds.trans {s t u : State} (a : Holds s t) (b : Holds t u) : Holds s u :=
  ⟨b.1.trans a.1, b.2.trans a.2, b.3.trans a.3, b.4.trans a.4, b.5.trans a.5, fun h => b.6 (a.6 h), fun h => b.7 (a.7 h)⟩
theorem Holds.keeps {s t u : State} (a : Holds s t) (b : Keeps t u) : Holds s u := a.trans b.holds
theorem Keeps.self {s t : State} (f : Keeps s s → Keeps s t) : Holds s t := (f (Keeps.refl s)).holds

theorem shedInterrupt_mem (s : State) : s.shedInterrupt.sh.mem = s.sh.mem := by
  unfold State.shedInterrupt; split <;> rfl

theorem kept_loadSeeds {s0 s : State} (hk : Keeps s0 s) : Keeps s0 s.loadSeeds := kept_State_loadSeeds hk

theorem holds_hardReset (s : State) (bit : Nat) (p : PowerPhase) (l : Bool) : Holds s (s.hardReset bit p l) := by
  unfold State.hardReset
  split
  · exact .refl s
  · have k := kept_loadSeeds (kept_State_setReg (a := 0x020E) (v := w16 (2 ^ bit)) (Keeps.refl (State.mk s.pending [] s.now s.ft s.shedInterrupt.free [] [] [] { State.reset.pw with phase := p, limit := l, vphLow := s.pw.vphLow, warm := s.pw.warm, lastReset := some (s.now, s.ft, bit) } State.reset.clk State.reset.tb { State.reset.ms with refIn := s.ms.refIn } State.reset.link State.reset.rq { State.reset.scan with blkBall := s.scan.blkBall, vsBall := s.scan.vsBall } State.reset.inj State.reset.tone State.reset.sv State.reset.cl State.reset.tr State.reset.sk State.reset.tm State.reset.gg State.reset.ca State.reset.dg { State.reset.sh with mem := s.shedInterrupt.sh.mem, torn := s.shedInterrupt.sh.torn } s.fac [])))
    refine Holds.trans (t := State.mk s.pending [] s.now s.ft s.shedInterrupt.free [] [] [] { State.reset.pw with phase := p, limit := l, vphLow := s.pw.vphLow, warm := s.pw.warm, lastReset := some (s.now, s.ft, bit) } State.reset.clk State.reset.tb { State.reset.ms with refIn := s.ms.refIn } State.reset.link State.reset.rq { State.reset.scan with blkBall := s.scan.blkBall, vsBall := s.scan.vsBall } State.reset.inj State.reset.tone State.reset.sv State.reset.cl State.reset.tr State.reset.sk State.reset.tm State.reset.gg State.reset.ca State.reset.dg { State.reset.sh with mem := s.shedInterrupt.sh.mem, torn := s.shedInterrupt.sh.torn } s.fac []) ⟨rfl, rfl, rfl, rfl, shedInterrupt_mem s, fun _ => Nat.zero_le 8, fun h => ?_⟩ ?_
    swap
    · exact Keeps.self fun hk => kept_loadSeeds (kept_State_setReg hk)
    obtain ⟨_, _, h3, _⟩ := h
    exact ⟨rfl, rfl, (shedInterrupt_mem s).symm ▸ h3, rfl, Nat.zero_le 16, Nat.zero_le 8, Nat.zero_le 65535, Nat.zero_le 64⟩

theorem holds_thermalOp (s : State) : Holds s s.thermalOp := by
  unfold State.thermalOp
  split
  · exact .refl s
  · split
    · refine Keeps.self fun hk => ?_
      dsimp only
      split
      · exact kept_State_after (Keeps.upd hk rfl rfl rfl rfl rfl rfl rfl rfl rfl rfl rfl fun h g => ⟨h, g⟩)
      · exact Keeps.upd hk rfl rfl rfl rfl rfl rfl rfl rfl rfl rfl rfl fun h g => ⟨h, g⟩
    · exact holds_hardReset ..

theorem holds_deferredShutdown (s : State) : Holds s s.deferredShutdown := by
  unfold State.deferredShutdown; split
  · exact holds_hardReset ..
  · exact .refl s

/-! link -/
def notesOf (l : List Resp) : Nat := (l.filter (fun (r : Resp) => decide (r.kind = RespKind.notice))).length

theorem inv_iff (s : State) : s.Inv ↔ (wf2 s ∧ Memory.wf s.sh.mem = true ∧ coreWfFrom none s.core = true ∧ s.link.wbuf.length ≤ 16 ∧
    notesOf s.link.resp ≤ 8 ∧ s.rq.cout ≤ 65535 ∧ s.rq.used ≤ 64) := by
  unfold State.Inv wf2 State.notices notesOf; tauto

theorem holds_of_notes {s t : State} (h1 : t.pending = s.pending) (h2 : t.now = s.now) (h3 : t.ft = s.ft) (h4 : t.fac = s.fac)
    (h5 : t.sh.mem = s.sh.mem) (h6 : t.core = s.core) (h7 : s.link.wbuf.length ≤ 16 → t.link.wbuf.length ≤ 16) (h8 : t.rq.cout = s.rq.cout)
    (h9 : s.rq.used ≤ 64 → t.rq.used ≤ 64) (h10 : wf2 s → wf2 t) (hn : notesOf s.link.resp ≤ 8 → notesOf t.link.resp ≤ 8) : Holds s t :=
  ⟨h1, h2, h3, h4, h5, hn, fun hs => by
    rw [inv_iff] at hs ⊢
    obtain ⟨a, b, c, d, e, f, g⟩ := hs
    exact ⟨h10 a, h5 ▸ b, h6 ▸ c, h7 d, hn e, h8 ▸ f, h9 g⟩⟩

theorem holds_addReady {s : State} {r : Resp} {h : Nat} (hr : r.kind ≠ .notice ∨ notesOf s.link.resp < 8) : Holds s (s.addReady r h) := by
  unfold State.addReady
  refine Holds.keeps ?_ (kept_State_after (Keeps.refl _))
  refine holds_of_notes rfl rfl rfl rfl rfl rfl id rfl id id fun e => ?_
  simp only [notesOf, List.filter_append, List.length_append] at e hr ⊢
  by_cases hk : r.kind = .notice
  · simp [hk] at hr ⊢; omega
  · simp [hk]; omega

theorem holds_notice (s : State) (r t : Nat) (h1 : Word) (fl : Nat) : Holds s (s.notice r t h1 fl) := by
  unfold State.notice
  split
  · exact Keeps.self fun hk => kept_State_setFlag hk
  · rename_i h
    have k := kept_State_setFlag (page := 1) (bit := fl) (Keeps.refl s)
    refine k.holds.trans (holds_addReady (.inr ?_))
    rw [k.resp]; unfold State.notices at h; unfold notesOf; omega

theorem holds_nak (s : State) (f : Frame) (r : Nat) : Holds s (s.nak f r) := (kept_State_setReg (Keeps.refl s)).holds.trans (holds_notice ..)
theorem holds_busy (s : State) (f : Frame) : Holds s (s.busy f) := holds_notice ..

theorem holds_checked {s : State} {op : Op} {f : Frame} {act : State → State} (ha : ∀ u : State, u.noRoom op f = false → Holds u (act u)) :
    Holds s (s.checked op f act) := by
  unfold State.checked
  split
  · exact holds_busy ..
  · split
    · exact holds_nak ..
    · split
      · exact holds_busy ..
      · rename_i h
        have h : s.noRoom op f = false := by simpa using h
        split
        · exact (kept_State_dropCopy (Keeps.refl s)).holds.trans (ha _ h)
        · exact ha s h

theorem holds_answer (s : State) (r t : Nat) (h1 : Word) (p : List Word) (d : Nat) : Holds s (s.answer r t h1 p d) := by
  unfold State.answer; exact holds_addReady (.inl nofun)
theorem holds_ack (s : State) (op : Op) (f : Frame) (p : List Word) (d : Nat) : Holds s (s.ack op f p d) := holds_answer ..

theorem holds_resp {s : State} {l : List Resp} (hl : notesOf l = notesOf s.link.resp) : Holds s { s with link := { s.link with resp := l } } :=
  holds_of_notes rfl rfl rfl rfl rfl rfl id rfl id id fun e => by simpa [hl] using e

theorem notesOf_append (l m : List Resp) : notesOf (l ++ m) = notesOf l + notesOf m := by simp [notesOf, List.filter_append]

theorem holds_readOp (s : State) (f : Frame) : Holds s (s.readOp f) := by
  unfold State.readOp
  dsimp only
  split
  · have h1 := kept_State_readWords (l := spanAddrs f.h1 f.count f.inc) (Keeps.refl s)
    generalize State.readWords s _ = e at h1 ⊢
    obtain ⟨ws, s'⟩ := e
    exact h1.holds.trans (holds_answer ..)
  · refine holds_resp ?_
    rw [notesOf_append]; rfl

theorem postedOf_length (a : Word) (inc : Bool) (ws : List Word) : (postedOf a inc ws).length = ws.length := by
  simp [postedOf]

theorem holds_wbuf {s : State} {l : List Posted} {ap : Nat} (hl : s.link.wbuf.length ≤ 16 → l.length ≤ 16) :
    Holds s { s with link := { s.link with wbuf := l, applyAt := ap } } := by
  refine ⟨rfl, rfl, rfl, rfl, rfl, id, fun h => ?_⟩
  rw [inv_iff] at h ⊢
  obtain ⟨a, b, c, d, e, f, g⟩ := h
  exact ⟨a, b, c, hl d, e, f, g⟩

theorem holds_postWords {s : State} {ps : List Posted} {n : Nat} (h : s.link.wbuf.length ≤ 16 → ps.length + s.link.wbuf.length ≤ 16) :
    Holds s (s.postWords ps n) := by
  unfold State.postWords
  split
  · rename_i he
    have he : s.link.wbuf = [] := by simpa using he
    exact (holds_wbuf fun _ => by simp [he] at h; omega).keeps (kept_State_after (Keeps.refl _))
  · exact holds_wbuf (ap := s.link.applyAt) fun g => by have := h g; simp only [List.length_append]; omega

theorem holds_hostWrite (s : State) (a v : Word) : Holds s (s.hostWrite a v) := by
  unfold State.hostWrite
  split
  · exact .refl s
  · split
    · split
      · exact holds_postWords fun _ => by simp only [List.length_singleton]; omega
      · exact .refl s
    · exact Keeps.self fun hk => kept_State_writeWord hk

/-- The words of an accepted WRITE or WRITEA fit the buffer. -/
theorem room_of {s : State} {op : Op} {f : Frame} (ho : op = .write ∨ op = .writea) (h : s.noRoom op f = false) :
    s.link.wbuf.length ≤ 16 → (postedOf f.h1 f.inc (f.payload.take f.count)).length + s.link.wbuf.length ≤ 16 := by
  intro hl
  rw [postedOf_length, List.length_take]
  have : ¬ s.wfree < f.count := by rcases ho with rfl | rfl <;> simpa [State.noRoom] using h
  simp only [State.wfree] at this
  omega

theorem holds_writeOp {s : State} {f : Frame} (h : s.noRoom .write f = false) : Holds s (s.writeOp f) :=
  Holds.trans (t := { s with link := { s.link with wacc := (s.link.wacc + 1) % 256 } }) ⟨rfl, rfl, rfl, rfl, rfl, id, id⟩
    (holds_postWords (room_of (.inl rfl) h))

theorem holds_writeaOp {s : State} {f : Frame} (h : s.noRoom .writea f = false) : Holds s (s.writeaOp f) := by
  unfold State.writeaOp
  refine Holds.trans (t := s.postWords (postedOf f.h1 f.inc (f.payload.take f.count)) 3) (holds_postWords (room_of (.inr rfl) h)) ?_
  refine holds_resp ?_
  rw [notesOf_append]; rfl

/-- what respStep does to kinds: it appends one response of the same kind -/
theorem respStep_spec (s : State) (r : Resp) : ∃ s' r', Keeps s s' ∧ r'.kind = r.kind ∧
    (s.respStep r) = { s' with link := { s'.link with resp := s'.link.resp ++ [r'] } } ∨
    ∃ s' r', Keeps s s' ∧ r'.kind = r.kind ∧ ∃ h, (s.respStep r) = State.addReady s' r' h := by
  unfold State.respStep
  split
  · exact ⟨s, r, .inl ⟨.refl s, rfl, rfl⟩⟩
  · split
    · exact ⟨s, { r with after := r.after - 1 }, .inl ⟨.refl s, rfl, rfl⟩⟩
    · split
      · rename_i q hq
        have h1 := kept_State_readWords (l := spanAddrs q.addr q.count q.inc) (Keeps.refl s)
        generalize State.readWords s _ = e at h1 ⊢
        obtain ⟨ws, s'⟩ := e
        exact ⟨s, r, .inr ⟨s', { r with after := 0, payload := ws, read := none }, h1, rfl, _, rfl⟩⟩
      · exact ⟨s, r, .inr ⟨s, { r with after := 0 }, .refl s, rfl, _, rfl⟩⟩

structure Steps (s t : State) (n : Nat) : Prop where
  pending : t.pending = s.pending
  now : t.now = s.now
  ft : t.ft = s.ft
  fac : t.fac = s.fac
  mem : t.sh.mem = s.sh.mem
  core : t.core = s.core
  wbuf : t.link.wbuf = s.link.wbuf
  cout : t.rq.cout = s.rq.cout
  used : s.rq.used ≤ 64 → t.rq.used ≤ 64
  wf : wf2 s → wf2 t
  notes : notesOf t.link.resp = notesOf s.link.resp + n

theorem steps_respStep (s : State) (r : Resp) : Steps s (s.respStep r) (if r.kind = .notice then 1 else 0) := by
  have hn : ∀ r' : Resp, r'.kind = r.kind → notesOf [r'] = if r.kind = .notice then 1 else 0 := by
    intro r' h; simp only [notesOf, List.filter, h]; split <;> simp_all
  obtain ⟨s', r', h | h⟩ := respStep_spec s r
  · obtain ⟨k, hk, e⟩ := h
    rw [e]
    exact ⟨k.pending, k.now, k.ft, k.fac, k.mem, k.core, k.wbuf, k.cout, k.used, k.wf, by simp only [notesOf_append, hn r' hk, k.resp]⟩
  · obtain ⟨s', r', k, hk, h, e⟩ := h
    rw [e]
    exact ⟨k.pending, k.now, k.ft, k.fac, k.mem, k.core, k.wbuf, k.cout, k.used, k.wf, by
      have : (State.addReady s' r' h).link.resp = s'.link.resp ++ [{ r' with ready := some h }] := rfl
      rw [this, notesOf_append, hn { r' with ready := some h } hk, k.resp]⟩

theorem steps_foldl (l : List Resp) : ∀ s : State, Steps s (l.foldl State.respStep s) (notesOf l) := by
  induction l with
  | nil => intro s; exact ⟨rfl, rfl, rfl, rfl, rfl, rfl, rfl, rfl, id, id, rfl⟩
  | cons r t ih =>
    intro s
    have a := steps_respStep s r
    have b := ih (s.respStep r)
    have hn : notesOf (r :: t) = (if r.kind = .notice then 1 else 0) + notesOf t := by
      simp only [notesOf, List.filter]; split <;> simp_all; omega
    rw [List.foldl_cons]
    exact ⟨b.1.trans a.1, b.2.trans a.2, b.3.trans a.3, b.4.trans a.4, b.5.trans a.5, b.6.trans a.6, b.7.trans a.7, b.8.trans a.8, fun h => b.used (a.used h), fun h => b.wf (a.wf h), by
      rw [b.notes, a.notes, hn]; omega⟩

theorem steps_respSteps (s : State) : Steps s s.respSteps 0 := by
  have a := steps_foldl s.link.resp { s with link := { s.link with resp := [] } }
  exact ⟨a.1, a.2, a.3, a.4, a.5, a.6, a.7, a.8, a.used, a.wf, a.notes.trans (by simp [notesOf])⟩

theorem Steps.holds {s t : State} (a : Steps s t 0) : Holds s t :=
  holds_of_notes a.pending a.now a.ft a.fac a.mem a.core (fun h => a.wbuf ▸ h) a.cout a.used a.wf fun e => by rw [a.notes]; omega

theorem holds_postedApply (s : State) : Holds s s.postedApply := by
  unfold State.postedApply
  split
  · exact .refl s
  · rename_i p rest hw
    split
    · exact .refl s
    · split
      · exact Keeps.self fun hk => kept_State_after (Keeps.upd hk rfl rfl rfl rfl rfl rfl rfl rfl rfl rfl rfl fun h g => ⟨h, g⟩)
      · have h1 : Holds s ((({ s with link := { s.link with wbuf := rest, applyAt := s.now + 4 } } : State).applyPosted p).respSteps) :=
          ((holds_wbuf fun h => by rw [hw] at h; simp at h; omega).keeps (kept_State_applyPosted (Keeps.refl _))).trans (steps_respSteps _).holds
        dsimp only
        split
        · exact h1
        · exact h1.keeps (kept_State_after (Keeps.refl _))

theorem holds_creditOp (s : State) (n : Nat) : Holds s (s.creditOp n) := by
  unfold State.creditOp
  refine Holds.trans ?_ (kept_State_setFlagIf (Keeps.refl _)).holds
  refine ⟨rfl, rfl, rfl, rfl, rfl, id, fun h => ?_⟩
  rw [inv_iff] at h ⊢
  obtain ⟨a, b, c, d, e, f, g⟩ := h
  exact ⟨a, b, c, d, e, by dsimp only; omega, g⟩

theorem holds_resendOp (s : State) (f : Frame) : Holds s (s.resendOp f) := by
  unfold State.resendOp
  split
  · exact holds_nak ..
  · split
    · exact holds_addReady (.inl nofun)
    · exact holds_nak ..

theorem holds_tsyncOp (s : State) (f : Frame) : Holds s (s.tsyncOp f) := (holds_ack ..).keeps (kept_State_timeSync (Keeps.refl _))

theorem holds_rebaseOp (s : State) (f : Frame) : Holds s (s.rebaseOp f) := by
  unfold State.rebaseOp
  refine Holds.trans ?_ (holds_ack ..)
  refine Keeps.self fun hk => ?_
  refine kept_State_after (kept_State_setReg ?_)
  exact Keeps.upd (kept_State_timeRebase (kept_State_setReg (kept_State_forceAll hk))) rfl rfl rfl rfl rfl rfl rfl rfl rfl rfl rfl fun h g => ⟨h, g⟩

theorem holds_dbgAck (s : State) (f : Frame) : Holds s (s.dbgAck f) := holds_ack ..
theorem holds_haltOp (s : State) (f : Frame) : Holds s (s.haltOp f) :=
  Holds.trans (t := { s with ms := { s.ms with halted := true } }) ⟨rfl, rfl, rfl, rfl, rfl, id, id⟩ (holds_dbgAck _ f)
theorem holds_runOp (s : State) (f : Frame) : Holds s (s.runOp f) :=
  Holds.trans (t := { s with ms := { s.ms with debugUps := s.ms.debugUps || s.ms.halted, halted := false } }) ⟨rfl, rfl, rfl, rfl, rfl, id, id⟩ (holds_dbgAck _ f)
theorem holds_stepOp (s : State) (f : Frame) : Holds s (s.stepOp f) :=
  Holds.trans (t := { s with ms := { s.ms with debugUps := s.ms.debugUps || s.ms.halted, halted := true, stepAt := some s.now } }) ⟨rfl, rfl, rfl, rfl, rfl, id, id⟩ (holds_dbgAck _ f)
theorem holds_dbgrdOp (s : State) (f : Frame) : Holds s (s.dbgrdOp f) := holds_answer ..
theorem holds_dbgwrOp (s : State) (f : Frame) : Holds s (s.dbgwrOp f) := by
  refine Holds.trans (t := { s with core := corePuts s.core f.coreAddr (f.payload.drop 2) }) ⟨rfl, rfl, rfl, rfl, rfl, id, fun h => ?_⟩ (holds_ack ..)
  rw [inv_iff] at h ⊢
  obtain ⟨a, b, c, d, e, f, g⟩ := h
  exact ⟨a, b, coreWf_puts _ c, d, e, f, g⟩

theorem holds_abortWord (s : State) : Holds s s.abortWord := by
  unfold State.abortWord
  split
  · rename_i p rest hw
    split
    · exact (holds_wbuf (ap := s.link.applyAt) fun h => by rw [hw] at h; simp at h; omega).keeps (kept_State_applyPosted (Keeps.refl _))
    · exact .refl s
  · exact .refl s

theorem holds_abortOp (s : State) : Holds s s.abortOp := by
  unfold State.abortOp
  refine (holds_abortWord s).trans ?_
  generalize s.abortWord = u
  refine Holds.trans ((kept_State_unschedule (p := fun i => decide (i = Instr.postedWordApply)) (Keeps.refl u)).holds) ?_
  generalize State.unschedule u _ = v
  dsimp only
  refine Holds.trans ?_ (kept_State_setFlag (kept_State_addSat (Keeps.refl _))).holds
  exact holds_of_notes rfl rfl rfl rfl rfl rfl (fun _ => Nat.zero_le _) rfl id id fun _ => by simp [notesOf]

/-- An accepted request, whatever its opcode. -/
theorem holds_act {s : State} {op : Op} {f : Frame} (h : s.noRoom op f = false) : Holds s (s.act op f) := by
  have hc : Holds s s.countHc := (kept_State_countHc (Keeps.refl s)).holds
  cases op with
  | read => exact holds_readOp s f
  | write => exact holds_writeOp h
  | writea => exact holds_writeaOp h
  | grant => exact (kept_State_grantOp (Keeps.refl s)).holds
  | credit => exact holds_creditOp s _
  | resend => exact holds_resendOp s f
  | tsync => exact hc.trans (holds_tsyncOp _ f)
  | rebase => exact hc.trans (holds_rebaseOp _ f)
  | dbgctl =>
    show Holds s (if f.h1 = 1 then s.haltOp f else if f.h1 = 2 then s.runOp f else if f.h1 = 3 then s.stepOp f else s.dbgAck f)
    split
    · exact holds_haltOp s f
    · split
      · exact holds_runOp s f
      · split
        · exact holds_stepOp s f
        · exact holds_dbgAck s f
  | dbgrd => exact holds_dbgrdOp s f
  | dbgwr => exact holds_dbgwrOp s f
  | abort => exact holds_abortOp s

/-- A frame from the host, whatever it asks for. -/
theorem holds_request (s : State) (f : Frame) : Holds s (s.request f) := by
  unfold State.request
  split
  · exact .refl s
  · split
    · exact Keeps.self fun hk => kept_State_addSat (kept_State_setFlag hk)
    · have k := (kept_State_firstRequest (Keeps.refl s)).holds
      split
      · exact k.trans (holds_nak ..)
      · exact k.trans (holds_checked fun _ h => holds_act h)

theorem holds_responseReadyOp (s : State) : Holds s s.responseReadyOp := by
  refine holds_resp ?_
  have : ∀ l : List Resp, notesOf (l.map (fun r => if r.ready.any (fun h => decide (h ≤ s.now)) then { r with shown := true } else r)) = notesOf l := by
    intro l
    induction l with
    | nil => rfl
    | cons r t ih =>
      simp only [notesOf, List.map_cons, List.filter_cons] at ih ⊢
      have hk : (if r.ready.any (fun h => decide (h ≤ s.now)) then { r with shown := true } else r).kind = r.kind := by split <;> rfl
      rw [hk]; split <;> simp [ih]
  exact this _

/-! turns -/
theorem holds_turnFrame (s : State) (t : Turn) : Holds s (s.turnFrame t) := by
  unfold State.turnFrame
  have sf : ∀ (u : State) (d : DevFrame), Holds u (u.sendFrame t d) := fun u d => (kept_State_sendFrame (Keeps.refl u)).holds
  split
  · exact sf _ _
  · split
    · exact sf _ _
    · split
      · rename_i r rest he
        dsimp only
        split
        · refine Holds.trans ?_ (sf _ _)
          refine ⟨rfl, rfl, rfl, rfl, rfl, id, fun h => ?_⟩
          rw [inv_iff] at h ⊢
          obtain ⟨a, b, c, d, e, f, g⟩ := h
          refine ⟨a, b, c, d, e, by dsimp only; omega, ?_⟩
          simp only [Queue.used, he, List.length_cons] at g ⊢
          simp [b2n]; omega
        · exact sf _ _
      · exact sf _ _

theorem holds_reportDone (s : State) (d : DevFrame) : Holds s (s.reportDone d) := by
  unfold State.reportDone
  refine Holds.trans ?_ (kept_State_refill (kept_State_replayCheck (Keeps.refl _))).holds
  refine ⟨rfl, rfl, rfl, rfl, rfl, id, fun h => ?_⟩
  rw [inv_iff] at h ⊢
  obtain ⟨a, b, c, d, e, f, g⟩ := h
  refine ⟨a, b, c, d, e, f, ?_⟩
  simp only [Queue.used] at g ⊢
  simp [b2n]; omega

theorem holds_responseDone (s : State) (t : Turn) (d : DevFrame) : Holds s (s.responseDone t d) := by
  unfold State.responseDone
  split
  · dsimp only
    refine holds_of_notes rfl rfl rfl rfl rfl rfl id rfl id id fun e => ?_
    exact le_trans (List.Sublist.filter _ (List.eraseIdx_sublist ..)).length_le e
  · exact .refl s

theorem holds_frameDone (s : State) (t : Turn) (d : DevFrame) : Holds s (s.frameDone t d) := by
  unfold State.frameDone
  refine Holds.trans (t := { s with link := { s.link with turn := some { t with done := true } } }) ⟨rfl, rfl, rfl, rfl, rfl, id, id⟩ ?_
  dsimp only
  split
  · exact (kept_State_turnOver (Keeps.refl _)).holds
  · split
    · split
      · exact (kept_State_replayDone (Keeps.refl _)).holds
      · exact holds_reportDone ..
    · exact holds_responseDone ..

theorem holds_turnTick (s : State) : Holds s s.turnTick := by
  unfold State.turnTick
  split
  · exact .refl s
  · split
    · exact holds_turnFrame ..
    · split
      · exact holds_frameDone ..
      · exact .refl s

/-! Shed -/
structure Held (s t : State) : Prop where
  pending : t.pending = s.pending
  now : t.now = s.now
  ft : t.ft = s.ft
  fac : t.fac = s.fac
  notes : s.notices ≤ 8 → t.notices ≤ 8
  inv : s.Inv → t.Inv

theorem Held.keeps {s t u : State} (h : Held s t) (k : Keeps t u) : Held s u :=
  ⟨k.pending.trans h.1, k.now.trans h.2, k.ft.trans h.3, k.fac.trans h.4, fun i => k.holds.notes (h.5 i), fun i => k.inv (h.6 i)⟩

theorem shedPageEnd_spec (s : State) (j : Job) (rest : List Job) : Held s (s.shedPageEnd j rest) := by
  have base : Held s { s with sh := { s.sh.program j with jobs := rest, jobAt := none } } := by
    refine ⟨rfl, rfl, rfl, rfl, id, fun h => ?_⟩
    rw [inv_iff] at h ⊢
    obtain ⟨a, b, c, d, e, f, g⟩ := h
    exact ⟨a, wf_memSetAll _ b, c, d, e, f, g⟩
  unfold State.shedPageEnd
  dsimp only
  split
  · exact base
  · exact base.keeps (kept_State_shedReadback (kept_State_setWide (Keeps.refl _)))
  · split
    · exact base.keeps (kept_State_setWide (Keeps.refl _))
    · exact base.keeps (kept_State_forgetDone (kept_State_setWide (Keeps.refl _)))
  · split
    · exact base.keeps (kept_State_setWide (Keeps.refl _))
    · exact base
  · split
    · exact base.keeps (kept_State_setWide (Keeps.refl _))
    · exact base

theorem holds_pageAfter (s : State) (k : JobKind) : Holds s (s.pageAfter k) := by
  unfold State.pageAfter
  split
  · exact Holds.trans (t := { s with sh := { s.sh with jobs := [] } }) ⟨rfl, rfl, rfl, rfl, rfl, id, id⟩ (holds_deferredShutdown _)
  · refine Keeps.self fun hk => ?_
    dsimp only
    have h1 : Keeps s (if k = .boot then s.presenceOp else s) := by split; exact kept_State_presenceOp hk; exact hk
    generalize (if k = .boot then s.presenceOp else s) = u at h1 ⊢
    have h2 : Keeps s (if u.dormantWaits = true then u.enterDormant else u) := by split; exact kept_State_enterDormant h1; exact h1
    generalize (if u.dormantWaits = true then u.enterDormant else u) = w at h2 ⊢
    split
    · exact h2
    · exact kept_State_shedStart h2

theorem pageDone_spec (s : State) : Held s s.pageDone := by
  unfold State.pageDone
  split
  · exact ⟨rfl, rfl, rfl, rfl, id, id⟩
  · split
    · exact ⟨rfl, rfl, rfl, rfl, id, id⟩
    · have a := shedPageEnd_spec s ‹_› ‹_›
      have b := holds_pageAfter (s.shedPageEnd ‹_› ‹_›) (Job.kind ‹_›)
      exact ⟨b.pending.trans a.1, b.now.trans a.2, b.ft.trans a.3, b.fac.trans a.4, fun h => b.notes (a.notes h), fun h => b.inv (a.inv h)⟩

/-! the clock -/

end Machine
end Sys2Proof
end

