-- ==== Sys2Proof/Machine/DriveOps.lean ====
section
/-! DEFINITION. What the part drives and connects at every hc, as it follows from the state: the drive outputs (R126 to
R130, R135, R309, R312), the crosspoint (R140), and the test DAC (R298, R312). Levels are exact values in mV from the drive
mid-level, before the reconstruction filter; the manual gives no resolution of the DAC or of its sine table (log entry 69). -/

namespace Sys2Proof
namespace Machine

/-- One drive output (R129): held at mid-level, at a level, under the step or the current of a test round (R146, R310), or
the Scarecrow's: joined to the gang bus or not, with what the Scarecrow does to the electrode (R256, R257). -/
inductive DriveOut where
  | mid
  | level (mv : Rat)
  | test
  | scarecrow (bus : Bool) (hold : ScareHold)
  deriving DecidableEq, Repr

/-- The state of one sense electrode at the crosspoint (Table FE-1): at the bias level, at the input of `lane` (with the
guard waveform on its reference input where `guard`), at the guard buffer, under the step or the current of a test round
(R146, R310), or the Scarecrow's. -/
inductive Crosspoint where
  | bias
  | amp (lane : Nat) (guard : Bool)
  | buffer
  | test
  | scarecrow (hold : ScareHold)
  deriving DecidableEq, Repr

/-- The test DAC (R286, R298, R312): silent, a DC code on the calibration bus, a tone through the injection capacitors, or on the
calibration bus the bias level, a DC level or a tone of so many quarters of the full scale of a range (Table CA-2). -/
inductive TestDac where
  | silent
  | dc (code : Nat)
  | tone (bin code : Nat)
  | calBias
  | calDc (quarters : Int) (rng : Nat)
  | calTone (bin quarters rng : Nat)
  deriving DecidableEq, Repr

/-- The value of an envelope at count `c` of `r`: linear, or a raised cosine (Table RK-3). -/
def envValue (raised : Bool) (c r : Nat) : Rat :=
  if raised then (((2 ^ trigBits : Nat) - cosTurn c (2 * r) : Int) : Rat) / ((2 ^ (trigBits + 1) : Nat) : Rat) else (c : Rat) / (r : Rat)

/-- A sine table's value at an accumulator (R126). -/
def sineAt (acc : Nat) : Rat := ((sinTurn acc 8192 : Int) : Rat) / ((2 ^ trigBits : Nat) : Rat)

/-- The hc since the last update of the DACs, every 4 hc of a drive period (R126). -/
def State.dacHold (s : State) : Nat :=
  match s.rakePos with
  | some p => (p % 4).toNat
  | none => 0

/-- The full-envelope swing in mV peak-to-peak (R135). -/
def State.swing (s : State) : Nat := 1200 + 300 * fld (s.force.get 0x0408) 2 0

/-- The tone of Dn as it stood `d` hc ago (R126, R128, R135). -/
def State.toneLevel (s : State) (d n : Nat) : Rat :=
  let t := s.tone.active.getD n ⟨0, 0⟩
  sineAt (s.rakeAccAt d n) * envValue (wbit (s.force.get 0x0401) 0) (s.toneEnvAt d) s.ramp * (s.swing : Rat) / ((2 * 2 ^ fld t.a 9 8 : Nat) : Rat)

/-- The guard tone as it stood `d` hc ago, at the swing of R135 divided by 2^GATT (R130). An entry's ATT is no part of it
(DEDUCED, log entry 69). -/
def State.guardLevel (s : State) (d : Nat) : Rat :=
  sineAt (s.guardAccAt d) * envValue (wbit (s.force.get 0x0401) 0) (s.guardEnvAt d) s.ramp * (s.swing : Rat) / ((2 * 2 ^ fld (s.force.get 0x040A) 9 8 : Nat) : Rat)

/-- The Scarecrow owns the drive outputs and the sense electrodes, until h = 0 of the first re-entry frame (R129, R140,
R266). -/
def State.scareOwns (s : State) : Bool :=
  decide (s.ms.mode = Mode.dormant) && !(decide (s.ms.exit = ExitStage.reentry) && (s.scan.slot.isSome || decide (s.scan.reLeft < 2)))

/-- Dn is held at mid-level whatever the envelopes: its entry is disabled (R129), it has been declared failed (R309), or
DRVOFF is in force (R312). -/
def State.driveHeld (s : State) (n : Nat) : Bool :=
  !(s.tone.active.getD n ⟨0, 0⟩).en || s.dg.dflt.contains n || s.dg.drvoff

/-- The calibration activity of the slot of this hc. -/
def State.calNow (s : State) : Option CalKind :=
  match s.scan.ended with
  | some e => e.ca.act
  | none => s.ca.act

/-- Electrode `e` (0 to 95 sense, 96 to 159 drive) is under test on this hc: in its round of CALTRACE or OPENTEST, from
bias at h = 2,048 on in the second (R293, R310). -/
def State.tested (s : State) (e : Nat) : Bool :=
  match s.slotNow with
  | some (.cal k, h) =>
    let round := decide (4 ≤ k ∧ roundElec ((k - 4) / 2) (e % 16) = e)
    match s.calNow with
    | some .trace => round
    | some .openw => round && decide (2048 ≤ h) && (s.laneFor (e % 16)).isSome
    | _ => false
  | _ => false

/-- The drive output Dn (R126 to R130, R286): it stands at mid-level while no envelope is above 0. -/
def State.driveOut (s : State) (n : Nat) : DriveOut :=
  let d := s.dacHold
  if s.scareOwns then .scarecrow (s.onGangBus n) (s.scareHold true n)
  else if s.tested (96 + n) then .test
  else if s.driveHeld n || decide (s.toneEnvAt d = 0 ∧ s.guardEnvAt d = 0) then .mid
  else .level (s.toneLevel d n + s.guardLevel d)

/-- DCTRL.MODE in force (R312). -/
def State.dacMode (s : State) : Nat := fld s.dg.dctrl 1 0

/-- The sense electrodes that a sensing joins to its lane (R141). -/
def Sensed.joins (x : Sensed) (m : Nat) : Bool := if x.gang then decide (m % 16 = x.home) else decide (m = x.elec)

/-- The crosspoint state of sense electrode Sm (R140, Table FE-1). With DCTRL.MODE = 1 the lanes' inputs are on the
calibration bus in place of their electrodes (R312). Outside slots, in REST as in every period to which the table gives no row
(ramps, a reference's settling, the wait for a frame), it is at the bias level (DESIGN CHOICE, log entry 76). -/
def State.crosspoint (s : State) (m : Nat) : Crosspoint :=
  if s.scareOwns then .scarecrow (s.scareHold false m)
  else match s.slotNow with
  | none => .bias
  | some (.cal _, _) => if s.tested m then .test else .bias
  | some (k, _) =>
    let sc := decide (k = SlotKind.regular 6)
    match if s.dacMode = 1 then none else (s.sensed k s.scan.scph).find? (fun x => x.joins m) with
    | some x => .amp x.lane sc
    | none => if sc then .buffer else .bias

/-- The health tone (R298): its accumulator and its amplitude in mV at the test DAC, where it is present. -/
def State.healthTone (s : State) : Option (Nat × Rat) :=
  match s.slotNow with
  | some (.regular e, h) =>
    if e < 6 ∧ s.healthOn then some (239 * h % 8192, (fld (s.force.get 0x2A08) 8 0 : Rat) * 75 / 64) else none
  | _ => none

/-- The stimulus of slot `k` of self-calibration on the calibration bus (Table CA-2). -/
def calStimulus (k : Nat) : TestDac :=
  if k < 20 then .calBias
  else if k < 32 then .calDc 3 0
  else if k < 44 then .calDc (-3) 0
  else if k < 68 then .calTone 480 3 0
  else if k < 104 then .calTone 120 3 ((k - 68) / 12 + 1)
  else if k < 108 then .calBias
  else if k < 110 then .calDc 3 0
  else if k < 112 then .calDc (-3) 0
  else .calTone 480 3 0

/-- What the test DAC drives beside the health tone (R286, R312): the stimulus of a calibration slot; by DCTRL, MODE 1 in every
slot and MODE 2 in every slot but injected ones, and nothing while a calibration command or OPENTEST runs. -/
def State.testDac (s : State) : TestDac :=
  match s.slotNow with
  | none => .silent
  | some (.cal k, _) => if s.calNow.any (fun a => decide (a.slots = 120)) then calStimulus k else .silent
  | some (k, _) =>
    let injected := match k with | .injected _ => true | _ => false
    if s.dg.dacOff then .silent
    else if s.dacMode = 1 then .dc (fld (s.force.get 0x2A15) 9 0)
    else if s.dacMode = 2 ∧ !injected then .tone (fld s.dg.dctrl 9 2) (min 511 (fld (s.force.get 0x2A15) 9 0))
    else .silent

end Machine
end Sys2Proof
end

