-- ==== Sys2Proof/WellFormed.lean ====
section
/-! DEFINITION. Which commands are well formed: every operand lies in the range its source can produce. The meaning of
a command does not depend on this check. -/

namespace Sys2Proof

/-- The payload words on the wire by opcode and COUNT (R58, Table LT-2): READ has none. -/
def wirePayload (op count : Nat) : Nat :=
  if op = 2 ∨ op = 3 ∨ op = 7 ∨ op = 8 ∨ op = 10 ∨ op = 11 then count else 0

/-- A received frame has the payload its H0 announces (R58, R59). -/
def Frame.wf (f : Frame) : Bool :=
  decide (f.payload.length = wirePayload (f.h0.toNat / 4096) (f.h0.toNat % 256))

/-- A request of one row carries that row's opcode (Table LT-2). -/
def Frame.isOp (f : Frame) (op : Nat) : Bool := f.wf && decide (f.h0.toNat / 4096 = op)

/-- Raw converter codes are 14-bit two's complement (R159). -/
def codesWf (l : List Int) : Bool := l.all (fun c => decide (-8192 ≤ c) && decide (c ≤ 8191))

/-- A slot delivers 17 lanes of 2,560 samples, and at most 16 fitted values or voltages of the 2,048 samples of a window
(R9, R141, R157, R293, R310). -/
def SlotData.wf (d : SlotData) : Bool :=
  decide (d.codes.length = 17) && d.codes.all (fun l => decide (l.length = 2560) && codesWf l) && decide (d.fits.length ≤ 16)
    && decide (d.volts.length ≤ 16) && d.volts.all (fun l => decide (l.length ≤ 2048))

/-- Monitor values fit their registers (R37, R313). -/
def Monitors.wf (m : Monitors) : Bool :=
  decide (m.vph < 1024) && decide (m.iph < 256) && decide (m.rails.length = 4) && m.rails.all (fun r => decide (r < 65536))

/-- A burst of at most 16 conversions, in raw codes (R173). -/
def burstWf (l : List Int) : Bool := decide (l.length = 16) && codesWf l

/-- Four quarter looks, twice, and raw codes (R257, R262, R263). -/
def GangLook.wf (g : GangLook) : Bool :=
  burstWf g.burst && decide (g.quarters.length = 4) && g.quarters.all burstWf && decide (g.again.length = 4) && g.again.all burstWf

/-- The well-formedness of a command. -/
def Instr.wf : Instr → Bool
  | .read f => f.isOp 1 || (f.wf && (decide (f.h0.toNat / 4096 = 0) || decide (12 < f.h0.toNat / 4096)))
  | .write f => f.isOp 2
  | .writea f => f.isOp 3
  | .grant f => f.isOp 4
  | .credit f => f.isOp 5
  | .resend f => f.isOp 6
  | .tsync f => f.isOp 7
  | .rebase f => f.isOp 8
  | .dbgctlStatus f => f.isOp 9 && decide (f.h1 ≠ 1) && decide (f.h1 ≠ 2) && decide (f.h1 ≠ 3)
  | .dbgctlHalt f => f.isOp 9 && decide (f.h1 = 1)
  | .dbgctlRun f => f.isOp 9 && decide (f.h1 = 2)
  | .dbgctlStep f => f.isOp 9 && decide (f.h1 = 3)
  | .dbgrd f => f.isOp 10
  | .dbgwr f => f.isOp 11
  | .abort f => f.isOp 12
  | .syncerr w => decide (w ≠ 0x2D4B)
  | .delayLineLock c => decide (100 ≤ c.toNat) && decide (c.toNat ≤ 500)
  | .hclkMeasurement n => decide (0 < n)
  | .frameBoundary m => m.wf
  | .slotEnd d => d.wf
  | .scarecrowCycle l => decide (l.length = 8) && l.all GangLook.wf
  | .ovld l => l.all (fun d => decide (d < 64))
  | .stuck id => decide (id < 32)
  | .timerModeChange t _ => decide (t < 6)
  | .timerSync m => decide (m.toNat < 64)
  | .timerArm t | .timerSwcap t | .timerWrap t | .timerCapture t | .timerMeasureStart t | .timerMeasureStop t => decide (t < 6)
  | .responseReady | .attnReassert | .postedWordApply | .registerWrite _ _ | .wideValueCommit _ _
  | .wideValueLatchRead _ | .wideValueHighRead _ | .rcRead _ | .iset _ _ | .lock _ _ | .hclkfWrite _ | .hclkStop _
  | .absenceTimerTrip | .vphQualified | .softStartDone | .ilim | .foldback | .foldbackOpenEnd
  | .por | .vphLow | .vphLowClear | .vphHigh | .esdHit | .thermal | .thermalRelease | .thermalDeferralExpiry
  | .writeAbort150c | .thwarn | .thermalWarnClear | .regbo | .railRestored | .wdog | .shedBankSelection
  | .shedPageProgramDone | .shedSaveReadbackDone | .save | .forget | .refRdy | .reffail | .refout | .goActive | .goWatch
  | .goDormant | .goService | .reset _ | .selfcal | .calzero | .calpoint _ | .calsolve | .caltrace | .caltick | .opentest
  | .faillane _ | .automode | .dormantModeSet | .hostWakeRequest | .dormantExitStart | .epochReport | .recordsReady
  | .ntrip | .waterMapUpdate | .outputReady | .trellisOutput | .toneCommit | .toneSnap | .sieveRsync | .blankAssert
  | .blankDeassert | .pauseEnd | .blanked | .blankChatter | .blankStuck | .laneBlankWrite _ | .vsyncEdge | .vlost
  | .hclkResume | .jump
  | .svcoefDataAccess _ | .igo | .injectedSequenceTrigger _ _ | .injectedSequenceEnd | .gaugeEnable _ | .gaugePeriod
  | .gaugeFreqEdge | .queueSnap | .queueReplay _ | .slewEnd | .hiddDataRead | .ucdataAccess _ | .qualificationRestart
  | .limiterEngaged | .limiterReleased | .refxEntersWindow | .firstHclkEdge | .resetCircuitCyclesDone | .exitRampEnd => true

end Sys2Proof
end

