-- ==== Sys2Proof/Tests/Slice0.lean ====
section
/-! SUPPORT. Tests: ill-formed commands that each check refuses, states and operands that meet the hypotheses of every
statement (test_meets_<Name>), and single steps against the spec's own numbers. -/

namespace Sys2Proof
namespace Tests
open Machine

set_option Elab.async false

/-! Helpers: a part in ACTIVE under a declared 32 MHz clock at hc 1,000, and frames with their CRC. -/

def live : State := { State.reset with
  now := 1000
  pw := { State.reset.pw with phase := .on }
  clk := { State.reset.clk with seen := true, lock := true, decl := 32000 }
  tb := { State.reset.tb with run := true }
  ms := { State.reset.ms with mode := .active, step := 0 }
  link := { State.reset.link with answering := true } }

def frameOf (h0 h1 : Word) (payload : List Word) : Frame := { h0 := h0, h1 := h1, payload := payload, crc := crc16 (h0 :: h1 :: payload) }

def withMode (m : Mode) (s : State) : State := { s with ms := { s.ms with mode := m } }
def withStep (n : Nat) (s : State) : State := { s with ms := { s.ms with step := n } }
def withReg (a : Nat) (v : Word) (s : State) : State := s.setReg a v
def withSlot (k : SlotKind) (h : Nat) (s : State) : State := { s with scan := { s.scan with slot := some k, h := h, lead := 0 } }
def withPhase (p : InjPhase) (s : State) : State := { s with inj := { s.inj with phase := p } }
def withPower (p : PowerPhase) (s : State) : State := { s with pw := { s.pw with phase := p } }
def withWbuf (n : Nat) (s : State) : State := { s with link := { s.link with wbuf := List.replicate n { addr := 0x0401, value := 1, hold := false, base := none } } }
def withResp (r : List Resp) (s : State) : State := { s with link := { s.link with resp := r } }
def withTimer (n : Nat) (x : Timer) (s : State) : State := s.setTimer n x
def unlockedPage (p : Nat) (s : State) : State := { s with link := { s.link with unlocked := [p] } }
def halted (s : State) : State := { s with ms := { s.ms with halted := true, mode := .service } }
def stoppedFor (n : Nat) (s : State) : State := { s with clk := { s.clk with stopped := true, absence := n } }

def oneJob : Job := { kind := .payload, bank := 0, page := 1, bytes := [] }
def saving (s : State) : State := { s with sh := { s.sh with jobs := [oneJob], saving := some 0 } }

def noticeWaiting : Resp := noticeOf (frameOf 0x1000 0 []) 4 0 1015
def answerWaiting (tag : Nat) : Resp := { noticeWaiting with kind := .answer, tag := tag }
def ackWaiting (after : Nat) : Resp := { answerWaiting 0 with after := after, ready := none }

/-- A structure of decidable parts, as one conjunction that `decide` can evaluate. -/
theorem accepts_iff (s : State) (op : Op) (f : Frame) : s.accepts op f ↔
    s.heard f = true ∧ f.crcOk = true ∧ opOf f.op = some op ∧ s.tagTaken f = false ∧ s.nakFor f = none :=
  ⟨fun h => ⟨h.heard, h.crc, h.opcode, h.free, h.checks⟩, fun ⟨h, c, o, f, k⟩ => ⟨h, c, o, f, k⟩⟩

theorem takes_iff (s : State) (a : Nat) : s.takes a ↔ s.linkUp = true ∧ mappedPage (pageOf a) = true ∧ s.shedHolds a = false :=
  ⟨fun h => ⟨h.up, h.mapped, h.ready⟩, fun ⟨u, m, r⟩ => ⟨u, m, r⟩⟩

/-! ## Well-formedness: each check refuses an ill-formed command. -/

theorem test_wf_read : (Instr.read (frameOf 0x1001 0x0008 [])).wf = true ∧ (Instr.read (frameOf 0x1001 0x0008 [0])).wf = false ∧
    (Instr.read (frameOf 0x2001 0x0008 [0])).wf = false := by decide +kernel

theorem test_wf_reserved_opcode : (Instr.read (frameOf 0xD001 0 [])).wf = true ∧ (Instr.write (frameOf 0xD001 0 [])).wf = false := by decide +kernel

theorem test_wf_requests : (Instr.write (frameOf 0x2002 0 [1])).wf = false ∧ (Instr.writea (frameOf 0x2001 0 [1])).wf = false ∧
    (Instr.grant (frameOf 0x5000 16 [])).wf = false ∧ (Instr.credit (frameOf 0x4000 16 [])).wf = false ∧
    (Instr.resend (frameOf 0x7003 0 [1, 2, 3])).wf = false ∧ (Instr.tsync (frameOf 0x7003 0 [1, 2])).wf = false ∧
    (Instr.rebase (frameOf 0x7003 0 [1, 2, 3])).wf = false ∧ (Instr.dbgrd (frameOf 0xB002 1 [0, 0])).wf = false ∧
    (Instr.dbgwr (frameOf 0xA002 1 [0, 0])).wf = false ∧ (Instr.abort (frameOf 0x1000 0 [])).wf = false := by decide +kernel

theorem test_wf_dbgctl : (Instr.dbgctlStatus (frameOf 0x1000 0 [])).wf = false ∧ (Instr.dbgctlStatus (frameOf 0x9000 3 [])).wf = false ∧
    (Instr.dbgctlStatus (frameOf 0x9000 4 [])).wf = true ∧ (Instr.dbgctlHalt (frameOf 0x9000 2 [])).wf = false ∧
    (Instr.dbgctlRun (frameOf 0x9000 1 [])).wf = false ∧ (Instr.dbgctlStep (frameOf 0x9000 1 [])).wf = false := by decide +kernel

theorem test_wf_sync : (Instr.syncerr 0x2D4B).wf = false ∧ (Instr.syncerr 0).wf = true := by decide +kernel

theorem test_wf_clock : (Instr.delayLineLock 501).wf = false ∧ (Instr.delayLineLock 99).wf = false ∧
    (Instr.delayLineLock 500).wf = true ∧ (Instr.delayLineLock 100).wf = true ∧ (Instr.hclkMeasurement 0).wf = false := by decide +kernel

theorem test_wf_monitors : (Instr.frameBoundary ⟨1024, 0, 0, [0, 0, 0, 0]⟩).wf = false ∧ (Instr.frameBoundary ⟨1023, 256, 0, [0, 0, 0, 0]⟩).wf = false ∧
    (Instr.frameBoundary ⟨1023, 255, 0, [0, 0, 0]⟩).wf = false ∧ (Instr.frameBoundary ⟨1023, 255, 0, [0, 0, 0, 65536]⟩).wf = false ∧
    (Instr.frameBoundary ⟨1023, 255, 0, [0, 0, 0, 65535]⟩).wf = true := by decide +kernel

theorem test_wf_slot : (Instr.slotEnd ⟨[[0]], [], []⟩).wf = false ∧ (Instr.slotEnd ⟨List.replicate 17 [0], [], []⟩).wf = false ∧ codesWf [-8193] = false ∧
    codesWf [8191, -8192] = true ∧ codesWf [8192] = false := by decide +kernel

def burst : List Int := List.replicate 16 0
def gangLook (b : List Int) (quarters : List (List Int)) : GangLook := { integ := 0, burst := b, quarters := quarters, again := List.replicate 4 burst }
def looks (b : List Int) (quarters : List (List Int)) : Instr := .scarecrowCycle (List.replicate 8 (gangLook b quarters))

theorem test_wf_looks : (Instr.scarecrowCycle []).wf = false ∧ (looks burst []).wf = false ∧ (looks [0] (List.replicate 4 burst)).wf = false ∧
    (looks (List.replicate 16 9000) (List.replicate 4 burst)).wf = false ∧ (looks burst (List.replicate 4 burst)).wf = true := by decide +kernel

theorem test_wf_numbers : (Instr.ovld [64]).wf = false ∧ (Instr.stuck 32).wf = false ∧ (Instr.timerModeChange 6 0).wf = false ∧
    (Instr.timerSync 64).wf = false ∧ (Instr.timerArm 6).wf = false ∧ (Instr.timerSwcap 6).wf = false ∧ (Instr.timerWrap 6).wf = false ∧
    (Instr.timerCapture 6).wf = false ∧ (Instr.timerMeasureStart 6).wf = false ∧ (Instr.timerMeasureStop 6).wf = false := by decide +kernel

/-! ## The link: states and frames that meet the hypotheses of each statement. -/

theorem test_meets_StepRunsFront : State.reset.pending = [] := rfl

theorem test_meets_CrcErrorDiscarded :
    requestOf (.read ⟨0x1001, 0x0008, [], 0⟩) = some ⟨0x1001, 0x0008, [], 0⟩ ∧ live.heard ⟨0x1001, 0x0008, [], 0⟩ = true ∧
      Frame.crcOk ⟨0x1001, 0x0008, [], 0⟩ = false := by decide +kernel

/-- The numbers of the NAK reasons are those of Table LT-5; a reserved OP and each bound of a count are among them. -/
theorem test_meets_FailedCheckAnsweredNak :
    live.heard (frameOf 0x1000 0 []) = true ∧ (frameOf 0x1000 0 []).crcOk = true ∧ live.tagTaken (frameOf 0x1000 0 []) = false ∧
      live.nakFor (frameOf 0x1000 0 []) = some 2 ∧ live.nakFor (frameOf 0xD001 0 []) = some 1 ∧
      live.nakFor (frameOf 0x4000 15 []) = some 6 ∧ live.nakFor (frameOf 0x4000 16 []) = none ∧
      live.nakFor (frameOf 0x4000 1024 []) = none ∧ live.nakFor (frameOf 0x4000 1025 []) = some 6 ∧
      live.nakFor (frameOf 0x1001 0x0700 []) = some 3 ∧ live.nakFor (frameOf 0x9000 0 []) = some 4 ∧
      live.notices < 8 := by decide +kernel

def eightNotices : State := withResp (List.replicate 8 noticeWaiting) live

theorem test_meets_NoticesLimited :
    (live.notices ≤ 8 ∧ ∃ t, exec .ilim live = .next t) ∧ eightNotices.drawsNotice (frameOf 0x1000 0 []) ∧ eightNotices.notices = 8 :=
  ⟨⟨by decide +kernel, _, rfl⟩, ⟨by decide +kernel, by decide +kernel, .inr (.inl (by decide +kernel))⟩, by decide +kernel⟩

theorem test_meets_OutstandingTagAnsweredBusy :
    (withResp [answerWaiting 0] live).heard (frameOf 0x1001 0x0008 []) = true ∧ (frameOf 0x1001 0x0008 []).crcOk = true ∧
      (withResp [answerWaiting 0] live).tagTaken (frameOf 0x1001 0x0008 []) = true ∧
      (withResp [answerWaiting 0] live).notices < 8 := by decide +kernel

theorem test_meets_ReadAnswered :
    live.accepts .read (frameOf 0x1001 0x0008 []) ∧ live.link.wbuf = [] ∧ (withWbuf 1 live).accepts .read (frameOf 0x1001 0x0008 []) ∧
      (withWbuf 1 live).link.wbuf ≠ [] := by
  simp only [accepts_iff]; decide +kernel

theorem test_meets_WriteBuffered :
    (withWbuf 15 live).accepts .write (frameOf 0x2001 0x0401 [5]) ∧ (withWbuf 16 live).accepts .write (frameOf 0x2001 0x0401 [5]) ∧
      live.accepts .writea (frameOf 0x3001 0x0401 [5]) ∧ (frameOf 0x2001 0x0401 [5]).payload.length = (frameOf 0x2001 0x0401 [5]).count ∧
      (frameOf 0x2001 0x0401 [5]).count ≤ 16 - (withWbuf 15 live).link.wbuf.length ∧
      16 - (withWbuf 16 live).link.wbuf.length < (frameOf 0x2001 0x0401 [5]).count ∧ live.link.wbuf = [] ∧
      live.accepts .write (frameOf 0x2001 0x0401 [5]) ∧ (withWbuf 15 live).link.wbuf ≠ [] ∧ (withWbuf 16 live).notices < 8 := by
  simp only [accepts_iff]; decide +kernel

theorem test_meets_GrantAndCredit :
    live.accepts .grant (frameOf 0x4000 16 []) ∧ 1 ≤ live.now ∧ live.accepts .credit (frameOf 0x5000 0xFFFF []) ∧ live.rq.cout ≤ 65535 := by
  simp only [accepts_iff]; decide +kernel

def keptCopy : State := { live with link := { live.link with retained := [(3, { h0 := 0x2300, h1 := 9, payload := [7], first := 0, last := 10 })] } }

theorem test_meets_ResendAnswers :
    keptCopy.accepts .resend (frameOf 0x6300 0 []) ∧ keptCopy.outTags.contains 3 = false ∧ (getKey 3 keptCopy.link.retained).isSome = true ∧
      live.accepts .resend (frameOf 0x6300 0 []) ∧ getKey 3 live.link.retained = none ∧ live.notices < 8 := by
  simp only [accepts_iff]; decide +kernel

theorem test_meets_TimeRequests :
    live.accepts .tsync (frameOf 0x7003 0 [1, 0, 0]) ∧ 0 < syncOffset (ofWords [1, 0, 0]) (live.admitted .tsync (frameOf 0x7003 0 [1, 0, 0])).countHc.tb.tsc ∧
      live.accepts .tsync (frameOf 0x7003 0 [0, 0, 0]) ∧ syncOffset (ofWords [0, 0, 0]) (live.admitted .tsync (frameOf 0x7003 0 [0, 0, 0])).countHc.tb.tsc = 0 ∧
      live.accepts .tsync (frameOf 0x7003 0 [0xFFFF, 0xFFFF, 0xFFFF]) ∧
      syncOffset (ofWords [0xFFFF, 0xFFFF, 0xFFFF]) (live.admitted .tsync (frameOf 0x7003 0 [0xFFFF, 0xFFFF, 0xFFFF])).countHc.tb.tsc < 0 ∧
      live.accepts .rebase (frameOf 0x8003 0 [1, 0, 0]) := by
  simp only [accepts_iff]; decide +kernel

theorem test_meets_DebugRequests :
    (withMode .service live).accepts .dbgctl (frameOf 0x9000 1 []) ∧ (frameOf 0x9000 4 []).h1 ≠ 1 ∧
      (withMode .service live).accepts .dbgctl (frameOf 0x9000 4 []) ∧ (halted live).accepts .dbgrd (frameOf 0xA002 16 [4, 0]) ∧
      (halted live).accepts .dbgwr (frameOf 0xB004 0 [4, 0, 1, 2]) ∧ (frameOf 0xB004 0 [4, 0, 1, 2]).payload.length = 4 := by
  simp only [accepts_iff]; decide +kernel

def applyingNow (s : State) : State := { s with link := { s.link with applyAt := s.now } }

theorem test_meets_AbortDiscards : (applyingNow (withWbuf 2 live)).accepts .abort (frameOf 0xC000 0 []) ∧
    (applyingNow (withWbuf 2 live)).link.applyAt = 1000 ∧ live.shedHolds 0x0401 = false ∧
    (withWbuf 2 live).accepts .abort (frameOf 0xC000 0 []) ∧ (withWbuf 2 live).link.applyAt ≠ (withWbuf 2 live).now := by
  simp only [accepts_iff]; decide +kernel

theorem test_meets_LinkEvents : live.linkUp = true ∧ live.link.turn = none ∧ (0 : Word) ≠ 0x2D4B ∧ live.hostClocked = true ∧
    (withMode .startup live).hostClocked = false := by decide +kernel

theorem test_meets_PostedWordApplied :
    ((withWbuf 2 live).link.applyAt ≤ (withWbuf 2 live).now ∧ (withWbuf 2 live).shedHolds 0x0401 = false) ∧
      (withResp [ackWaiting 1] (withWbuf 1 live)).link.resp = [ackWaiting 1] ∧ (ackWaiting 1).read = none ∧
      (saving live).shedHolds 0x2B08 = true := by decide +kernel

/-! ## Registers -/

theorem test_meets_IsetForcesFlags : live.takes (pageAddr 0x04 5) ∧ live.takes (pageAddr 0x2F 5) := by
  simp only [takes_iff]; decide +kernel

theorem test_meets_LockUnlocks :
    live.takes (pageAddr 0x2B 6) ∧ keyedPage 0x2B = true ∧ keyedPage 0x04 = false ∧ live.takes (pageAddr 0x04 6) := by
  simp only [takes_iff]; decide +kernel

theorem test_meets_RegisterWriteByAccessCode :
    live.linkUp = true ∧ live.shedHolds 0x0401 = false ∧ wideAt 0x0401 = none ∧ mappedPage (pageOf 0x0401) = true ∧
      mappedPage (pageOf 0x0708) = false ∧ protectedWord 0x0640 = true ∧ live.unlocked 0x06 = false ∧
      (unlockedPage 0x06 live).unlocked 0x06 = true ∧ actionWord 0x0640 = false ∧ (regRow 0x0640).isSome = true ∧
      ({ live with flagged := [(0x28, 0x40)] } : State).hcFlagBits 0x28 = 0x40 ∧ live.hcFlagBits 0x28 = 0 ∧
      regRow 0x000B = none ∧ actionWord 0x000B = false ∧ protectedWord 0x000B = false := by decide +kernel

/-- Each word with an effect of its own is taken, and each case of its clause has a state. -/
theorem test_meets_RegisterWriteEffects :
    (∀ a ∈ ([0x0209, 0x0310, 0x040A, 0x0609, 0x0510, 0x058F, 0x2308, 0x230A, 0x230B, 0x2420, 0x242F, 0x2811, 0x2861, 0x2812, 0x2862, 0x2A14, 0x1009, 0x1F09] : List Nat),
      live.linkUp = true ∧ mappedPage (pageOf a) = true ∧ live.shedHolds a = false ∧
        (protectedWord a = true → (unlockedPage (pageOf a) live).unlocked (pageOf a) = true)) ∧
      live.ms.mode ≠ .service ∧ (withMode .service live).ms.mode = .service ∧ rowAddr 0x1F09 = 0x1009 ∧
      (live.reg 0x1008).getLsbD 2 = true ∧ ((withReg 0x1008 0 live).reg 0x1008).getLsbD 2 = false ∧
      (withReg 0x2201 0 live).bankProtected 0 = true ∧ live.bankProtected 1 = false ∧ live.scan.blkEff = false ∧ (0x8000 : Word).getLsbD 15 = true := by decide +kernel

theorem test_meets_WideValueCommits :
    wideLow 0x0401 = false ∧ live.takes 0x220A ∧ live.takes (0x2814 + 16 * 0) ∧ live.takes (0x2814 + 16 * 5) ∧ live.takes 0x220B := by
  simp only [takes_iff]; decide +kernel

theorem test_meets_WideValueReads :
    live.takes 0x2818 ∧ (∃ n res, wideAt 0x2818 = some (0x2818, n, res)) ∧ live.takes 0x2819 ∧ (∃ n res, wideAt 0x2819 = some (0x2818, n, res)) :=
  ⟨⟨by decide +kernel, by decide +kernel, by decide +kernel⟩, ⟨_, _, rfl⟩, ⟨by decide +kernel, by decide +kernel, by decide +kernel⟩, ⟨_, _, rfl⟩⟩

theorem test_meets_ReadToClear : live.takes 0x040B ∧ wideAt 0x040B = none ∧ (regRow 0x040B).any (fun r => r.rc) = true ∧
    live.takes 0x2B06 ∧ offOf 0x2B06 = 6 := by
  simp only [takes_iff]; decide +kernel

def pairOpen (w : Bool) (p : Word) : State := { withReg 0x2308 p live with sv := { live.sv with half := some (w, 0x1234) } }

theorem test_meets_CoefficientWindow : live.takes 0x2309 ∧ live.sv.half = none ∧ (pairOpen true 0).takes 0x2309 ∧
    (withReg 0x2201 0 (pairOpen true 0)).bankProtected 0 = true ∧ (pairOpen true 0x01BF).bankProtected 1 = false ∧
    fld ((pairOpen true 0x01BF).reg 0x2308) 7 0 = 191 ∧ fld ((pairOpen true 0x01C0).reg 0x2308) 7 0 = 192 ∧
    (pairOpen false 0).takes 0x2309 := by
  simp only [takes_iff]; decide +kernel

theorem test_meets_TableWindows : live.takes 0x2F0A ∧ live.takes 0x2519 ∧ (unlockedPage 0x25 live).takes 0x2519 ∧
    (unlockedPage 0x25 live).unlocked 0x25 = true ∧ live.unlocked 0x25 = false := by
  simp only [takes_iff]; decide +kernel

theorem test_meets_PlanAndTriggerWrites : live.takes 0x0501 ∧ (live.reg 0x0501).getLsbD 1 = false ∧
    (live.reg 0x0501).getLsbD 0 = false ∧ live.takes 0x2101 ∧ live.takes 0x2201 := by
  simp only [takes_iff]; decide +kernel

def keptReport : State := { live with rq := { live.rq with copies := [{ h0 := 0x8000, h1 := 0, payload := [7, live.reg 0x000A], first := 0, last := 9 }] } }

theorem test_meets_SnapshotAndReplay : live.takes 0x2601 ∧ live.snapWaits = false ∧ keptReport.takes 0x260A ∧
    (({ live with agenda := [(1000, .recordsReady)] } : State).takes 0x2601 ∧ ({ live with agenda := [(1000, .recordsReady)] } : State).snapWaits = true) ∧
    (∃ d ∈ keptReport.rq.copies, d.seqWord = 7 ∧ d.epochWord = keptReport.reg 0x000A) ∧
    (∀ d ∈ keptReport.rq.copies, d.seqWord = 8 → d.epochWord ≠ keptReport.reg 0x000A) := by
  simp only [takes_iff]; decide +kernel

/-! ## The clock and the time base -/

theorem test_meets_DeclarationWrites : live.countHc.takes 0x0110 ∧ live.countHc.ms.step ≠ 3 ∧ (withStep 3 live).countHc.clk.decl ≠ 0 ∧
    (withStep 3 (withPower .on State.reset)).countHc.clk.decl = 0 ∧ (withStep 3 live).takes 0x0110 ∧ (withStep 3 live).ms.step = 3 ∧
    (23999 : Word).toNat < 24000 ∧ (24000 : Word).toNat ≤ 40000 ∧ (40001 : Word).toNat > 40000 ∧ (32000 : Word).toNat = live.clk.decl := by
  simp only [takes_iff]; decide +kernel

theorem test_meets_StopFreezesClock : live.hcDriven = true ∧ State.reset.hcDriven = false ∧
    (stoppedFor 51 live).clk.stopped = true ∧ 51 ≤ (stoppedFor 51 live).clk.cum + (stoppedFor 51 live).clk.absence + (stoppedFor 51 live).clk.stops := by
  decide +kernel

def endOf (k : SlotKind) (s : State) : Ended :=
  { slot := k, regs := s.regs, low := [], inj := s.inj, ca := s.ca, forming := false, formN := 0, formLeft := 0, formSum := [], after := .none,
    baseLeft := 0, step := 0, calBusy := false, busy := false, done := false, ow := s.dg.ow }
def endedSlot (k : SlotKind) (s : State) : State := { s with scan := { s.scan with ended := some (endOf k s) } }

theorem test_meets_ResumeAfterStop :
    ((stoppedFor 61 live).clk.stopped = true ∧ (stoppedFor 61 live).tb.run = true ∧ (stoppedFor 61 live).clk.relock = none ∧
      (stoppedFor 61 live).clk.cum + (stoppedFor 61 live).clk.absence < 62 ∧ (stoppedFor 61 live).clk.staged = none) ∧
    ((stoppedFor 62 (withSlot (.regular 0) 9 live)).slotRuns = true ∧ (stoppedFor 62 (withSlot (.regular 0) 9 live)).scan.ended = none ∧
      62 ≤ (stoppedFor 62 (withSlot (.regular 0) 9 live)).clk.cum + (stoppedFor 62 (withSlot (.regular 0) 9 live)).clk.absence) ∧
    (endedSlot (.regular 3) (stoppedFor 62 live)).scan.ended.isSome = true ∧ (stoppedFor 61 live).attnOut = false ∧
    ({ stoppedFor 62 live with clk := { (stoppedFor 62 live).clk with relock := some .dormantExit } } : State).clk.relock = some .dormantExit ∧
    (stoppedFor 62 live).tb.run = true ∧
    ({ stoppedFor 1 live with clk := { (stoppedFor 1 live).clk with staged := some 24000 } } : State).clk.staged = some 24000 := by decide +kernel

theorem test_meets_JumpFreezesSlot : State.reset.hcDriven = false ∧ (withSlot (.regular 0) 9 live).hcDriven = true ∧
    (withSlot (.regular 0) 9 live).slotRuns = true ∧ (withSlot (.regular 0) 9 live).clk.relock = none ∧ live.ms.step ≠ 3 ∧
    (endedSlot (.regular 7) live).scan.ended.isSome = true := by decide +kernel

def locking (k : Relock) (h : Nat) : State := { withStep 3 live with clk := { live.clk with relock := some k, lockAt := h } }

theorem test_meets_DelayLineLocks : (withPower .on State.reset).pw.phase = .on ∧ (withPower .on State.reset).clk.seen = false ∧
    (locking .first 2000).clk.relock = some .first ∧ (locking .period 1000).clk.lockAt ≤ live.now ∧ live.now < (locking .period 1001).clk.lockAt ∧
    (locking .first 2000).hcDriven = true ∧ (stoppedFor 3 (locking .first 2000)).hcDriven = false ∧
    (withSlot (.regular 4) 0 (locking .frozenSlot 1000)).scan.slot = some (.regular 4) := by
  decide +kernel

theorem test_meets_ClockMeasuredAndCounted : live.hcDriven = true ∧ live.clk.measFrom + 1000 ≤ live.now ∧ live.now < live.clk.measFrom + 1001 ∧
    (stoppedFor 3 live).hcDriven = false ∧ live.ca.ticks = none ∧ live.tb.run = true ∧ live.clk.decl ≠ 0 ∧
    live.tb.slewRem = 0 ∧ ({ live with tb := { live.tb with slewRem := 1 } } : State).tb.slewRem ≠ 0 := by decide +kernel

/-! ## Power and resets -/

theorem test_meets_PowerPhases : State.reset.pw.phase = .qualifying ∧ (withPower .softStart State.reset).pw.phase = .softStart ∧
    (withPower .foldbackOpen State.reset).pw.phase = .foldbackOpen ∧ (withPower .thermalHeld State.reset).pw.phase = .thermalHeld ∧
    (withPower .regboHeld State.reset).pw.phase = .regboHeld ∧ (withPower .resetCircuit State.reset).pw.phase = .resetCircuit := by decide +kernel

theorem test_meets_MonitorsSetFlags : live.limiterRuns = true ∧ State.reset.limiterRuns = false ∧ live.pw.phase = .on ∧
    State.reset.pw.phase ≠ .on := by decide +kernel

theorem test_meets_ResetCauses :
    (∀ b, live.pw.lastReset = some (live.now, live.ft, b) → 0 < b) ∧ live.pw.phase ≠ .thermalHeld ∧ live.sh.jobs = [] ∧
      ({ live with pw := { live.pw with deferred := true } } : State).pw.deferred = true ∧
      ({ live with pw := { live.pw with limit := true } } : State).pw.limit = true ∧ live.limiterRuns = true ∧ live.hostClocked = true ∧
      live.ms.halted = false :=
  ⟨fun b h => (nomatch h), by decide +kernel, by decide +kernel, by decide +kernel, by decide +kernel, by decide +kernel, by decide +kernel, by decide +kernel⟩

theorem test_meets_ResetsHeldBack :
    (withPower .thermalHeld live).pw.phase = .thermalHeld ∧ live.pw.deferred = false ∧ live.pw.limit = false ∧ State.reset.limiterRuns = false ∧
      State.reset.hostClocked = false ∧ (halted live).ms.halted = true ∧ (saving live).pw.phase = .on ∧ (saving live).sh.jobs ≠ [] := by decide +kernel

/-! ## The Shed -/

/-- Flash whose epoch page of bank 1 holds epoch 41 with count 7. -/
def withEpochPage (s : State) : State := { s with sh := { s.sh with mem := memSetAll [] (bankBase 1 + 256 * 31) (epochBytes 41 7) } }

theorem test_meets_BankSelection : State.reset.pw.phase ≠ .on ∧ (withStep 2 live).pw.phase = .on ∧ (withStep 2 live).ms.step = 2 ∧
    (withStep 2 live).sh.jobs = [] ∧ (withStep 2 live).sh.bankOk 0 = false ∧ (withStep 2 live).sh.epochBest = none ∧
    (withEpochPage (withStep 2 live)).sh.epochBest = some (1, 41, 7) := by decide +kernel

def programming (k : JobKind) (at_ : Nat) (bytes : List Byte) : State :=
  { live with sh := { live.sh with jobs := [{ kind := k, bank := 1, page := 2, bytes := bytes }], jobAt := some at_ } }

theorem test_meets_PageProgramStores : live.sh.jobs = [] ∧ (programming .payload 1001 [1, 2]).now < 1001 ∧
    (∀ h, (programming .header 1000 [1, 2]).sh.jobAt = some h → h ≤ (programming .header 1000 [1, 2]).now) ∧ live.pw.deferred = false ∧
    (programming .boot 1000 [1]).sh.jobs.length = 1 :=
  ⟨rfl, by decide +kernel, fun h e => by cases e; decide, rfl, rfl⟩

theorem test_meets_SaveChecked :
    ({ live with sh := { live.sh with readback := true, saving := some 0 } } : State).sh.readback = true ∧
      ({ live with sh := { live.sh with readback := true, saving := some 0 } } : State).fires .shedSaveReadbackDone = true ∧
      live.sh.bankOk 0 = false := by decide +kernel

/-- Flash whose bank 0 holds a valid header of a payload of no bytes, with SEQ 7 and WEAR 1. -/
def withImage (s : State) : State :=
  let mem := memSetAll [] (bankBase 0) (headerBytes 0xA5A5 7 1 0 1 (crc32 ((headerBytes 0xA5A5 7 1 0 1 0).take 28)).toNat)
  { s with sh := { s.sh with inForce := some 0, mem := mem } }

theorem test_meets_SaveAndForget : live.takes 0x2B08 ∧ live.unlocked 0x2B = false ∧ (unlockedPage 0x2B live).takes 0x2B08 ∧
    (unlockedPage 0x2B live).unlocked 0x2B = true ∧ live.sh.inForce = none ∧ live.sh.bankOk 0 = false ∧ live.sh.bankOk 1 = false ∧
    live.sh.hasHeader 0 = false ∧ (withImage live).sh.inForce = some 0 ∧ (withImage live).sh.bankOk 0 = true ∧ (withImage live).sh.bankOk 1 = false ∧
    (withImage live).sh.hasHeader 0 = true ∧ (withImage live).sh.hasHeader 1 = false := by
  simp only [takes_iff]; decide +kernel

/-! ## Modes -/

theorem test_meets_CommandRejected :
    sysCmdOf .goActive = some (1, 0) ∧ live.takes 0x0008 ∧ cmdBadArg 0x11 200 = true ∧ live.ms.busy = false ∧ cmdDefined 0x7F = false ∧
      live.cmdAllowed 0x10 = false ∧ ({ live with ms := { live.ms with busy := true } } : State).ms.busy = true := by
  simp only [takes_iff]; decide +kernel

def failedLane (k : Nat) (s : State) : State := { s with dg := { s.dg with failed := [k] } }

def solveReady : State := { withMode .service live with
  ca := { live.ca with zero := some [], points := (List.range 9).map (fun p => { p := p, drive := 0, sense := 0, delta := 1, pS := 0, pD := 0 }) } }

theorem test_meets_CommandAccepted :
    live.takes 0x0008 ∧ live.ms.busy = false ∧ live.cmdAllowed 1 = true ∧ cmdBadArg 1 0 = false ∧ live.ms.mode.code = 1 ∧
      live.cmdAllowed 2 = true ∧ live.cmdAllowed 3 = true ∧ live.cmdAllowed 4 = true ∧ (withMode .startup live).cmdAllowed 1 = true ∧
      live.cmdAllowed 0x0F = true ∧ (withMode .service live).cmdAllowed 0x05 = true ∧ (withMode .service live).cmdAllowed 0x10 = true ∧
      (withMode .service live).cmdAllowed 0x18 = true ∧ (withMode .service live).cmdAllowed 0x14 = true ∧ solveReady.cmdAllowed 0x12 = true ∧ cmdBadArg 0x19 3 = false ∧ (failedLane 3 live).dg.failed.contains 3 = true ∧
      (failedLane 3 live).dg.failed.contains 4 = false ∧ live.exiting = false := by
  simp only [takes_iff]; decide +kernel

def awaiting (w : RefWait) (use : Nat) (inside : Bool) (s : State) : State :=
  { s with ms := { s.ms with refWait := w, refUse := use, refIn := inside } }

theorem test_meets_ReferenceEvents : live.fires .refRdy = true ∧ live.ms.refWait = .none ∧ (awaiting .scan 0 false live).ms.refWait ≠ .none ∧
    (awaiting .startup 0 false live).ms.refUse ≠ 1 ∧ (awaiting .exit 1 true live).ms.refIn = true ∧ live.fires .reffail = true ∧
    (awaiting .scan 1 false live).ms.refUse = 1 ∧ live.hostClocked = true := by decide +kernel

def idleFor (h : Nat) (s : State) : State := { s.setReg 0x020C 1 with ms := { s.ms with idleAt := some h } }
def dorm : State := { withMode .dormant live with ms := { live.ms with mode := .dormant } }
def waking : State := { dorm with ms := { dorm.ms with exit := .waitClock } }

theorem test_meets_DormantPath :
    (((idleFor 1000 live).reg 0x020C).getLsbD 0 = true ∧ (idleFor 1000 live).ms.mode = .active ∧ (idleFor 1000 live).ms.idleAt = some 1000) ∧
      live.ms.idleAt = none ∧ live.fires .dormantModeSet = true ∧
      ({ live with ms := { live.ms with entering := true } } : State).ms.mode ≠ .dormant ∧ live.ms.wakeKept = false ∧
      live.ms.entering = false ∧ dorm.ms.mode = .dormant ∧ dorm.ms.exit = .none ∧ dorm.ms.wake = false ∧
      waking.ms.mode = .dormant ∧ waking.ms.exit = .waitClock ∧ live.epochFires = true ∧ live.rq.epochOld = [] ∧ live.rq.epochDue = true ∧
      ({ live with rq := { live.rq with epochDue := false } } : State).rq.epochDue = false ∧
      ({ live with rq := { live.rq with epochOld := [true] } } : State).epochFires = true ∧
      ({ live with ms := { live.ms with wakeKept := true } } : State).ms.wakeKept = true ∧
      live.rq.waiting = [] ∧ live.rq.used < 64 := by decide +kernel

def bursting (s : State) : State := { s with sk := { s.sk with burstEnd := s.ft + 4 } }

theorem test_meets_DormantExit : (bursting waking).burstUntil ≠ none ∧ (bursting waking).ms.mode = .dormant ∧
    (bursting waking).ms.exit = .waitClock ∧ waking.burstUntil = none := by decide +kernel

def atBoundary (due : Option Nat) : State :=
  { live with scan := { live.scan with nextAt := some 1000 }, ms := { live.ms with due := due } }

theorem test_meets_FrameBoundary :
    live.countHc.boundaryDue = false ∧ (atBoundary (some 3)).countHc.boundaryDue = true ∧ (atBoundary (some 3)).countHc.scan.after = .none ∧
      (atBoundary (some 3)).countHc.ms.due = some 3 ∧ (atBoundary (some 3)).countHc.sh.jobs = [] ∧ (atBoundary (some 2)).countHc.ms.due = some 2 ∧
      (atBoundary none).countHc.boundaryDue = true ∧ (atBoundary none).countHc.ms.due = none ∧ (atBoundary none).countHc.ms.auto = none ∧
      (atBoundary none).countHc.ms.refBad = false ∧ (atBoundary none).countHc.ms.refDue = false ∧ (atBoundary none).countHc.ca.due = none ∧
      (atBoundary none).countHc.inj.phase = .idle ∧ (atBoundary (some 3)).countHc.ms.epochOwed = false ∧
      (saving (atBoundary (some 3))).countHc.sh.jobs ≠ [] ∧ ((withReg 0x020C 0 (atBoundary none)).countHc.reg 0x020C).getLsbD 0 = false := by decide +kernel

/-! ## The scan -/

def lastHc (k : SlotKind) (p : InjPhase) : State := withPhase p (withSlot k 10239 live)

theorem test_meets_SlotEnds :
    live.slotEnds = false ∧ (withSlot (.regular 0) 10238 live).slotEnds = false ∧ (lastHc (.regular 6) .idle).slotEnds = true ∧
      (lastHc (.regular 6) .idle).scan.slot = some (.regular 6) ∧ (lastHc (.regular 6) .idle).inj.phase ≠ .pending ∧
      (lastHc (.regular 7) .idle).slotEnds = true ∧ (lastHc (.regular 7) .pending).inj.phase = .pending ∧
      (lastHc (.cal 0) .idle).slotEnds = true ∧ live.ca.act = none ∧ (lastHc (.injected 0) .slots).slotEnds = true ∧
      (lastHc (.injected 0) .slots).inj.n ≤ 1 ∧
      ({ lastHc (.injected 0) .slots with inj := { live.inj with phase := .slots, n := 2 } } : State).inj.n = 2 := by decide +kernel

def inFlight (k : SlotKind) (due : Nat) : SlotRecs := { due := due, frame := 1, kind := k, elecs := [], health := [], cut := false }
def frame1 (rep : Bool) : FrameCtx :=
  { no := 1, kind := .regular, starts := [], got := [], gdly := 0, scph := 0, coefNew := false, replaced := rep, keep := true, tones := [],
    gbin := 96, dflt := [], regs := [] }
def arriving (k : SlotKind) (due : Nat) : State :=
  { live with scan := { live.scan with flight := [inFlight k due], frames := [frame1 true] } }
def output (ready : Nat) (seen : Bool) : Output := { ready := ready, t32 := 0, phi := 3, prim := true, reset := true, seen := seen, wmap := 0, cells := [] }
def withOutput (o : Output) (s : State) : State := { s with sv := { s.sv with outs := [o] } }
def reportWaits (s : State) : State :=
  { s with rq := { s.rq with waiting := [{ typ := 1, merge := 0, seq := none, epoch := 1, ts := 0, body := [], life := true, cid := none, up := false }] } }

def contact (id : Nat) : Contact :=
  { id := id, x := 0, y := 0, ps := 0, pd := 0, w := 1, h := 1, amp := 9, area := 1, palm := false, wet := false, interp := false, spare := false,
    prim := true, miss := 0, refX := 0, refY := 0, refAt := 0 }

/-- Slot k of an activity, on its last hc. -/
def calibrating (a : CalKind) (k : Nat) : State :=
  { lastHc (.cal k) .idle with ca := { live.ca with act := some a, k := k, lanes := List.replicate 17 zeroLane },
                               dg := { live.dg with ow := List.replicate 160 (4, 0, 0) } }

theorem test_meets_CalibrationSlots :
    (calibrating .trace 4).slotEnds = true ∧ (calibrating .trace 4).ca.act = some .trace ∧ (calibrating .trace 4).ca.k = 4 + 2 * 0 ∧
      (calibrating .openw 23).ca.k = 5 + 2 * 9 ∧ (calibrating .openw 23).dg.ow.length = 160 ∧ ((calibrating .openw 23).laneFor 0).isSome = true ∧
      (failedLane 3 (calibrating .openw 23)).ca.act = some .openw ∧ (calibrating .selfcal 119).ca.lanes.length = 17 ∧
      (calibrating .boot 118).ca.act = some .boot ∧ (calibrating .boot 118).scan.slot = some (.cal 118) ∧
      (owValues live.owCurrent (some 100) (some (-100))).2 = some 0 := by decide +kernel

theorem test_meets_RecordsAndOutputs :
    (∀ r ∈ (arriving (.regular 6) 1001).scan.flight, (arriving (.regular 6) 1001).now < r.due) ∧
      (arriving (.regular 6) 1000).scan.flight = [inFlight (.regular 6) 1000] ∧ (inFlight (.regular 6) 1000).due ≤ live.now ∧
      (∀ c ∈ (arriving (.regular 7) 1000).scan.frames, c.no = 1 → c.replaced = true) ∧
      (∃ c ∈ (arriving (.regular 7) 1000).scan.frames, c.no = 1) ∧ live.ms.entering = false ∧ live.ms.due ≠ some 3 ∧
      (inFlight (.cal 2) 1000).kind = .cal 2 ∧ { inFlight (.regular 3) 1000 with cut := true }.cut = true ∧
      (inFlight (.regular 7) 1000).cut = false ∧ (∀ o ∈ live.sv.outs, o.ready ≤ live.now → o.seen = true) ∧
      (withOutput (output 1000 false) live).sv.outs = output 1000 false :: [] ∧ live.sv.outs = [] ∧
      (withOutput (output 1000 true) { live with now := 5096 }).peaks (output 1000 true) = [] ∧
      (({ live with tr := { live.tr with contacts := [contact 4, contact 9] } } : State).tr.contacts.map (·.id)).Nodup ∧ live.ms.debugUps = false ∧
      ({ live with ms := { live.ms with debugUps := true } } : State).ms.debugUps = true ∧ live.stuckNow (contact 4) = false ∧
      live.now < (output 1000 true).ready + 4096 ∧ ({ live with now := 5096 } : State).now = (output 1000 true).ready + 4096 ∧
      (reportWaits live).rq.waiting ≠ [] ∧ (halted live).ms.halted = true ∧ live.rq.waiting = [] ∧ live.ms.halted = false := by decide +kernel

def tripped (ctrip : Word) : State := { live.setReg 0x2101 ctrip with cl := { live.cl with tripDue := true } }
def watered : State := { (live.setReg 0x2401 4) with force := [(0x0401, 2)] }

/-- A frame whose mutual delta at S0 and drive 0 is `d`. -/
def soaked (d : Rat) : State :=
  { watered with cl := { live.cl with guard := true, drives := [0] }, tr := { live.tr with images := [[d]] } }

theorem test_meets_NoiseAndWater :
    live.cl.tripDue = false ∧ (tripped 0).fires .ntrip = true ∧ (tripped 0).cl.tripDue = true ∧ ((tripped 0).reg 0x2101).getLsbD 1 = false ∧
      ((tripped 2).reg 0x2101).getLsbD 1 = true ∧ (live.setReg 0x2401 0).waterOn = false ∧ watered.waterOn = true ∧ watered.cl.guard = false ∧
      ({ watered with cl := { live.cl with guard := true } } : State).waterOn = true ∧ watered.zoneCand 0 = false ∧
      (soaked 400).cl.guard = true ∧ (soaked 400).waterOn = true ∧ (soaked 400).zoneCand 0 = true ∧ (soaked 1).zoneCand 0 = false ∧
      (soaked 400).cl.zones.length = 16 := by decide +kernel

/-- STUCKT of 1 s at 32 MHz: 32,000,000 hc. -/
def resting (hcpos : Nat) : State :=
  { live with force := [(0x250D, 1)], tb := { live.tb with hcpos := hcpos }, tr := { live.tr with contacts := [contact 4] } }

theorem test_meets_StuckAndOverload :
    (∀ c ∈ (resting 31999999).tr.contacts, c.id = 4 → (resting 31999999).stuckNow c = false) ∧
      (∃ c ∈ (resting 32000000).tr.contacts, c.id = 4 ∧ (resting 32000000).stuckNow c = true) ∧ (resting 32000000).ms.halted = false ∧
      (halted (resting 32000000)).ms.halted = true ∧ (∀ d ∈ [64, 90], 64 ≤ d) ∧
      live.driveWindow = false ∧ (withSlot (.regular 2) 4000 live).driveWindow = true ∧ 9 ∈ [63, 9] ∧ (∀ x ∈ [63, 9], 9 ≤ x) := by decide +kernel

/-! ## BLANK and VSYNC -/

/-- BLANK: the level at the ball, the effective level, and the word; both levels have stood since hc 0. -/
def blankIn (ball eff : Bool) (word : Word) (s : State) : State :=
  { s.setReg 0x0608 word with scan := { s.scan with blkBall := ball, blkEff := eff } }
def deglitching (i : Instr) (h : Nat) (s : State) : State := { s with agenda := [(h, i)] }
def pausedSlot (marked : Bool) (count : Nat) (s : State) : State :=
  { s with scan := { s.scan with paused := true, marked := marked, pauseCount := count } }
def tailUntil (h : Nat) (s : State) : State := { s with scan := { s.scan with tailAt := some h } }
def inSlot (s : State) : State := withSlot (.regular 1) 5 s
def counted (s : State) : State := { s with tb := { s.tb with counted := true } }
def edged (n : Nat) (s : State) : State := { s with scan := { s.scan with edges := n } }

/-- A change of the effective level to `level` that is due on hc `h`, or that has been called off. -/
def blankDueAt (h : Nat) (level off : Bool) (s : State) : State := { s with scan := { s.scan with blkAt := some (h, level, off) } }

theorem test_meets_BlankBall :
    (blankIn false false 1 live).blankDue = none ∧ (blankIn false false 1 live).blankRaw = false ∧ (blankIn true true 1 live).blankRaw = true ∧
      (blankIn false false 1 live).sampled = true ∧ (blankIn true false 1 live).blankGoing = false ∧
      (blankDueAt 1001 true false (blankIn true false 1 live)).blankDue = none ∧ (blankDueAt 1001 true false (blankIn true false 1 live)).blankGoing = true ∧
      (blankDueAt 1000 true false (blankIn true false 1 live)).blankDue = some (true, false) ∧
      (blankDueAt 1000 false true (blankIn false true 1 live)).blankDue = some (false, true) ∧ State.reset.sampled = false := by decide +kernel

theorem test_meets_BlankGate :
    (blankIn true false 1 live).countHc = blankIn true false 1 live ∧
      ((blankDueAt 1000 true false (blankIn true true 1 live)).blankDue = some (true, false) ∧ (blankIn true true 1 live).scan.blkEff = true) ∧
      (blankIn true false 1 (inSlot live)).slotRuns = true ∧ (blankIn true false 1 (inSlot live)).blankIgnored = false ∧
      (blankIn true false 1 live).slotRuns = false ∧ ((blankIn false true 0x3FD live).reg 0x0608).toNat / 4 % 256 = 255 ∧
      ((blankIn false true 1 live).reg 0x0608).toNat / 4 % 256 = 0 ∧ (pausedSlot false 7 (blankIn false true 1 live)).scan.paused = true ∧
      (blankDueAt 1000 false false (pausedSlot false 0 (blankIn false true 0x3FD (withSlot (.regular 1) 0 live)))).blankDue = some (false, false) ∧
      (pausedSlot false 0 (blankIn false true 0x3FD (withSlot (.regular 1) 0 live))).slotRuns = true ∧
      (edged 64 (blankIn false true 1 (inSlot live))).scan.edges = 64 ∧ live.scan.tailAt = none ∧ (tailUntil 1001 live).now < 1001 ∧
      (tailUntil 1000 (pausedSlot false 2561 (inSlot live))).blankedDue = true ∧ (tailUntil 1000 (pausedSlot false 7 live)).scan.paused = true ∧
      (tailUntil 1000 (pausedSlot true 2561 (withSlot (.regular 3) 9 live))).scan.marked = true := by
  refine ⟨rfl, ?_⟩
  decide +kernel

theorem test_meets_BlankLimits :
    live.scan.paused = false ∧ (pausedSlot false 2560 live).scan.pauseCount < 2561 ∧ 2561 ≤ (pausedSlot false 2561 live).scan.pauseCount ∧
      live.blankIgnored = false ∧ (tailUntil 1000 (pausedSlot false 2561 (inSlot live))).scan.slot = some (.regular 1) ∧
      live.slotRuns = false ∧ (inSlot live).slotRuns = true ∧ (edged 65 live).scan.edges = 65 ∧ live.scan.chatIgn = false ∧ live.scan.blkEff = false ∧
      ({ live.setReg 0x0609 1 with scan := { live.scan with blkEff := true, blkTime := 255 } } : State).blankLimit = 256 ∧
      live.scan.stuckIgn = false ∧ live.scan.marked = false := by decide +kernel

def vsyncMode (s : State) : State := { s with force := [(0x2201, 4)], sv := { s.sv with waitReset := false } }
def vsyncDue (use : Bool) (s : State) : State := { s with scan := { s.scan with vsBall := true, vsAt := some (1000, use) } }

theorem test_meets_BlankWriteAndVsync :
    live.takes 0x0608 ∧ State.reset.countHc.sampled = false ∧ live.sampled = true ∧ live.rmode = false ∧
      (((withReg 0x0608 0 live).reg 0x0608).getLsbD 0 = false ∧ (live.reg 0x0608).getLsbD 0 = true ∧ live.scan.blkBall ≠ true ∧ live.scan.blkEff = false) ∧
      live.vsDue = none ∧ (vsyncDue false live).vsDue = some false ∧ (vsyncDue true live).vsDue = some true ∧
      ((vsyncDue true live).vsTake.countHc.sampled = true ∧ (vsyncDue true live).vsTake.countHc.rmode = false) ∧
      (vsyncMode (vsyncDue true live)).vsDue = some true ∧ (vsyncMode (vsyncDue true live)).vsTake.countHc.rmode = true ∧
      live.sv.locked = false ∧ ({ live with agenda := [(1, .vlost)] } : State).agenda = [(1, .vlost)] ∧
      ({ vsyncMode live with sv := { live.sv with locked := true } } : State).rmode = true := by
  simp only [takes_iff]; decide +kernel

/-! ## Injected sequences and the Scarecrow -/

def ramping (p : InjPhase) (fromHc : Nat) : State :=
  { live with force := [(0x0409, 512)], inj := { live.inj with phase := p, rampFrom := fromHc, resume := some 2 } }

theorem test_meets_InjectedSequence :
    State.reset.hcDriven = false ∧ live.hcDriven = true ∧ (withPhase .pending live).inj.phase ≠ .idle ∧ (withMode .startup live).injHeld = true ∧
      live.inj.phase = .idle ∧ live.injHeld = false ∧ live.boundaryDue = false ∧ (atBoundary none).boundaryDue = true ∧ (withSlot (.regular 7) 3 live).injHeld = false ∧
      (withSlot (.regular 7) 3 live).slotRuns = true ∧ live.clk.relock = none ∧ (withSlot (.regular 7) 3 live).resumePolicy = false ∧
      ({ withSlot (.regular 7) 3 live with regs := (List.range 16).map (fun k => (laneAddr k 0x16, 1)) } : State).resumePolicy = true ∧
      live.now < (ramping .exitRamp 489).inj.rampFrom + (ramping .exitRamp 489).ramp ∧
      (ramping .exitRamp 488).inj.rampFrom + (ramping .exitRamp 488).ramp ≤ live.now ∧
      live.now + 1 < (ramping .reentryRamp 490).inj.rampFrom + (ramping .reentryRamp 490).ramp ∧
      (ramping .reentryRamp 489).inj.rampFrom + (ramping .reentryRamp 489).ramp ≤ live.now + 1 ∧ live.inj.resume = none ∧
      (atBoundary none).scan.nextAt = some 1000 := by decide +kernel

theorem test_rest_has_no_slot : ∀ e, live.scan.slot ≠ some (.regular e) := fun _ h => nomatch h

def onEdge (left : Nat) : State := { dorm with sk := { dorm.sk with running := true, passLeft := left } }
/-- Gang 0 enabled in its first look of a cycle whose comparator decides at 10 fast-ticker periods. -/
def looking : Cycle := { start := 0, force := false, looks := List.replicate 8 (gangLook burst (List.replicate 4 burst)), todo := [.gang 0, .gang 1], res := [], began := 0, ends := 8 }

theorem test_meets_ScarecrowCycles : live.cycleDue = false ∧ live.ms.mode ≠ .dormant ∧ (onEdge 8).cycleDue = true ∧
    (onEdge 8).ms.mode = .dormant ∧ (onEdge 8).ms.exit = .none ∧ (onEdge 0).cycleDue = true ∧ (onEdge 0).sk.passLeft = 0 ∧
    ({ onEdge 0 with sk := { (onEdge 0).sk with cyc := some looking } } : State).ms.wake = false ∧ looking.todo = .gang 0 :: [.gang 1] := by decide +kernel

/-! ## Timers and the Gauge -/

def counting (mode : Word) (n : Nat) : Timer := { timerReset with ctrl := mode, count := n, period := 9, perBuf := 0 }
def measuring (sel : Word) (run : Bool) : Timer := { timerReset with ctrl := 4, sel := sel, armed := true, counting := run, count := 5 }
def t5 (x : Timer) : State := withTimer 5 x live

theorem test_meets_TimerControl :
    live.takes (0x2810 + 16 * 0) ∧ live.takes (0x2810 + 16 * 5) ∧ live.takes 0x2801 ∧ (4 : Word).toNat % 8 < 5 ∧ 5 ≤ (5 : Word).toNat % 8 ∧
      (withTimer 5 { timerReset with ctrl := 0x0400 } (halted live)).timerFrozen 5 = true ∧ live.timerFrozen 5 = false ∧
      ((t5 (counting 1 0)).timer 5).mode = 1 ∧ ((t5 (counting 3 0)).timer 5).mode = 3 ∧ ((t5 (measuring 0x77 false)).timer 5).csrc = 7 ∧
      ((t5 (measuring 0x77 true)).timer 5).stop = 7 ∧ ((t5 (measuring 0x77 true)).timer 5).mode = 4 ∧
      (t5 (counting 1 0)).timerFrozen 5 = false :=
  ⟨⟨by decide +kernel, by decide +kernel, by decide +kernel⟩, ⟨by decide +kernel, by decide +kernel, by decide +kernel⟩,
    ⟨by decide +kernel, by decide +kernel, by decide +kernel⟩, by decide +kernel, by decide +kernel, by decide +kernel, by decide +kernel,
    by decide +kernel, by decide +kernel, by decide +kernel, by decide +kernel, by decide +kernel⟩

theorem test_meets_TimerEvents :
    (live.timer 0).step.2 = false ∧ live.timerFrozen 5 = false ∧ ((t5 (counting 1 9)).timer 0).clk ≠ 5 ∧
      ((t5 (counting 1 9)).timer 5).count = ((t5 (counting 1 9)).timer 5).p ∧ ((t5 (counting 2 0)).timer 5).count = 0 ∧
      ((t5 { counting 3 1 with down := true }).timer 5).count ≤ 1 ∧ (live.timer 5).latch = none ∧
      ((t5 { timerReset with latch := some (7, false, true) }).timer 5).latch = some (7, false, true) ∧
      ((t5 { counting 1 9 with fresh := true }).timer 5).fresh = true ∧ ((t5 { counting 1 9 with stay := true }).timer 5).stay = true ∧
      ((t5 { measuring 0x21 false with stay := true }).timer 5).stay = true ∧ (live.timer 5).fresh = false ∧ (live.timer 5).stay = false ∧
      (t5 (measuring 0x21 false)).countHc = t5 (measuring 0x21 false) ∧ ((t5 (measuring 0x21 false)).timer 5).armed = true ∧
      1 ≤ ((t5 (measuring 0x81 false)).timer 5).csrc ∧ ((t5 (measuring 0x81 false)).timer 5).stop = 8 ∧
      ((t5 (measuring 0x81 true)).timer 5).counting = true ∧ ((t5 (measuring 0x11 false)).timer 5).csrc = ((t5 (measuring 0x11 false)).timer 5).stop := by
  refine ⟨?_, ?_, ?_, ?_, ?_, ?_, ?_, ?_, ?_, ?_, ?_, ?_, ?_, rfl, ?_, ?_, ?_, ?_, ?_⟩ <;> decide +kernel

theorem test_meets_GaugeGenerator :
    live.countHc = live ∧ live.takes 0x2901 ∧ live.gaugeRuns = false ∧ (live.setReg 0x2901 1).gaugeRuns = true ∧
      ((live.setReg 0x2901 1).reg 0x2901).getLsbD 1 = false ∧ (live.setReg 0x2901 3).gaugeRuns = true ∧
      ((live.setReg 0x2901 3).reg 0x2901).getLsbD 1 = true :=
  ⟨rfl, ⟨by decide +kernel, by decide +kernel, by decide +kernel⟩, by decide +kernel, by decide +kernel, by decide +kernel, by decide +kernel, by decide +kernel⟩

/-! ## The machine -/

theorem test_meets_IdleStepIsClock :
    live.pending = [] ∧ live.hcDriven = true ∧ live.tb.counted = true ∧ live.agenda = [] ∧ live.turnDue = false ∧ live.awaits = false ∧
      (atBoundary none).awaits = true ∧ (withSlot (.regular 0) 9 live).slotRuns = true ∧ (withSlot (.regular 0) 9 live).awaits = false ∧
      (pausedSlot false 7 (withSlot (.regular 0) 9 live)).awaits = false ∧ live.ms.resetAt = none ∧
      ({ live with tb := { live.tb with counted := false } } : State).tb.counted = false ∧ State.reset.hcDriven = false ∧
      State.reset.cycleDue = false ∧ (stoppedFor 3 live).hcDriven = false ∧ dorm.hcDriven = false ∧ (onEdge 8).cycleDue = true ∧
      live.rq.snapDue = false ∧ ({ live with ms := { live.ms with resetAt := some 1001 } } : State).awaits = false ∧ live.pw.lastReset = none ∧
      live.tb.run = true ∧ live.clk.decl ≠ 0 ∧
      ({ waking with sk := { waking.sk with exitDue := true } } : State).cycleDue = false ∧ waking.hcDriven = false ∧ waking.sk.cyc = none ∧
      waking.sk.burstEnd ≤ waking.ft + 1 ∧ waking.sk.exitDue = false := by decide +kernel

def turning (next : Nat) (done : Bool) (s : State) : State :=
  { s with link := { s.link with turn := some { start := 900, limit := 9000, next := next, done := done } } }
def sentFrame (h0 : Word) : DevFrame := { h0 := h0, h1 := 0, payload := [7, live.reg 0x000A], first := 950, last := 1000 }
def sending (h0 : Word) (s : State) : State := turning 1001 false { s with link := { s.link with sent := [sentFrame h0] } }
def readyAnswer : Resp := { answerWaiting 3 with ready := some 905, payload := [6] }
def anEntry : Report := { typ := 1, merge := 2, seq := some 9, epoch := 1, ts := 77, body := [5], life := true, cid := none, up := false }

/-- A device turn at the start of each kind of frame (END with nothing to send), at one that does not fit, and at each frame's end. -/
theorem test_meets_DeviceTurn :
    (turning 1000 true live).link.turn = some { start := 900, limit := 9000, next := 1000, done := true } ∧ live.rq.replay = none ∧ live.rq.entries = [] ∧
      (∀ r, (withResp [readyAnswer] live).link.resp.find? (fun (r : Resp) => r.ready.any (fun h => decide (h ≤ 900 + 9))) = some r → r.payload = [6]) ∧
      1000 + 72 + 16 * readyAnswer.payload.length + 103 ≤ 9000 ∧ 1100 < 1000 + 72 + 16 * readyAnswer.payload.length + 103 ∧
      (∃ c ∈ keptReport.rq.copies, (c.seqWord == w16 7 && c.epochWord == live.reg 0x000A) = true) ∧
      ({ live with rq := { live.rq with entries := [anEntry], cout := 1 } } : State).rq.entries = anEntry :: [] ∧
      (sending 0x6002 live).link.sent.getLast? = some (sentFrame 0x6002) ∧ (sentFrame 0x6002).h0.toNat / 4096 = 6 ∧
      (sentFrame 0x5005).h0.toNat / 4096 = 5 ∧ (sentFrame 0x5005).h0.getLsbD 11 = false ∧ (sentFrame 0x5805).h0.getLsbD 11 = true ∧
      ({ live with rq := { live.rq with replay := some (7, (live.reg 0x000A).toNat) } } : State).rq.replay = some ((sentFrame 0x5805).seqWord.toNat, (sentFrame 0x5805).epochWord.toNat) ∧
      (withResp [readyAnswer] live).link.resp = [] ++ readyAnswer :: [] ∧ readyAnswer.ready.any (fun h => decide (h ≤ 900 + 9)) = true ∧
      readyAnswer.resent = false ∧ (sentFrame 0x4500).h0.toNat / 4096 ≠ 5 := by decide +kernel

theorem test_meets_StepKeepsInvariant : State.reset.Inv ∧ ∃ t, step State.reset = .next t := by
  refine ⟨⟨?_, ?_, ?_, ?_, ?_, ?_, ?_, ?_⟩, _, rfl⟩ <;> decide

theorem test_meets_CommandsKeepClockAndShed : Instr.vphHigh ≠ Instr.shedPageProgramDone := by decide

/-! ## Single steps against the spec's numbers -/

/-- The state after a command, or reset if it does not answer a next state. -/
def after (i : Instr) (s : State) : State := match exec i s with | .next t => t | _ => State.reset

/-- R60, R69: one flipped bit fails the CRC. -/
theorem test_crc_detects_flip : (frameOf 0x1001 0x0008 []).crcOk = true ∧ Frame.crcOk { frameOf 0x1001 0x0008 [] with h1 := 0x0009 } = false := by
  decide +kernel

/-- R60: CRC-16 of the bytes 31 to 38 (hand calculation, polynomial 0x1021, initial value 0xFFFF) is 0xA12B. -/
theorem test_crc16_check : crc16 [0x3132, 0x3334, 0x3536, 0x3738] = 0xA12B := by decide +kernel

/-- R319: CRC-32 over "123456789" is 0xCBF43926. -/
theorem test_crc32_check : crc32 [0x31, 0x32, 0x33, 0x34, 0x35, 0x36, 0x37, 0x38, 0x39] = 0xCBF43926 := by decide +kernel

/-- R243: a grant of 65,535 credits is taken whole. -/
theorem test_credit_saturates : (after (.credit (frameOf 0x5000 0xFFFF [])) live).rq.cout = 65535 := by decide +kernel

/-- R203, R204: a trip sets NTRIP and the re-plan falls due 2,048 hc later. -/
theorem test_ntrip : (after .ntrip (tripped 0)).cl.replanAt = [3048] ∧ (after .ntrip (tripped 0)).reg 0x2403 = 1 := by decide +kernel

/-- R274: a STOP before any start gives ORDER; a START on the same hc is taken first, with RES. -/
theorem test_measure_order : ((after (.timerMeasureStop 5) (t5 (measuring 0x21 false))).timer 5).req = .order ∧
    ((after (.timerMeasureStart 5) (after (.timerMeasureStop 5) (t5 (measuring 0x21 false)))).timer 5).req = .measured ∧
    ((after (.timerMeasureStart 5) (after (.timerMeasureStop 5) (t5 (measuring 0x21 false)))).timer 5).count = 0 := by decide +kernel

/-- R270: Down mode reloads the buffered PERIOD, and a PERIOD of 0 is taken as 1. -/
theorem test_wrap_down : ((after (.timerWrap 5) (t5 (counting 2 0))).timer 5).count = 1 ∧ (after (.timerWrap 5) (t5 (counting 2 0))).reg 0x2803 = 0x0800 := by
  decide +kernel

/-- R279: v = 65,535 gives a constant high, H = GPER + 1. -/
theorem test_gauge_full : (after .gaugePeriod (withReg 0x2909 999 (withReg 0x2908 0xFFFF (withReg 0x2901 1 live)))).gg.high = 1000 := by decide +kernel

/-- R150: the pause count of 2,561 marks the slot and counts it. -/
theorem test_blanked : (after .blanked (pausedSlot false 2561 live)).scan.marked = true ∧ (after .blanked (pausedSlot false 2561 live)).reg 0x060B = 1 := by
  decide +kernel

/-- R92: a wrong key locks the page and sets BADKEY; 0x0000 does not. -/
theorem test_lock_badkey : (after (.lock 0x2B 0x1234) live).reg 0x2B06 = 4 ∧ (after (.lock 0x2B 0) live).reg 0x2B06 = 0 ∧
    (after (.lock 0x2B 0x6B2B) live).unlocked 0x2B = true := by decide +kernel

/-- R121: a core brown-out resets only behind a closed switch, with RSTCAUSE 0x0008. -/
theorem test_brownout_needs_switch : (after .regbo State.reset).pw.phase = .qualifying ∧ (after .regbo live).reg 0x020E = 8 := by decide +kernel

/-- R121: the watchdog's reset reads RSTCAUSE 0x0010. -/
theorem test_wdog : (after .wdog live).reg 0x020E = 16 ∧ (after .wdog live).ms.mode = .startup := by decide +kernel

end Tests
end Sys2Proof
end

section
/-! SUPPORT. The effect of a register write and of a register read, by the kind of the word (R4, R82 to R99), and what reset leaves. -/

namespace Sys2Proof
namespace Machine

/-! What a host access leaves of the stored bytes. -/

theorem bytesKept_of_keeps {s t : State} (h : Keeps s t) : s.bytesKept t :=
  ⟨fun _ => by rw [h.mem], fun _ => by rw [h.core]⟩

theorem bytesKept_trans {s t u : State} (h : s.bytesKept t) (g : t.bytesKept u) : s.bytesKept u :=
  ⟨fun a => (g.1 a).trans (h.1 a), fun a => (g.2 a).trans (h.2 a)⟩

theorem postWords_bytesKept (s : State) (ps : List Posted) (n : Nat) : s.bytesKept (s.postWords ps n) := by
  unfold State.postWords
  split <;> exact ⟨fun _ => rfl, fun _ => rfl⟩

theorem hostWrite_bytesKept (s : State) (a v : Word) : s.bytesKept (s.hostWrite a v) := by
  unfold State.hostWrite
  split
  · exact bytesKept_of_keeps (.refl s)
  split
  · split
    · exact postWords_bytesKept ..
    · exact bytesKept_of_keeps (.refl s)
  · exact bytesKept_of_keeps (kept_State_writeWord (.refl s))

/-! Which words a write leaves. -/

theorem regsKept_refl (s : State) (l : List Nat) : s.regsKept s l := fun _ _ => rfl

theorem regsKept_setReg (s : State) (a : Nat) (v : Word) : s.regsKept (s.setReg a v) [a] := fun b hb => by
  rw [reg_setReg, if_neg (by simpa using hb)]

theorem regsKept_setFlag (s : State) (p k : Nat) : s.regsKept (s.setFlag p k) [p * 256 + 3] := regsKept_setReg _ _ _

/-! A stored word (R4, R84, R374). -/

theorem storeWord_of_some {s : State} {a : Nat} {v : Word} {r : RegRow} (h : regRow a = some r) :
    s.storeWord a v = s.setReg a (writtenWord r a (s.reg a) v) := by
  simp only [State.storeWord, h]

theorem storeWord_of_none {s : State} {a : Nat} {v : Word} (h : regRow a = none) : s.storeWord a v = s := by
  simp only [State.storeWord, h]

theorem storeWord_frame (s : State) (a : Nat) (v : Word) : s.storeWord a v = { s with regs := (s.storeWord a v).regs } := by
  unfold State.storeWord
  split <;> rfl

theorem storeWord_stores (s : State) (a v : Word) : s.stores (s.storeWord a.toNat v) a v := by
  cases h : regRow a.toNat with
  | none => exact ⟨fun r hr => absurd (h.symm.trans hr) (by simp), by rw [storeWord_of_none h]; exact regsKept_refl _ _⟩
  | some r =>
    rw [storeWord_of_some h]
    refine ⟨fun r' hr => ?_, regsKept_setReg _ _ _⟩
    obtain rfl : r = r' := Option.some.inj (h.symm.trans hr)
    rw [reg_setReg, if_pos rfl, writtenWord]

/-! Where a host write arrives. -/

/-- The state a register write leaves: a declaration comes after the count of its hc (R84, R247). -/
def State.written (s : State) (a v : Word) : State := State.hostWrite (if a = 0x0110 then s.countHc else s) a v

theorem exec_registerWrite (a v : Word) (s : State) : exec (.registerWrite a v) s = .next (s.written a v) := rfl

theorem written_bytesKept (s : State) (a v : Word) : s.bytesKept (s.written a v) := by
  unfold State.written
  split
  · exact bytesKept_trans (bytesKept_of_keeps (kept_State_countHc (.refl s))) (hostWrite_bytesKept ..)
  · exact hostWrite_bytesKept ..

theorem written_eq_writeWord {s : State} {a : Word} (v : Word) (hd : a ≠ 0x0110) (hu : s.linkUp = true)
    (hr : s.shedHolds a.toNat = false) : s.written a v = s.writeWord a.toNat v := by
  simp only [State.written, State.hostWrite, if_neg hd, hu, hr, Bool.not_true, Bool.false_eq_true, if_false]

theorem writeWord_of_unmapped {s : State} {a : Nat} (v : Word) (h : mappedPage (pageOf a) = false) : s.writeWord a v = s := by
  simp [State.writeWord, h]

theorem writeWord_of_plain {s : State} {a : Nat} (v : Word) (h : mappedPage (pageOf a) = true) (hw : wideAt a = none) :
    s.writeWord a v = s.writePlain a v := by
  simp [State.writeWord, h, hw]

/-! A plain word, by its offset in the page (R84 to R92). -/

theorem pageOf_mul_add_offOf (a : Nat) : pageOf a * 256 + offOf a = a := Nat.div_add_mod' a 256

theorem writePlain_ignored {s : State} {a : Nat} (v : Word) (h : offOf a = 0 ∨ offOf a = 7) : s.writePlain a v = s := by
  rcases h with h | h <;> simp [State.writePlain, h]

theorem writePlain_stat {s : State} {a : Nat} (v : Word) (h : offOf a = 2) :
    s.writePlain a v = if v.getLsbD 15 then s.setReg a (s.reg a &&& 0x7FFF) else s := by
  simp [State.writePlain, h, wbit]

theorem writePlain_iflg {s : State} {a : Nat} (v : Word) (h : offOf a = 3) :
    s.writePlain a v = s.setReg a (s.reg a &&& ~~~ (v &&& ~~~ (s.hcFlagBits (pageOf a)))) := by
  simp [State.writePlain, h]

theorem writePlain_ien {s : State} {a : Nat} (v : Word) (h : offOf a = 4) : s.writePlain a v = s.ienWrite (pageOf a) v := by
  simp [State.writePlain, h]

theorem writePlain_block {s : State} {a : Nat} (v : Word) (h : offOf a = 1 ∨ 8 ≤ offOf a) :
    s.writePlain a v = if protectedWord a && !s.unlocked (pageOf a) then s.deny (pageOf a) else s.writeBlock a v := by
  unfold State.writePlain
  split
  case h_8 => rfl
  all_goals omega

theorem writePlain_denied {s : State} {a : Nat} (v : Word) (h : offOf a = 1 ∨ 8 ≤ offOf a) (hp : protectedWord a = true)
    (hu : s.unlocked (pageOf a) = false) : s.writePlain a v = s.deny (pageOf a) := by
  simp [writePlain_block v h, hp, hu]

theorem writePlain_open {s : State} {a : Nat} (v : Word) (h : offOf a = 1 ∨ 8 ≤ offOf a)
    (hl : protectedWord a = true → s.unlocked (pageOf a) = true) : s.writePlain a v = s.writeBlock a v := by
  rw [writePlain_block v h, if_neg]
  simpa using hl

/-! A block word: those whose write does more than store, and the rest (Tables RI-5 to RI-24). -/

/-- The addresses of `actionWord` that are listed one by one. -/
def effectWords : List Nat :=
  [0x0008, 0x0110, 0x0209, 0x0310, 0x0501, 0x040A, 0x0608, 0x0609, 0x2101, 0x2201, 0x2308, 0x2309, 0x230A, 0x230B, 0x2519,
    0x2601, 0x260A, 0x2801, 0x2901, 0x2A14, 0x2B08]

/-- The tone table, the listen entries, the timers' blocks and the lane pages hold none of them. -/
theorem not_mem_effectWords {a : Nat} (h : (0x0510 ≤ a ∧ a < 0x0590) ∨ (0x2420 ≤ a ∧ a < 0x2430) ∨
    (0x2810 ≤ a ∧ a < 0x2870) ∨ (0x1000 ≤ a ∧ a < 0x2100)) : a ∉ effectWords := by
  simp only [effectWords, List.mem_cons, List.not_mem_nil, or_false]
  omega

theorem writeBlock_of_not_mem {s : State} {a : Nat} (v : Word) (h : a ∉ effectWords) :
    s.writeBlock a v =
      if 0x0510 ≤ a ∧ a < 0x0590 then { s with tone := { s.tone with pend := setToneWord s.tone.pend a v } }
      else if 0x2420 ≤ a ∧ a < 0x2430 then s.listenWrite (a - 0x2420) v
      else if 0x2810 ≤ a ∧ a < 0x2870 then s.timerWrite ((a - 0x2810) / 16) (a % 16) v
      else if rowAddr a = 0x1009 then s.erngWrite a v
      else s.storeWord a v := by
  unfold State.writeBlock
  split
  case h_22 => rfl
  all_goals exact absurd h (by decide)

theorem actionWord_iff (a : Nat) : actionWord a = true ↔ a ∈ effectWords ∨ (0x0510 ≤ a ∧ a < 0x0590) ∨
    (0x2420 ≤ a ∧ a < 0x2430) ∨ (0x2810 ≤ a ∧ a < 0x2870) ∨ rowAddr a = 0x1009 := by
  have h : actionWord a = (effectWords.contains a || (decide (0x0510 ≤ a) && decide (a < 0x0590)) ||
    (decide (0x2420 ≤ a) && decide (a < 0x2430)) || (decide (0x2810 ≤ a) && decide (a < 0x2870)) || decide (rowAddr a = 0x1009)) := rfl
  simp only [h, Bool.or_eq_true, Bool.and_eq_true, decide_eq_true_eq, List.contains_iff_mem, or_assoc]

theorem writeBlock_of_not_action {s : State} {a : Nat} (v : Word) (h : actionWord a = false) :
    s.writeBlock a v = s.storeWord a v := by
  have h' : ¬ actionWord a = true := by simp [h]
  rw [actionWord_iff] at h'
  push Not at h'
  obtain ⟨hm, ht, hl, htm, he⟩ := h'
  rw [writeBlock_of_not_mem v hm, if_neg (by omega), if_neg (by omega), if_neg (by omega), if_neg he]

/-! What each word's write leaves, in the terms of the statements. -/

theorem regsKept_deny (s : State) (p : Nat) : s.regsKept (s.deny p) [p * 256 + 6] := regsKept_setReg _ _ _

theorem reg_deny (s : State) (p : Nat) : (s.deny p).reg (p * 256 + 6) = s.reg (p * 256 + 6) ||| 2 := by
  rw [State.deny, reg_setReg, if_pos rfl]

theorem writePlain_stat_spec {s : State} {a : Nat} (v : Word) (h : offOf a = 2) :
    s.writePlain a v = { s with regs := (s.writePlain a v).regs, flagged := (s.writePlain a v).flagged } ∧
      s.regsKept (s.writePlain a v) [a] ∧
      (s.writePlain a v).reg a = if v.getLsbD 15 then s.reg a &&& 0x7FFF else s.reg a := by
  rw [writePlain_stat v h]
  split
  · exact ⟨rfl, regsKept_setReg _ _ _, by rw [reg_setReg, if_pos rfl]⟩
  · exact ⟨rfl, regsKept_refl _ _, rfl⟩

theorem writePlain_iflg_spec {s : State} {a : Nat} (v : Word) (h : offOf a = 3) :
    s.writePlain a v = { s with regs := (s.writePlain a v).regs, flagged := (s.writePlain a v).flagged } ∧
      (s.writePlain a v).reg a = s.reg a &&& ~~~ (v &&& ~~~ (s.hcFlagBits (pageOf a))) ∧
      s.regsKept (s.writePlain a v) [a] := by
  rw [writePlain_iflg v h]
  exact ⟨rfl, by rw [reg_setReg, if_pos rfl], regsKept_setReg _ _ _⟩

theorem writePlain_ien_spec {s : State} {a : Nat} (v : Word) (h : offOf a = 4) :
    s.writePlain a v = { s with regs := (s.writePlain a v).regs, flagged := (s.writePlain a v).flagged,
                                link := { s.link with irqWait := (s.writePlain a v).link.irqWait } } ∧
      (s.writePlain a v).reg a = v &&& w16 (flagMask (pageOf a)) ∧ s.regsKept (s.writePlain a v) [a] := by
  have ha : pageOf a * 256 + 4 = a := by rw [← h, pageOf_mul_add_offOf]
  rw [writePlain_ien v h, State.ienWrite, ha]
  exact ⟨rfl, by rw [reg_setReg, if_pos rfl], regsKept_setReg _ _ _⟩

/-- The clauses of a write to a block word that has no effect of its own (R4, R84, R374). -/
theorem storeWord_spec (s : State) (a v : Word) :
    (∀ r, regRow a.toNat = some r →
      s.storeWord a.toNat v = { s with regs := (s.storeWord a.toNat v).regs, flagged := (s.storeWord a.toNat v).flagged } ∧
      (s.storeWord a.toNat v).reg a.toNat =
        takenWord a.toNat (s.reg a.toNat) ((v &&& w16 r.rw) ||| (s.reg a.toNat &&& ~~~ (w16 r.rw))) &&& ~~~ (v &&& w16 r.w1c) ∧
      s.regsKept (s.storeWord a.toNat v) [a.toNat]) ∧
    (regRow a.toNat = none → s.storeWord a.toNat v = s) := by
  obtain ⟨hreg, hkept⟩ := storeWord_stores s a v
  refine ⟨fun r hr => ⟨?_, hreg r hr, hkept⟩, storeWord_of_none⟩
  rw [storeWord_of_some hr]
  rfl

/-! The words with an effect of their own. -/

theorem writeBlock_refSource (s : State) (v : Word) : s.stores (s.writeBlock 0x0209 v) 0x0209 v ∧
    s.writeBlock 0x0209 v = { s with regs := (s.writeBlock 0x0209 v).regs,
                                     ms := { s.ms with refDue := s.ms.refDue || decide (v.toNat % 4 ≠ 3) } } := by
  have hb : s.writeBlock 0x0209 v = State.storeWord { s with ms := { s.ms with refDue := s.ms.refDue || decide (v.toNat % 4 ≠ 3) } } 0x0209 v := by
    simp [State.writeBlock, fld]
  rw [hb]
  exact ⟨storeWord_stores { s with ms := _ } 0x0209 v, storeWord_frame _ _ _⟩

theorem writeBlock_guard (s : State) (v : Word) : s.stores (s.writeBlock 0x040A v) 0x040A v ∧
    s.writeBlock 0x040A v = { s with regs := (s.writeBlock 0x040A v).regs, tone := { s.tone with gdirty := true } } := by
  have hb : s.writeBlock 0x040A v = State.storeWord { s with tone := { s.tone with gdirty := true } } 0x040A v := rfl
  rw [hb]
  exact ⟨storeWord_stores { s with tone := _ } 0x040A v, storeWord_frame _ _ _⟩

theorem writeBlock_svcoefPtr (s : State) (v : Word) : s.stores (s.writeBlock 0x2308 v) 0x2308 v ∧
    s.writeBlock 0x2308 v = { s with regs := (s.writeBlock 0x2308 v).regs, sv := { s.sv with half := none } } := by
  have hb : s.writeBlock 0x2308 v = State.storeWord { s with sv := { s.sv with half := none } } 0x2308 v := rfl
  rw [hb]
  exact ⟨storeWord_stores { s with sv := _ } 0x2308 v, storeWord_frame _ _ _⟩

/-! ESTTH: the uncertainty stays, and EST follows the new limit (R251). -/

theorem wide_two (s : State) (b : Nat) : s.wide b 2 = (s.reg b).toNat + 65536 * (s.reg (b + 1)).toNat := rfl

theorem wide_two_lt (s : State) (b : Nat) : s.wide b 2 < 2 ^ 32 := by
  have h0 := (s.reg b).isLt
  have h1 := (s.reg (b + 1)).isLt
  rw [wide_two]
  omega

theorem wordAt_wide_zero (s : State) (b : Nat) : wordAt (s.wide b 2) 0 = s.reg b := by
  apply BitVec.eq_of_toNat_eq
  have h0 := (s.reg b).isLt
  simp only [wordAt, w16, wide_two, BitVec.toNat_ofNat]
  omega

theorem wordAt_wide_one (s : State) (b : Nat) : wordAt (s.wide b 2) 1 = s.reg (b + 1) := by
  apply BitVec.eq_of_toNat_eq
  have h0 := (s.reg b).isLt
  have h1 := (s.reg (b + 1)).isLt
  simp only [wordAt, w16, wide_two, BitVec.toNat_ofNat]
  omega

/-- A load of the value already held is no change (R95). -/
theorem setWide_self (s : State) (b : Nat) : s.setWide b 2 (s.wide b 2) = { s with regs := setWords s.regs b (s.wide b 2) 2 } := by
  have h : s.wide b 2 % 2 ^ (16 * 2) = s.wide b 2 := Nat.mod_eq_of_lt (wide_two_lt s b)
  rw [State.setWide, h, State.staleIf, if_neg (by simp)]

theorem reg_setWide_self (s : State) (b c : Nat) : (s.setWide b 2 (s.wide b 2)).reg c = s.reg c := by
  rw [setWide_self, reg_mk]
  simp only [setWords, Regs.get_set, wordAt_wide_zero, wordAt_wide_one, Nat.add_zero]
  split
  · simp [*]
  · split <;> simp [*]

theorem setUnc_self (s : State) : s.setUnc s.unc =
    State.setFlagIf { s.setWide 0x030E 2 s.unc with tb := { s.tb with est := decide ((s.reg 0x0310).toNat ≤ s.unc) } }
      (decide ((s.reg 0x0310).toNat ≤ s.unc) && !s.tb.est) 0x03 2 := by
  have h : min s.unc 0xFFFFFFFF = s.unc := by
    have := wide_two_lt s 0x030E
    unfold State.unc
    omega
  unfold State.setUnc
  rw [h]

theorem setUnc_self_frame (s : State) : s.setUnc s.unc =
    { s with regs := (s.setUnc s.unc).regs, flagged := (s.setUnc s.unc).flagged,
             tb := { s.tb with est := decide ((s.reg 0x0310).toNat ≤ s.unc) } } := by
  rw [setUnc_self, State.unc, setWide_self]
  unfold State.setFlagIf
  split <;> rfl

theorem reg_setUnc_self (s : State) (b : Nat) : (s.setUnc s.unc).reg b =
    if (decide ((s.reg 0x0310).toNat ≤ s.unc) && !s.tb.est) = true ∧ b = 0x0303 then s.reg b ||| 4 else s.reg b := by
  have h : State.reg { s.setWide 0x030E 2 s.unc with tb := { s.tb with est := decide ((s.reg 0x0310).toNat ≤ s.unc) } } b = s.reg b :=
    reg_setWide_self s 0x030E b
  rw [setUnc_self, reg_setFlagIf, h]
  rfl

theorem reg_storeWord_estth (s : State) (v : Word) : (s.storeWord 0x0310 v).reg 0x0310 = v := by
  refine ((storeWord_stores s 0x0310 v).1 _ rfl).trans ?_
  show ((v &&& BitVec.allOnes 16) ||| (s.reg 0x0310 &&& ~~~ (BitVec.allOnes 16))) &&& ~~~ (v &&& 0#16) = v
  rw [BitVec.and_allOnes, BitVec.not_allOnes, BitVec.and_zero, BitVec.and_zero, BitVec.or_zero, BitVec.not_zero, BitVec.and_allOnes]

theorem writeBlock_estth (s : State) (v : Word) :
    s.writeBlock 0x0310 v = { s with regs := (s.writeBlock 0x0310 v).regs, flagged := (s.writeBlock 0x0310 v).flagged,
                                     tb := { s.tb with est := (s.writeBlock 0x0310 v).tb.est } } ∧
      (s.writeBlock 0x0310 v).reg 0x0310 = v ∧
      ((s.writeBlock 0x0310 v).tb.est = true ↔ v.toNat ≤ s.wide 0x030E 2) ∧
      s.regsKept (s.writeBlock 0x0310 v) [0x0310, 0x0303] ∧
      (s.writeBlock 0x0310 v).reg 0x0303 =
        if (s.writeBlock 0x0310 v).tb.est && !s.tb.est then s.reg 0x0303 ||| 4 else s.reg 0x0303 := by
  let u := s.storeWord 0x0310 v
  have hk : s.regsKept u [0x0310] := (storeWord_stores s 0x0310 v).2
  have hv : u.reg 0x0310 = v := reg_storeWord_estth s v
  have hw : u.unc = s.wide 0x030E 2 := by
    rw [State.unc, wide_two, wide_two, hk _ (by decide), hk _ (by decide)]
  have hu : u = { s with regs := u.regs } := storeWord_frame s 0x0310 v
  have htb : u.tb = s.tb := by rw [hu]
  have hb : s.writeBlock 0x0310 v = u.setUnc u.unc := rfl
  have hf := setUnc_self_frame u
  have hr := reg_setUnc_self u
  rw [← hb] at hf hr
  have he : (s.writeBlock 0x0310 v).tb.est = decide (v.toNat ≤ s.wide 0x030E 2) := by rw [hf, hv, hw]
  rw [hv, hw, htb, ← he] at hr
  refine ⟨?_, ?_, by simp [he], fun b h => ?_, ?_⟩
  · rw [hv, hw] at hf
    rw [he]
    exact hf.trans (by rw [hu])
  · rw [hr, if_neg (by simp), hv]
  · simp only [List.mem_cons, List.not_mem_nil, or_false, not_or] at h
    rw [hr, if_neg (by simp [h.2]), hk b (by simp [h.1])]
  · rw [hr, hk _ (by decide)]
    simp

/-! BLKMAX (R153). -/

theorem blkmaxWrite_eq (s : State) : s.blkmaxWrite = { s with agenda := s.agenda ++
    (if s.scan.blkEff = true ∧ s.scan.stuckIgn = false ∧ s.blankLimit ≤ s.scan.blkTime then [(s.now, Instr.blankStuck)] else []) } := by
  unfold State.blkmaxWrite
  split <;> rename_i h <;> simp only [Bool.and_eq_true, Bool.not_eq_true', decide_eq_true_eq, and_assoc] at h
  · rw [if_pos h]; rfl
  · rw [if_neg h, List.append_nil]

theorem writeBlock_blkmax (s : State) (v : Word) : s.stores (s.writeBlock 0x0609 v) 0x0609 v ∧
    s.writeBlock 0x0609 v = { s with regs := (s.writeBlock 0x0609 v).regs, agenda := (s.writeBlock 0x0609 v).agenda } ∧
    (s.writeBlock 0x0609 v).agenda = s.agenda ++ (if s.scan.blkEff = true ∧ s.scan.stuckIgn = false ∧
      (s.writeBlock 0x0609 v).blankLimit ≤ s.scan.blkTime then [(s.now, Instr.blankStuck)] else []) := by
  let u := s.storeWord 0x0609 v
  have hu : u = { s with regs := u.regs } := storeWord_frame s 0x0609 v
  have hb : s.writeBlock 0x0609 v = u.blkmaxWrite := rfl
  rw [hb, blkmaxWrite_eq]
  refine ⟨storeWord_stores s 0x0609 v, ?_, ?_⟩
  · rw [hu]
  · rw [hu]
    rfl

/-! Words that refuse or keep aside: NTAP, DCTRL, ERNG, the tone table, the listen entries (R132, R143, R183, R205, R312). -/

theorem setFlag_spec (s : State) (p k : Nat) :
    s.setFlag p k = { s with regs := (s.setFlag p k).regs, flagged := (s.setFlag p k).flagged } ∧
      (s.setFlag p k).reg (p * 256 + 3) = s.reg (p * 256 + 3) ||| w16 (2 ^ k) ∧ s.regsKept (s.setFlag p k) [p * 256 + 3] :=
  ⟨rfl, by rw [reg_setFlag, if_pos rfl], regsKept_setFlag s p k⟩

theorem writeBlock_ntap {s : State} {a : Word} {b : Nat} (v : Word) (hb : b < 2) (ha : a.toNat = 0x230A + b) :
    s.writeBlock a.toNat v = if s.bankProtected b then s.setFlag 0x23 0 else s.storeWord a.toNat v := by
  rw [ha]
  interval_cases b <;> rfl

theorem writeBlock_dctrl (s : State) (v : Word) :
    (s.ms.mode = .service → s.stores (s.writeBlock 0x2A14 v) 0x2A14 v ∧
      s.writeBlock 0x2A14 v = { s with regs := (s.writeBlock 0x2A14 v).regs }) ∧
    (s.ms.mode ≠ .service →
      s.writeBlock 0x2A14 v = { s with regs := (s.writeBlock 0x2A14 v).regs, flagged := (s.writeBlock 0x2A14 v).flagged } ∧
      (s.writeBlock 0x2A14 v).reg 0x2A03 = s.reg 0x2A03 ||| 0x20 ∧ s.regsKept (s.writeBlock 0x2A14 v) [0x2A03]) := by
  have hb : s.writeBlock 0x2A14 v = if s.ms.mode = .service then s.storeWord 0x2A14 v else s.setFlag 0x2A 5 := rfl
  refine ⟨fun h => ?_, fun h => ?_⟩
  · rw [hb, if_pos h]
    exact ⟨storeWord_stores s 0x2A14 v, storeWord_frame s 0x2A14 v⟩
  · rw [hb, if_neg h]
    exact setFlag_spec s 0x2A 5

theorem rowAddr_erng {a : Nat} (h : rowAddr a = 0x1009) : 0x10 ≤ pageOf a ∧ pageOf a ≤ 0x20 ∧ offOf a = 9 := by
  unfold rowAddr at h
  split at h
  · next hp =>
    simp only [Bool.and_eq_true, decide_eq_true_eq] at hp
    omega
  · subst h
    decide

theorem writeBlock_erng {s : State} {a : Nat} (v : Word) (h : rowAddr a = 0x1009) :
    s.writeBlock a v = if (s.reg (a - 1)).getLsbD 2 then s else s.storeWord a v := by
  obtain ⟨hlo, hhi, ho⟩ := rowAddr_erng h
  simp only [pageOf, offOf] at hlo hhi ho
  have hm : a ∉ effectWords := not_mem_effectWords (by omega)
  rw [writeBlock_of_not_mem v hm, if_neg (by omega), if_neg (by omega), if_neg (by omega), if_pos h]
  rfl

theorem writeBlock_tone {s : State} {a : Nat} (v : Word) (h : 0x0510 ≤ a) (h' : a < 0x0590) :
    s.writeBlock a v = { s with tone := { s.tone with pend := setToneWord s.tone.pend a v } } := by
  have hm : a ∉ effectWords := not_mem_effectWords (by omega)
  rw [writeBlock_of_not_mem v hm, if_pos ⟨h, h'⟩]

theorem writeBlock_listen {s : State} {a : Nat} (v : Word) (h : 0x2420 ≤ a) (h' : a < 0x2430) :
    s.writeBlock a v = { s with cl := { s.cl with listenDue := s.cl.listenDue ++ [(s.now + 256, a - 0x2420, v &&& 0x80FF)] } } := by
  have hm : a ∉ effectWords := not_mem_effectWords (by omega)
  rw [writeBlock_of_not_mem v hm, if_neg (by omega), if_pos ⟨h, h'⟩]
  rfl

/-! The timers' words (Table TG-6). -/

theorem writeBlock_timer {s : State} {n o : Nat} (v : Word) (hn : n < 6) (ho : o < 16) :
    s.writeBlock (0x2810 + 16 * n + o) v = s.timerWrite n o v := by
  have hm : 0x2810 + 16 * n + o ∉ effectWords := not_mem_effectWords (by omega)
  have ht : (0x2810 + 16 * n + o - 0x2810) / 16 = n := by omega
  have hw : (0x2810 + 16 * n + o) % 16 = o := by omega
  rw [writeBlock_of_not_mem v hm, if_neg (by omega), if_neg (by omega), if_pos (by omega), ht, hw]

theorem writeBlock_tsel {s : State} {n : Nat} (v : Word) (hn : n < 6) :
    s.writeBlock (0x2811 + 16 * n) v = s.setTimer n { s.timer n with sel := v &&& 0xFF } := by
  have ha : 0x2811 + 16 * n = 0x2810 + 16 * n + 1 := by omega
  rw [ha, writeBlock_timer v hn (by omega)]
  rfl

theorem writeBlock_tstat {s : State} {n : Nat} (v : Word) (hn : n < 6) :
    s.writeBlock (0x2812 + 16 * n) v = s.setTimer n { s.timer n with ovr := (s.timer n).ovr && !v.getLsbD 2 } := by
  have ha : 0x2812 + 16 * n = 0x2810 + 16 * n + 2 := by omega
  rw [ha, writeBlock_timer v hn (by omega)]
  rfl

theorem setTimer_spec (s : State) {n : Nat} (x : Timer) (hn : n < 6) :
    s.setTimer n x = { s with tm := (s.setTimer n x).tm } ∧ (s.setTimer n x).timer n = x ∧
      ∀ m, m ≠ n → (s.setTimer n x).timer m = s.timer m :=
  ⟨rfl, by simp [hn], fun m hm => by simp [hm]⟩

/-! The words a write reaches as a block word. -/

/-- A block word outside the wide values, and not the declaration: its write takes effect on the state as it stands. -/
def directWord (a : Nat) : Bool := decide (a ≠ 0x0110) && decide (8 ≤ offOf a) && (wideAt a).isNone

theorem directWord_iff (a : Nat) : directWord a = true ↔ a ≠ 0x0110 ∧ 8 ≤ offOf a ∧ wideAt a = none := by
  simp only [directWord, Bool.and_eq_true, decide_eq_true_eq, Option.isNone_iff_eq_none, and_assoc]

/-- The tone table, the listen entries and the lane pages hold no wide value (Table RI-2). -/
theorem wideAt_eq_none {a : Nat} (h : (0x0510 ≤ a ∧ a < 0x0590) ∨ (0x2420 ≤ a ∧ a < 0x2430) ∨ (0x1000 ≤ a ∧ a < 0x2100)) :
    wideAt a = none := by
  have hp : pageOf a ≠ 0x28 := by unfold pageOf; omega
  rw [wideAt, if_neg (by simpa using hp), List.find?_eq_none]
  simp only [wideTable, List.forall_mem_cons, Bool.and_eq_true, decide_eq_true_eq, List.not_mem_nil, IsEmpty.forall_iff,
    implies_true, and_true]
  omega

theorem directWord_tone {a : Nat} (h : 0x0510 ≤ a) (h' : a < 0x0590) : directWord a = true :=
  (directWord_iff a).2 ⟨by omega, by unfold offOf; omega, wideAt_eq_none (by omega)⟩

theorem directWord_listen {a : Nat} (h : 0x2420 ≤ a) (h' : a < 0x2430) : directWord a = true :=
  (directWord_iff a).2 ⟨by omega, by unfold offOf; omega, wideAt_eq_none (by omega)⟩

theorem directWord_erng {a : Nat} (h : rowAddr a = 0x1009) : directWord a = true := by
  obtain ⟨hlo, hhi, ho⟩ := rowAddr_erng h
  simp only [pageOf] at hlo hhi
  exact (directWord_iff a).2 ⟨by omega, by omega, wideAt_eq_none (by omega)⟩

theorem directWord_timer {n : Nat} (hn : n < 6) : directWord (0x2811 + 16 * n) = true ∧ directWord (0x2812 + 16 * n) = true := by
  interval_cases n <;> decide

theorem written_eq_writePlain {s : State} {a : Word} (v : Word) (hd : a ≠ 0x0110) (ht : s.takes a.toNat)
    (hw : wideAt a.toNat = none) : s.written a v = s.writePlain a.toNat v := by
  rw [written_eq_writeWord v hd ht.up ht.ready, writeWord_of_plain v ht.mapped hw]

theorem written_eq_writeBlock {s : State} {a : Word} (v : Word) (ht : s.takes a.toNat)
    (hl : protectedWord a.toNat = true → s.unlocked (pageOf a.toNat) = true) (hd : directWord a.toNat = true) :
    s.written a v = s.writeBlock a.toNat v := by
  obtain ⟨hne, ho, hw⟩ := (directWord_iff _).1 hd
  rw [written_eq_writePlain v (fun h => hne (by rw [h]; rfl)) ht hw, writePlain_open v (.inr ho) hl]

/-! A register read (R4, R67, R92). -/

theorem hostRead_of_takes {s : State} {a : Word} (h : s.takes a.toNat) :
    s.hostRead a = { (s.readWord a.toNat).2 with
      link := { (s.readWord a.toNat).2.link with rdata := (s.readWord a.toNat).1 } } := by
  simp [State.hostRead, h.up, h.mapped]

theorem readWord_of_plain {s : State} {a : Nat} (hw : wideAt a = none) (h : a ≠ 0x2309) :
    s.readWord a = (s.liveWord a, s.readEffect a) := by
  simp [State.readWord, hw, h]

/-- A read of a plain word sets it to 0 or leaves it; the two windows apart (R4, R92). -/
theorem readEffect_of_plain {s : State} {a : Nat} (h1 : a ≠ 0x2519) (h2 : a ≠ 0x2F0A) :
    s.readEffect a =
      if (offOf a = 6 ∧ keyedPage (pageOf a) = true) ∨ ((regRow a).any (fun r => r.rc) = true ∧ 8 ≤ offOf a) then s.setReg a 0
      else s := by
  unfold State.readEffect
  by_cases hk : offOf a = 6 ∧ keyedPage (pageOf a) = true
  · rw [if_pos hk, if_pos (.inl hk)]
  · rw [if_neg hk, if_congr (or_iff_right hk) rfl rfl]
    split
    · exact absurd rfl h1
    · exact absurd rfl h2
    · split <;> next hr => simp [hr]

theorem readEffect_spec {s : State} {a : Nat} (h1 : a ≠ 0x2519) (h2 : a ≠ 0x2F0A) :
    s.readEffect a = { s with regs := (s.readEffect a).regs } ∧ s.regsKept (s.readEffect a) [a] ∧
      (8 ≤ offOf a → (s.readEffect a).reg a = if (regRow a).any (fun r => r.rc) then 0 else s.reg a) ∧
      (offOf a = 6 → keyedPage (pageOf a) = true → (s.readEffect a).reg a = 0) := by
  rw [readEffect_of_plain h1 h2]
  split
  · next h =>
    refine ⟨rfl, regsKept_setReg _ _ _, fun ho => ?_, fun _ _ => by rw [reg_setReg, if_pos rfl]⟩
    obtain ⟨hrc, -⟩ := h.resolve_left (fun h6 => by omega)
    rw [reg_setReg, if_pos rfl, if_pos hrc]
  · next h =>
    push Not at h
    exact ⟨rfl, regsKept_refl _ _, fun ho => by rw [if_neg (fun hr => by have := h.2 hr; omega)], fun h6 hk => absurd hk (h.1 h6)⟩

/-- Settles O20: the word read is live, and the read's one effect is a clear of the word itself. -/
theorem readToClear : Obligations.ReadToClear := by
  intro a s ht hw hcoef hcurve hhid
  have ne {b : Word} (h : a ≠ b) : a.toNat ≠ b.toNat := fun e => h (BitVec.eq_of_toNat_eq e)
  obtain ⟨hframe, hkept, hrc, hlock⟩ := readEffect_spec (s := s) (ne hcurve) (ne hhid)
  have hread : s.hostRead a = { s.readEffect a.toNat with
      link := { (s.readEffect a.toNat).link with rdata := s.liveWord a.toNat } } := by
    rw [hostRead_of_takes ht, readWord_of_plain hw (ne hcoef)]
  have hbytes : s.bytesKept (s.hostRead a) := bytesKept_of_keeps (kept_State_hostRead (.refl s))
  refine ⟨s.hostRead a, rfl, ?_⟩
  rw [hread] at hbytes ⊢
  exact ⟨rfl, by rw [hframe], hkept, hrc, hlock, hbytes⟩

/-- Settles O57: each value is the reset state's own; an empty register file reads the table values (R102), and an empty
Shed reads erased. -/
theorem resetValues : Obligations.ResetValues := by
  have htimer : ∀ n, n < 6 → (State.reset.timer n).mode = 0 ∧ (State.reset.timer n).count = 0 := by decide
  have hreg : ∀ a, State.reset.reg a = resetWord a := fun _ => rfl
  have hmem : ∀ a, memGet State.reset.sh.mem a = 0xFF := fun _ => rfl
  exact ⟨rfl, rfl, rfl, rfl, rfl, rfl, rfl, rfl, rfl, rfl, rfl, rfl, rfl, rfl, rfl, rfl, rfl, rfl, rfl, rfl, htimer, hreg, hmem⟩

/-! A register write by access code: a word of any class, then the words with an effect of their own. -/

/-- Outside the wide values and the declaration, a write is ignored or goes by its word's offset (R82, R84). -/
theorem written_ignored_or_plain (a v : Word) (s : State) (hu : s.linkUp = true) (hr : s.shedHolds a.toNat = false)
    (hw : wideAt a.toNat = none) (hd : a ≠ 0x0110) :
    (mappedPage (pageOf a.toNat) = false ∨ offOf a.toNat = 0 ∨ offOf a.toNat = 7 → s.written a v = s) ∧
    (mappedPage (pageOf a.toNat) = true → s.written a v = s.writePlain a.toNat v) := by
  rw [written_eq_writeWord v hd hu hr]
  refine ⟨fun h => ?_, fun hm => writeWord_of_plain v hm hw⟩
  cases hm : mappedPage (pageOf a.toNat) with
  | false => exact writeWord_of_unmapped v hm
  | true => rw [writeWord_of_plain v hm hw, writePlain_ignored v (by simpa [hm] using h)]

/-- Settles O17: each class of word by the branch of `writePlain` it takes, each word with an effect by its own lemma. -/
theorem registerWriteByAccessCode : Obligations.RegisterWriteByAccessCode := by
  refine ⟨fun a v s hu hr hw => ?_, fun a v s ht hl => ?_, fun v s => ⟨rfl, rfl, rfl, rfl, rfl, rfl⟩⟩
  · refine ⟨s.written a v, rfl, ?_⟩
    by_cases hd : a = 0x0110
    · subst hd
      exact ⟨fun h => absurd h (by decide), fun _ => ⟨fun h => absurd h (by decide), fun h => absurd h (by decide),
        fun h => absurd h (by decide), fun _ => ⟨fun h => absurd h (by decide), fun _ h => absurd h (by decide)⟩⟩,
        written_bytesKept s _ v⟩
    obtain ⟨hignored, hplain⟩ := written_ignored_or_plain a v s hu hr hw hd
    refine ⟨hignored, fun hm => ?_, written_bytesKept s a v⟩
    rw [hplain hm]
    refine ⟨writePlain_stat_spec v, writePlain_iflg_spec v, writePlain_ien_spec v, fun ho => ⟨fun hp hlk => ?_, fun hl hact => ?_⟩⟩
    · rw [writePlain_denied v ho hp hlk]
      exact ⟨rfl, reg_deny s _, regsKept_deny s _⟩
    · rw [writePlain_open v ho hl, writeBlock_of_not_action v hact]
      exact storeWord_spec s a v
  · have hb : directWord a.toNat = true → s.written a v = s.writeBlock a.toNat v := written_eq_writeBlock v ht hl
    refine ⟨s.written a v, rfl, ?_, ?_, ?_, ?_, ?_, ?_, ?_, ?_, ?_, ?_, ?_, ?_⟩
    · rintro rfl
      rw [hb (by decide)]
      exact writeBlock_refSource s v
    · rintro rfl
      rw [hb (by decide)]
      exact writeBlock_estth s v
    · rintro rfl
      rw [hb (by decide)]
      exact writeBlock_guard s v
    · rintro rfl
      rw [hb (by decide)]
      exact writeBlock_blkmax s v
    · intro hlo hhi
      rw [hb (directWord_tone hlo hhi), writeBlock_tone v hlo hhi]
    · rintro rfl
      rw [hb (by decide)]
      exact writeBlock_svcoefPtr s v
    · intro b hlt ha
      rw [hb (by rw [ha]; interval_cases b <;> decide), writeBlock_ntap v hlt ha]
      refine ⟨fun h => ?_, fun h => ?_⟩
      · rw [h, if_pos rfl]
        exact setFlag_spec s 0x23 0
      · rw [h, if_neg (by decide)]
        exact ⟨storeWord_stores s a v, storeWord_frame s a.toNat v⟩
    · intro hlo hhi
      rw [hb (directWord_listen hlo hhi), writeBlock_listen v hlo hhi]
    · intro n hn ha
      rw [hb (ha ▸ (directWord_timer hn).1), ha, writeBlock_tsel v hn]
      exact setTimer_spec s _ hn
    · intro n hn ha
      rw [hb (ha ▸ (directWord_timer hn).2), ha, writeBlock_tstat v hn]
      exact setTimer_spec s _ hn
    · rintro rfl
      rw [hb (by decide)]
      exact writeBlock_dctrl s v
    · intro ha
      rw [hb (directWord_erng ha), writeBlock_erng v ha]
      refine ⟨fun h => by rw [if_pos h], fun h => ?_⟩
      rw [h, if_neg (by decide)]
      exact ⟨storeWord_stores s a v, storeWord_frame s a.toNat v⟩

end Machine
end Sys2Proof
end

section
/-! SUPPORT. The end of self-calibration (R287), and a state in which one lane's words overwrite those of the next. -/

namespace Sys2Proof
namespace Machine

/-! The words self-calibration writes at its end (R287). -/

/-- The words of `v` stored one after the other from a word of lane `k`'s page on. -/
theorem reg_storeRun (m : Word) (k off c : Nat) (v : List Int) : ∀ (n : Nat) (s : State),
    ((v.zipIdx n).foldl (fun (s : State) (p : Int × Nat) => s.setReg (laneAddr k (off + p.2)) (wordOfInt p.1 &&& m)) s).reg c =
      if laneAddr k (off + n) ≤ c ∧ c < laneAddr k (off + n) + v.length then wordOfInt (v.getD (c - laneAddr k (off + n)) 0) &&& m
      else s.reg c := by
  unfold laneAddr
  induction v with
  | nil => intro n s; rw [if_neg (by simp only [List.length_nil]; omega)]; rfl
  | cons x v ih =>
    intro n s
    rw [List.zipIdx_cons, List.foldl_cons, ih, reg_setReg]
    rcases lt_trichotomy c ((0x10 + k) * 256 + (off + n)) with h | h | h
    · rw [if_neg (by omega), if_neg (by omega), if_neg (by omega)]
    · rw [if_neg (by omega), if_pos h, if_pos (by simp only [List.length_cons]; omega), h, Nat.sub_self]; rfl
    · have hc : c - ((0x10 + k) * 256 + (off + n)) = c - ((0x10 + k) * 256 + (off + (n + 1))) + 1 := by omega
      rw [hc, List.getD_cons_succ]
      exact if_congr (by simp only [List.length_cons]; omega) rfl (if_neg (by omega))

/-- The ratio words of a lane run on from offset 0x24 for as long as the list does, past the lane's own page too. -/
theorem reg_writeLane_ratio (s : State) (k : Nat) (l : CalLane) {i : Nat} (h : i < l.newRatio.length) :
    (s.writeLane k l).reg (laneAddr k (0x24 + i)) = wordOfInt (l.newRatio.getD i 0) &&& 0xFFFF := by
  unfold State.writeLane
  dsimp only
  rw [reg_storeRun, if_pos (by unfold laneAddr; omega)]
  congr 3
  unfold laneAddr
  omega

theorem writeLane_of_no_words {s : State} {k : Nat} {l : CalLane} (h1 : l.newOfs = []) (h2 : l.newGain = [])
    (h3 : l.newSkew = []) (h4 : l.newRatio = []) : s.writeLane k l = s := by
  simp [State.writeLane, h1, h2, h3, h4]

theorem foldl_zeroLane (ks : List Nat) (s : State) :
    (ks.map (fun k => (zeroLane, k + 2))).foldl (fun (s : State) (p : CalLane × Nat) => s.writeLane p.2 p.1) s = s := by
  induction ks with
  | nil => rfl
  | cons k ks ih => rw [List.map_cons, List.foldl_cons, writeLane_of_no_words rfl rfl rfl rfl, ih]

/-- At the end of self-calibration only the lanes that pass write words of the lane pages. -/
theorem reg_selfcalEnd {s : State} {a : Nat} (h : a ≠ 0x2C03) (h' : a ≠ 0x2C0C) : s.selfcalEnd.reg a =
    ((s.ca.lanes.zipIdx.filter (fun p => p.1.passes)).foldl (fun (s : State) (p : CalLane × Nat) => s.writeLane p.2 p.1) s).reg a := by
  unfold State.selfcalEnd
  dsimp only
  rw [reg_setFlagIf, if_neg (fun hc => h hc.2), reg_setReg, if_neg h']
  rfl

theorem reg_showCalRange {s : State} {a : Nat} (h : ∀ k, a ≠ laneAddr k 8) : s.showCalRange.reg a = s.reg a := by
  have fold (r : Nat) (l : List Nat) : ∀ s : State, (l.foldl (fun (s : State) k => s.showRange k r) s).reg a = s.reg a := by
    induction l with
    | nil => exact fun _ => rfl
    | cons k l ih =>
      intro s
      rw [List.foldl_cons, ih, State.showRange, reg_setReg, if_neg (h k)]
  unfold State.showCalRange
  split
  · exact fold ..
  · rfl

theorem reg_cmdDone {s : State} {a : Nat} (h : a ≠ 0x0003) : s.cmdDone.reg a = s.reg a := by
  rw [State.cmdDone, reg_setFlag, if_neg h]
  rfl

/-- The lanes with what this slot of self-calibration gives them. -/
def State.lanesAfter (s : State) (d : SlotData) : List CalLane :=
  s.ca.lanes.zipIdx.map (fun (l, i) => s.calLaneSlot rawTable dftTable d i l)

/-- The slots of the verify phase take nothing from the state but their number. -/
theorem lanesAfter_calSat {s : State} {d : SlotData} (h : 104 ≤ s.ca.k) : (s.calSat d).lanesAfter d = s.lanesAfter d := by
  have hca : (s.calSat d).ca = s.ca := State.setFlagIf_ca ..
  have hslot (l : CalLane) (i : Nat) : (s.calSat d).calLaneSlot rawTable dftTable d i l = s.calLaneSlot rawTable dftTable d i l := by
    simp only [State.calLaneSlot, hca, if_neg (show ¬ s.ca.k < 104 by omega)]
  simp only [State.lanesAfter, hca, hslot]

/-- A word that neither CMDDONE nor Lk.GAIN.RANGE shares its register with: after the last slot of SELFCAL it reads as the
end of self-calibration leaves it. -/
theorem reg_slotEnd_selfcal {s : State} {d : SlotData} {k a : Nat} (h : s.slotEnds = true) (hs : s.scan.slot = some (.cal k))
    (ha : s.ca.act = some .selfcal) (hk : s.ca.k = 119) (hd : a ≠ 0x0003) (hr : ∀ k, a ≠ laneAddr k 8) :
    (s.slotEndOp d).reg a =
      (State.selfcalEnd { s.calSat d with ca := { s.ca with lanes := s.lanesAfter d, k := 120 } }).reg a := by
  have hca : (s.calSat d).ca = s.ca := State.setFlagIf_ca ..
  have hslot : s.calSlot d =
      (State.selfcalEnd { s.calSat d with ca := { s.ca with lanes := s.lanesAfter d, k := 120 } }).cmdDone := by
    rw [← lanesAfter_calSat (by omega)]
    simp [State.calSlot, ha, State.calPhaseEnd, hk, hca, CalKind.slots, State.lanesAfter]
  have hnext : (s.calNext d).reg a = (s.calSlot d).showCalRange.reg a := by
    simp only [State.calNext, ha, reduceCtorEq, if_false]
    split <;> rfl
  have hop : (s.slotEndOp d).reg a = (s.calNext d).reg a := by
    simp only [State.slotEndOp, h, hs, Bool.not_true, Bool.false_eq_true, if_false]
    rfl
  rw [hop, hnext, reg_showCalRange hr, hslot, reg_cmdDone hd]

/-- A lane whose list of ratio words runs past its own page. It passes verification, which looks at the first three. -/
def longLane : CalLane := { zeroLane with newRatio := [8192, 16384, 32768] ++ List.replicate 242 1 }

/-- A lane that fails verification by its offset. -/
def failingLane : CalLane := { zeroLane with vofs := [10000, 0, 0, 0] }

/-- The last hc of the last slot of SELFCAL, with a long lane 0 and a failing lane 1. -/
def longRatios : State :=
  { State.reset with
    scan := { State.reset.scan with slot := some (.cal 119), h := 10239 }
    ca := { State.reset.ca with act := some .selfcal, k := 119, lanes := longLane :: failingLane :: List.replicate 15 zeroLane } }

def noSlotData : SlotData := { codes := [], fits := [], volts := [] }

theorem longRatios_ends : longRatios.slotEnds = true := by decide +kernel

theorem longRatios_lanesAfter : longRatios.lanesAfter noSlotData = longRatios.ca.lanes := by
  decide +kernel

theorem failingLane_passes : failingLane.passes = false := by decide +kernel

theorem longRatios_passing : longRatios.ca.lanes.zipIdx.filter (fun p => p.1.passes) =
    (longLane, 0) :: (List.range 15).map (fun k => (zeroLane, k + 2)) := by decide +kernel

theorem longLane_last : 244 < longLane.newRatio.length ∧ longLane.newRatio.getD 244 0 = 1 := by decide +kernel

/-- Lane 0 writes the first slice word of lane 1, which failed. -/
theorem longRatios_overwrites : (longRatios.slotEndOp noSlotData).reg (laneAddr 1 0x18) = 1 := by
  obtain ⟨hlen, hone⟩ := longLane_last
  have hrun : laneAddr 1 0x18 = laneAddr 0 (0x24 + 244) := by decide
  rw [reg_slotEnd_selfcal (k := 119) longRatios_ends rfl rfl rfl (by decide) (fun k => by unfold laneAddr; omega),
    longRatios_lanesAfter, reg_selfcalEnd (by decide) (by decide), longRatios_passing, List.foldl_cons, foldl_zeroLane,
    hrun, reg_writeLane_ratio _ _ _ hlen, hone]
  decide

/-- Refutes O44: the list of ratio words of a lane is not bounded as those of its offsets and gains are, and one that runs past the
lane's own page overwrites the slice words of the next lane, which has failed verification and should keep them. -/
theorem not_slotEnds : ¬ Obligations.SlotEnds := by
  intro h
  obtain ⟨-, -, -, hcal, -⟩ := h noSlotData longRatios
  obtain ⟨t, ht, -, -, -, -, -, -, -, hself, -⟩ := hcal 119 longRatios_ends rfl
  obtain ⟨ls, hls, -, hlast⟩ := hself .selfcal rfl (.inr rfl) rfl
  obtain ⟨-, -, hlanes⟩ := hlast rfl
  obtain rfl : longRatios.slotEndOp noSlotData = t := Host.Outcome.next.inj ht
  have hl : ls[1]? = some failingLane := by rw [hls]; exact congrArg (·[1]?) longRatios_lanesAfter
  have hkept := (hlanes 1 failingLane 0 hl (by decide)).1 failingLane_passes
  rw [longRatios_overwrites] at hkept
  exact absurd hkept.1 (by decide +kernel)

end Machine
end Sys2Proof
end

section
/-! SUPPORT. What the timers, the Gauge and late reports leave alone when an hc is counted (R247). -/

namespace Sys2Proof
namespace Machine

/-! What the timers and the Gauge leave alone: each changes its own part of the state and page flags, nothing else. -/

/-- `t` is `s` but for timers, registers and flags. -/
def State.timersOnly (s t : State) : Prop := t = { s with regs := t.regs, flagged := t.flagged, tm := t.tm }

theorem State.timersOnly.refl (s : State) : s.timersOnly s := rfl

theorem State.timersOnly.trans {s t u : State} (h : s.timersOnly t) (g : t.timersOnly u) : s.timersOnly u :=
  Eq.trans g (by rw [h])

theorem State.timersOnly.tb {s t : State} (h : s.timersOnly t) : t.tb = s.tb := by rw [State.timersOnly] at h; rw [h]
theorem State.timersOnly.rq {s t : State} (h : s.timersOnly t) : t.rq = s.rq := by rw [State.timersOnly] at h; rw [h]
theorem State.timersOnly.link {s t : State} (h : s.timersOnly t) : t.link = s.link := by rw [State.timersOnly] at h; rw [h]

theorem timersOnly_setFlag (s : State) (p k : Nat) : s.timersOnly (s.setFlag p k) := rfl
theorem timersOnly_setTimer (s : State) (n : Nat) (x : Timer) : s.timersOnly (s.setTimer n x) := rfl

theorem timersOnly_wrapEvents (fuel : Nat) : ∀ (s : State) (t : Nat), s.timersOnly (s.wrapEvents fuel t) := by
  induction fuel with
  | zero => exact fun s _ => .refl s
  | succ fuel ih =>
    intro s t
    refine (timersOnly_setFlag s 0x28 (6 + t)).trans ?_
    unfold State.wrapEvents
    dsimp only
    split
    · split
      · split
        · exact (timersOnly_setTimer ..).trans (ih _ _)
        · exact timersOnly_setTimer ..
      · exact timersOnly_setTimer ..
    · exact .refl _

theorem timersOnly_countTimer (s : State) (t : Nat) : s.timersOnly (s.countTimer t) := by
  unfold State.countTimer
  dsimp only
  split
  · split
    · exact (timersOnly_setTimer ..).trans (timersOnly_wrapEvents ..)
    · exact timersOnly_setTimer ..
  · exact .refl s

theorem timersOnly_countClk (s : State) (c : Nat) : s.timersOnly (s.countClk c) :=
  List.foldlRecOn _ _ (.refl s) fun u hu t _ => hu.trans (by split; exacts [timersOnly_countTimer u t, .refl u])

theorem timersOnly_timerEvent (s : State) (c : Nat) : s.timersOnly (s.timerEvent c) :=
  List.foldlRecOn _ _ (.refl s) fun u hu t _ => hu.trans (by split; exacts [timersOnly_setTimer u t _, .refl u])

theorem timersOnly_tickTimers (s : State) (n : Nat) : s.timersOnly (s.tickTimers n) := by
  unfold State.tickTimers
  dsimp only
  split
  · exact timersOnly_countClk s 0
  · exact (timersOnly_countClk s 0).trans (timersOnly_countClk _ 1)

/-! The time base on an hc that is counted (R247): what follows the accumulator leaves it alone. -/

@[simp] theorem tb_gaugeEdgeOp (s : State) : s.gaugeEdgeOp.tb = s.tb := State.setFlagIf_tb ..

@[simp] theorem tb_gaugePeriodOp (s : State) : s.gaugePeriodOp.tb = s.tb := rfl

@[simp] theorem tb_gaugeTick (s : State) : s.gaugeTick.tb = s.tb := by
  simp [State.gaugeTick, apply_ite State.tb]

@[simp] theorem tb_timerEvent (s : State) (c : Nat) : (s.timerEvent c).tb = s.tb :=
  (timersOnly_timerEvent s c).tb

@[simp] theorem tb_tickTimers (s : State) (n : Nat) : (s.tickTimers n).tb = s.tb :=
  (timersOnly_tickTimers s n).tb

@[simp] theorem tb_takeEntry (s : State) (r : Report) : (s.takeEntry r).tb = s.tb := by
  unfold State.takeEntry
  split
  · rfl
  · exact tb_timerEvent ..

@[simp] theorem tb_waitEntry (s : State) (r : Report) : (s.waitEntry r).tb = s.tb := by
  simp [State.waitEntry, apply_ite State.tb]

@[simp] theorem tb_absorbHolder (s : State) (r : Report) : (s.absorbHolder r).2.tb = s.tb := by
  unfold State.absorbHolder
  split <;> rfl

@[simp] theorem tb_queueLane (s : State) (r : Report) : (s.queueLane r).tb = s.tb := by
  have hlife : (s.queueLife r).tb = s.tb := by
    have hpair : (if r.up then s.absorbHolder r else (r, s)).2.tb = s.tb := by
      split
      · exact tb_absorbHolder ..
      · rfl
    unfold State.queueLife
    rw [← hpair]
    simp [apply_ite State.tb]
  unfold State.queueLane
  split
  · rfl
  · exact hlife

@[simp] theorem tb_lateReports (s : State) : s.lateReports.tb = s.tb :=
  List.foldlRecOn (motive := fun t : State => t.tb = s.tb) _ _ rfl fun _ h _ _ => (tb_queueLane ..).trans h

/-- An hc that is counted leaves the time base as the accumulator does (R247). -/
theorem tb_countHc {s : State} (hd : s.hcDriven = true) (hc : s.tb.counted = false) :
    s.countHc.tb = (State.accumulate { s with tb := { s.tb with counted := true } }).tb := by
  simp [State.countHc, hd, hc, State.tickTime, apply_ite State.tb]

end Machine
end Sys2Proof
end

section
/-! SUPPORT. The turn of an hc on which nothing is due, and the CMD reset that may fall on it (R9, R121, R149). -/

namespace Sys2Proof
namespace Machine

/-! One hc ends and the next begins: what passes through every operation of that turn (log entry 1). -/

/-- What the sequencer's own count aside no operation at the turn of an hc changes: the queue, the fast ticker, the modes, the
supply, the time base, and where the slot stands. -/
def State.hcPart (s : State) :
    List Instr × Nat × Nat × ModeCtl × Power × TimeBase × Option SlotKind × Nat × Nat :=
  (s.pending, s.now, s.ft, s.ms, s.pw, s.tb, s.scan.slot, s.scan.h, s.scan.pauseCount)

theorem hcPart_setFlagIf (s : State) (c : Bool) (p k : Nat) : (s.setFlagIf c p k).hcPart = s.hcPart := by
  unfold State.setFlagIf
  split <;> rfl

theorem State.timersOnly.hcPart {s t : State} (h : s.timersOnly t) : t.hcPart = s.hcPart := by
  rw [State.timersOnly] at h
  rw [h]
  rfl

theorem hcPart_tickBlank (s : State) : s.tickBlank.hcPart = s.hcPart := by
  unfold State.tickBlank
  dsimp only
  split
  · split <;> rfl
  · rfl

theorem hcPart_tickLatch (s : State) : s.tickLatch.hcPart = s.hcPart :=
  List.foldlRecOn (motive := fun t : State => t.hcPart = s.hcPart) _ _ rfl fun u hu t _ => by
    dsimp only
    split <;> exact hu

theorem hcPart_spillEdge (s : State) : s.spillEdge.hcPart = s.hcPart := by
  unfold State.spillEdge
  split
  · rfl
  · exact hcPart_setFlagIf ..

theorem hcPart_slotOver (s : State) : s.slotOver.hcPart = s.hcPart := by
  unfold State.slotOver
  dsimp only
  split <;> rfl

theorem hcPart_attnSet (s : State) (low : Bool) : (s.attnSet low).hcPart = s.hcPart := by
  unfold State.attnSet
  dsimp only
  split
  · exact (timersOnly_timerEvent ..).hcPart
  · rfl

theorem hcPart_trackLine (s : State) : s.trackLine.hcPart = s.hcPart := by
  unfold State.trackLine
  split <;> rfl

theorem hcPart_tickPin (s : State) : s.tickPin.hcPart = s.hcPart := by
  unfold State.tickPin
  split <;> rfl

theorem hcPart_tickVsync (s : State) : s.tickVsync.hcPart = s.hcPart := by
  unfold State.tickVsync
  split <;> rfl

/-- The next hc, before a CMD reset that falls on it. -/
theorem nextHc_eq_tickReset (s : State) : ∃ v : State, s.nextHc = v.tickReset ∧
    v.hcPart = State.hcPart { s.slotOver with now := s.slotOver.now + 1, tb := { s.slotOver.tb with counted := false } } :=
  ⟨_, rfl, by rw [hcPart_tickVsync, hcPart_tickPin, hcPart_trackLine, State.tickRamp, hcPart_setFlagIf, hcPart_attnSet]; rfl⟩

/-- The turn of an hc, before a CMD reset: the hc after, not yet counted, with the slot where the sequencer put it. -/
theorem hcTick_eq_tickReset (s : State) : ∃ v : State, s.hcTick = v.tickReset ∧
    v.hcPart = State.hcPart { s.tickSlot with now := s.tickSlot.now + 1, tb := { s.tickSlot.tb with counted := false } } := by
  obtain ⟨v, hv, hpart⟩ := nextHc_eq_tickReset (s.tickSlot.tickBlank.tickLatch.spillEdge)
  have h : s.tickSlot.tickBlank.tickLatch.spillEdge.slotOver.hcPart = s.tickSlot.hcPart := by
    rw [hcPart_slotOver, hcPart_spillEdge, hcPart_tickLatch, hcPart_tickBlank]
  refine ⟨v, hv, hpart.trans ?_⟩
  simp only [State.hcPart, Prod.mk.injEq] at h ⊢
  simp [h]

/-! The slot sequencer (R9, R149). -/

theorem slotBegin_keeps (s : State) (pos : Nat) : (s.slotBegin pos).pending = s.pending ∧ (s.slotBegin pos).now = s.now ∧
    (s.slotBegin pos).ft = s.ft ∧ (s.slotBegin pos).ms = s.ms ∧ (s.slotBegin pos).pw = s.pw ∧ (s.slotBegin pos).tb = s.tb := by
  unfold State.slotBegin
  dsimp only
  split
  · split <;> exact ⟨rfl, rfl, rfl, rfl, rfl, rfl⟩
  · exact ⟨rfl, rfl, rfl, rfl, rfl, rfl⟩

theorem tickSlot_keeps (s : State) : s.tickSlot.pending = s.pending ∧ s.tickSlot.now = s.now ∧ s.tickSlot.ft = s.ft ∧
    s.tickSlot.ms = s.ms ∧ s.tickSlot.pw = s.pw ∧ s.tickSlot.tb = s.tb := by
  unfold State.tickSlot
  dsimp only
  by_cases hstart : s.scan.lead = 1
  · rw [if_neg (by omega : ¬ 1 < s.scan.lead), if_pos hstart]
    split
    · exact ⟨rfl, rfl, rfl, rfl, rfl, rfl⟩
    · exact slotBegin_keeps { s with scan := { s.scan with lead := 0, h := 0 } } _
  · rw [if_neg hstart]
    split_ifs <;> exact ⟨rfl, rfl, rfl, rfl, rfl, rfl⟩

theorem slotRuns_iff (s : State) : s.slotRuns = true ↔ s.scan.slot ≠ none ∧ s.scan.lead = 0 := by
  simp [State.slotRuns, Option.isSome_iff_ne_none]

theorem tickSlot_of_running {s : State} (h : s.slotRuns = true) (hp : s.scan.paused = false) :
    s.tickSlot = { s with scan := { s.scan with h := s.scan.h + 1 } } := by
  obtain ⟨hslot, hlead⟩ := (slotRuns_iff s).1 h
  simp [State.tickSlot, hslot, hlead, hp]

/-- A pause counts its hc; h stands. -/
theorem tickSlot_of_paused {s : State} (h : s.slotRuns = true) (hp : s.scan.paused = true) :
    s.tickSlot.scan = { s.scan with pauseCount := s.scan.pauseCount + 1 } := by
  obtain ⟨hslot, hlead⟩ := (slotRuns_iff s).1 h
  simp [State.tickSlot, hslot, hlead, hp, apply_ite State.scan]

/-! A reset (R121). -/

theorem tickReset_of_none {s : State} (h : s.ms.resetAt = none) : s.tickReset = s := by
  simp [State.tickReset, h]

theorem tickReset_of_due {s : State} {r : Nat} (h : s.ms.resetAt = some r) (hr : r ≤ s.now) :
    s.tickReset = s.hardReset 5 .resetCircuit s.pw.limit := by
  simp [State.tickReset, h, hr]

theorem tickReset_keeps (s : State) : s.tickReset.pending = s.pending ∧ s.tickReset.now = s.now ∧ s.tickReset.ft = s.ft := by
  have hreset := holds_hardReset s 5 .resetCircuit s.pw.limit
  unfold State.tickReset
  split
  · split
    · exact ⟨hreset.pending, hreset.now, hreset.ft⟩
    · exact ⟨rfl, rfl, rfl⟩
  · exact ⟨rfl, rfl, rfl⟩

/-- `t` is `s` but for register words, RSTCAUSE not among them. -/
def State.wordsOnly (s t : State) : Prop := t = { s with regs := t.regs } ∧ t.reg 0x020E = s.reg 0x020E

theorem wordsOnly_setReg {s t : State} (h : s.wordsOnly t) (k o : Nat) (v : Word) : s.wordsOnly (t.setReg (laneAddr k o) v) := by
  refine ⟨by rw [h.1]; rfl, ?_⟩
  rw [reg_setReg, if_neg (by unfold laneAddr; omega), h.2]

/-- The seeds load into the lane pages; nothing else changes (R284, R285). -/
theorem wordsOnly_loadSeeds (s : State) : s.wordsOnly s.loadSeeds :=
  List.foldlRecOn (motive := s.wordsOnly) _ _ ⟨rfl, rfl⟩ fun _ hu _ _ =>
    List.foldlRecOn (motive := s.wordsOnly) _ _ (List.foldlRecOn (motive := s.wordsOnly) _ _ hu fun _ hv _ _ => wordsOnly_setReg hv ..)
      fun _ hv _ _ => wordsOnly_setReg hv ..

/-- What a reset leaves, unless one of its own instant with a higher cause has come before. -/
theorem hardReset_spec (s : State) (bit : Nat) (p : PowerPhase) (l : Bool)
    (h : ∀ b, s.pw.lastReset = some (s.now, s.ft, b) → bit < b) :
    (s.hardReset bit p l).reg 0x020E = w16 (2 ^ bit) ∧ (s.hardReset bit p l).pw.phase = p ∧
      (s.hardReset bit p l).ms.mode = .startup ∧ (s.hardReset bit p l).link = State.reset.link ∧
      (s.hardReset bit p l).rq = State.reset.rq := by
  have hfirst : s.pw.lastReset.any (fun r => decide (r.1 = s.now) && decide (r.2.1 = s.ft) && decide (r.2.2 ≤ bit)) = false := by
    cases hr : s.pw.lastReset with
    | none => rfl
    | some r =>
      obtain ⟨n, f, b⟩ := r
      simp only [Option.any_some, Bool.and_eq_false_imp, Bool.and_eq_true, decide_eq_true_eq, decide_eq_false_iff_not, and_imp]
      rintro rfl rfl
      exact Nat.not_le.2 (h b hr)
  unfold State.hardReset
  rw [hfirst, if_neg (by simp)]
  dsimp only
  generalize hz : State.setReg _ _ _ = z
  obtain ⟨hframe, hreg⟩ := wordsOnly_loadSeeds z
  rw [hreg, hframe, ← hz]
  exact ⟨by rw [reg_setReg, if_pos rfl], rfl, rfl, rfl, rfl⟩

end Machine
end Sys2Proof
end

section
/-! SUPPORT. The branches of the clock (log entry 1), and the frames of a device turn, from their start to their last bit (R56, R57, R242, R243). -/

namespace Sys2Proof
namespace Machine

/-! Which branch of the clock a state takes (log entry 1). -/

theorem step_of_empty_queue {s : State} (h : s.pending = []) : step s = .next s.clock := by
  simp [step, h]

theorem dueEvents_of_no_agenda {s : State} (h : s.agenda = []) (late : Bool) : s.dueEvents late = [] := by
  simp [State.dueEvents, h]

theorem clock_of_uncounted {s : State} (hd : s.hcDriven = true) (hc : s.tb.counted = false) : s.clock = s.countHc := by
  simp [State.clock, hd, hc]

theorem clock_of_turn {s : State} (hd : s.hcDriven = true) (hc : s.tb.counted = true) (ha : s.agenda = [])
    (ht : s.turnDue = true) : s.clock = s.turnTick := by
  simp [State.clock, hd, hc, dueEvents_of_no_agenda ha, ht]

theorem clock_of_quiet {s : State} (hd : s.hcDriven = true) (hc : s.tb.counted = true) (ha : s.agenda = [])
    (ht : s.turnDue = false) (hq : s.rq.snapDue = false) : s.clock = if s.awaits then s else s.hcTick := by
  simp [State.clock, hd, hc, dueEvents_of_no_agenda ha, ht, hq]

theorem clock_of_ticker {s : State} (hd : s.hcDriven = false) : s.clock = if s.cycleDue then s else s.ftTick := by
  simp [State.clock, hd]

/-! An hc on which nothing is due. -/

/-- The turn of an hc, seen from the state before it: a CMD reset apart, what it leaves of queue, clocks, modes and slot. -/
theorem hcTick_spec (s : State) : ∃ v : State, s.hcTick = v.tickReset ∧ v.now = s.now + 1 ∧ v.ft = s.ft ∧ v.pending = s.pending ∧
    v.ms = s.ms ∧ v.pw = s.pw ∧ v.tb.counted = false ∧ v.scan.slot = s.tickSlot.scan.slot ∧ v.scan.h = s.tickSlot.scan.h ∧
    v.scan.pauseCount = s.tickSlot.scan.pauseCount := by
  obtain ⟨v, hv, hpart⟩ := hcTick_eq_tickReset s
  obtain ⟨hpending, hnow, hft, hms, hpw, -⟩ := tickSlot_keeps s
  simp only [State.hcPart, Prod.mk.injEq] at hpart
  obtain ⟨vpending, vnow, vft, vms, vpw, vtb, vslot, vh, vpause⟩ := hpart
  exact ⟨v, hv, by rw [vnow, hnow], by rw [vft, hft], by rw [vpending, hpending], by rw [vms, hms], by rw [vpw, hpw], by rw [vtb],
    vslot, vh, vpause⟩

theorem hcTick_of_no_reset {s : State} (h : s.ms.resetAt = none) : s.hcTick.tb.counted = false ∧
    s.hcTick.scan.slot = s.tickSlot.scan.slot ∧ s.hcTick.scan.h = s.tickSlot.scan.h ∧
    s.hcTick.scan.pauseCount = s.tickSlot.scan.pauseCount := by
  obtain ⟨v, hv, -, -, -, vms, -, vcounted, vslot, vh, vpause⟩ := hcTick_spec s
  rw [hv, tickReset_of_none (vms ▸ h)]
  exact ⟨vcounted, vslot, vh, vpause⟩

theorem hcTick_clocks (s : State) : s.hcTick.now = s.now + 1 ∧ s.hcTick.ft = s.ft ∧ s.hcTick.pending = s.pending := by
  obtain ⟨v, hv, vnow, vft, vpending, -⟩ := hcTick_spec s
  obtain ⟨hpending, hnow, hft⟩ := tickReset_keeps v
  rw [hv]
  exact ⟨hnow.trans vnow, hft.trans vft, hpending.trans vpending⟩

/-- A CMD reset takes place on its hc (R115, R121). -/
theorem hcTick_of_reset {s : State} {r : Nat} (h : s.ms.resetAt = some r) (hr : r ≤ s.now + 1)
    (hl : ∀ b, s.pw.lastReset = some (s.now + 1, s.ft, b) → 5 < b) :
    s.hcTick.reg 0x020E = 32 ∧ s.hcTick.pw.phase = .resetCircuit ∧ s.hcTick.ms.mode = .startup ∧
      s.hcTick.link = State.reset.link ∧ s.hcTick.rq = State.reset.rq := by
  obtain ⟨v, hv, vnow, vft, -, vms, vpw, -⟩ := hcTick_spec s
  rw [hv, tickReset_of_due (vms ▸ h) (vnow ▸ hr)]
  exact hardReset_spec v 5 .resetCircuit _ (by rw [vnow, vft, vpw]; exact hl)

/-! An hc is counted (R247). -/

theorem countHc_of_run {s : State} (hd : s.hcDriven = true) (hc : s.tb.counted = false) (hr : s.tb.run = true) (hf : s.clk.decl ≠ 0) :
    s.countHc.tb.counted = true ∧ s.countHc.tb.hcpos = s.tb.hcpos + 1 ∧ s.countHc.tb.tsc = (s.tb.tsc + s.hcTicks) % 2 ^ 48 := by
  rw [tb_countHc hd hc]
  simp [State.accumulate, hr, hf, State.hcTicks, TimeBase.rate]

/-! A frame of a device turn starts (R57, R242, R243). -/

theorem turnDue_of_start {s : State} {u : Turn} (hu : s.link.turn = some u) (hn : u.next = s.now) : s.turnDue = true := by
  simp [State.turnDue, hu, hn]

theorem turnTick_of_start {s : State} {u : Turn} (hu : s.link.turn = some u) (hn : u.next = s.now) :
    s.turnTick = s.turnFrame u := by
  simp [State.turnTick, hu, hn]

/-- A frame sent on this hc with the queue as the send leaves it. -/
theorem sendFrame_eq (s : State) (q : Queue) (u : Turn) (d : DevFrame) :
    State.sendFrame { s with rq := q } u d = { s with rq := q, link := { s.link with
      sent := s.link.sent ++ [d], turn := some { u with next := d.last + 1, done := false },
      ddrv := (s.reg 0x0121).toNat % 4 } } := by
  have h : fld (s.reg 0x0121) 1 0 = (s.reg 0x0121).toNat % 4 := by simp [fld]
  rw [← h]
  rfl

theorem frameNow_last (s : State) (h0 h1 : Word) (p : List Word) :
    (s.frameNow h0 h1 p).last + 1 = s.now + 72 + 16 * p.length := by
  simp only [State.frameNow, frameHc]
  omega

/-- The frame and an END after it fit the window (R56). -/
theorem fitsWindow_iff (s : State) (u : Turn) (h0 h1 : Word) (p : List Word) :
    fitsWindow u (s.frameNow h0 h1 p) = true ↔ s.now + 72 + 16 * p.length + 103 ≤ u.limit := by
  rw [fitsWindow, decide_eq_true_eq]
  simp only [State.frameNow, frameHc]
  omega

theorem turnFrame_resp {s : State} {u : Turn} {r : Resp} (h : s.nextResp u = some r)
    (hf : s.now + 72 + 16 * r.payload.length + 103 ≤ u.limit) :
    s.turnFrame u = s.sendFrame u (s.frameNow (respH0 r.rcode r.resent r.tag r.payload.length) r.h1 r.payload) := by
  simp [State.turnFrame, h, (fitsWindow_iff ..).2 hf]

theorem turnFrame_copy {s : State} {u : Turn} {c : DevFrame} (h : s.nextResp u = none) (hc : s.nextReplay = some c)
    (hf : s.now + 72 + 16 * c.payload.length + 103 ≤ u.limit) :
    s.turnFrame u = s.sendFrame u (s.frameNow (c.h0 ||| 0x0800) c.h1 c.payload) := by
  simp [State.turnFrame, h, hc, (fitsWindow_iff ..).2 hf]

theorem turnFrame_report {s : State} {u : Turn} {r : Report} {l : List Report} (h : s.nextResp u = none) (hc : s.nextReplay = none)
    (he : s.rq.entries = r :: l) (hq : 1 ≤ s.rq.cout) (hf : s.now + 72 + 16 * r.payload.length + 103 ≤ u.limit) :
    s.turnFrame u = State.sendFrame { s with rq := { s.rq with
        entries := l, sending := some r, cout := s.rq.cout - 1, rsent := (s.rq.rsent + 1) % 2 ^ 32 } } u
      (s.frameNow (respH0 5 false 0 r.payload.length) r.h1 r.payload) := by
  simp [State.turnFrame, h, hc, he, hq, (fitsWindow_iff ..).2 hf, inc32]

/-- What may be sent before END: a response, the copy of a replay, or a report with a credit, where it fits. -/
def State.sends (s : State) (u : Turn) : Prop :=
  (∃ r, s.nextResp u = some r ∧ s.now + 72 + 16 * r.payload.length + 103 ≤ u.limit) ∨
  (∃ c, s.nextResp u = none ∧ s.nextReplay = some c ∧ s.now + 72 + 16 * c.payload.length + 103 ≤ u.limit) ∨
  ∃ r l, s.nextResp u = none ∧ s.nextReplay = none ∧ s.rq.entries = r :: l ∧ 1 ≤ s.rq.cout ∧
    s.now + 72 + 16 * r.payload.length + 103 ≤ u.limit

theorem turnFrame_end {s : State} {u : Turn} (h : ¬ s.sends u) : s.turnFrame u = s.sendFrame u s.endFrame := by
  simp only [State.sends, not_or, not_exists, not_and] at h
  obtain ⟨hresp, hcopy, hreport⟩ := h
  unfold State.turnFrame
  cases hr : s.nextResp u with
  | some r => simp [fitsWindow_iff, hresp r hr]
  | none =>
    cases hc : s.nextReplay with
    | some c => simp [fitsWindow_iff, hcopy c hr hc]
    | none =>
      cases he : s.rq.entries with
      | nil => rfl
      | cons r l =>
        have hno : ¬ (1 ≤ s.rq.cout ∧ s.now + 72 + 16 * r.payload.length + 103 ≤ u.limit) := fun hx => hreport r l hr hc he hx.1 hx.2
        simp [fitsWindow_iff, hno]


/-- The frame that starts on this hc, and the queue its send leaves (R57, R242, R243). -/
theorem turnFrame_spec (s : State) (u : Turn) : ∃ d q, s.turnFrame u = State.sendFrame { s with rq := q } u d ∧
    d.first = s.now ∧ d.last + 1 = s.now + 72 + 16 * d.payload.length ∧
    (∀ r, s.nextResp u = some r → s.now + 72 + 16 * r.payload.length + 103 ≤ u.limit →
      q = s.rq ∧ d = s.frameNow (respH0 r.rcode r.resent r.tag r.payload.length) r.h1 r.payload) ∧
    (∀ c, s.nextResp u = none → s.nextReplay = some c → s.now + 72 + 16 * c.payload.length + 103 ≤ u.limit →
      q = s.rq ∧ d = s.frameNow (c.h0 ||| 0x0800) c.h1 c.payload) ∧
    (∀ r l, s.nextResp u = none → s.nextReplay = none → s.rq.entries = r :: l → 1 ≤ s.rq.cout →
      s.now + 72 + 16 * r.payload.length + 103 ≤ u.limit →
      q = { s.rq with entries := l, sending := some r, cout := s.rq.cout - 1, rsent := (s.rq.rsent + 1) % 2 ^ 32 } ∧
        d = s.frameNow (respH0 5 false 0 r.payload.length) r.h1 r.payload) ∧
    (¬ s.sends u → q = s.rq ∧ d = s.endFrame) := by
  by_cases hs : s.sends u
  · rcases id hs with ⟨r, hr, hf⟩ | ⟨c, hr, hc, hf⟩ | ⟨r, l, hr, hc, he, hq, hf⟩
    · refine ⟨_, s.rq, turnFrame_resp hr hf, rfl, frameNow_last .., ?_⟩
      simp_all
    · refine ⟨_, s.rq, turnFrame_copy hr hc hf, rfl, frameNow_last .., ?_⟩
      simp_all
    · refine ⟨_, _, turnFrame_report hr hc he hq hf, rfl, frameNow_last .., ?_⟩
      simp_all
  · refine ⟨_, s.rq, turnFrame_end hs, rfl, frameNow_last .., ?_⟩
    exact ⟨fun r hr hf => absurd (.inl ⟨r, hr, hf⟩) hs, fun c hr hc hf => absurd (.inr (.inl ⟨c, hr, hc, hf⟩)) hs,
      fun r l hr hc he hq hf => absurd (.inr (.inr ⟨r, l, hr, hc, he, hq, hf⟩)) hs, fun _ => ⟨rfl, rfl⟩⟩

/-! A frame of a device turn ends (R56, R64, R70, R240 to R242). -/

theorem turnDue_of_end {s : State} {u : Turn} (hu : s.link.turn = some u) (hd : u.done = false) (hn : u.next = s.now + 1) :
    s.turnDue = true := by
  simp [State.turnDue, hu, hd, hn]

theorem turnTick_of_end {s : State} {u : Turn} {d : DevFrame} (hu : s.link.turn = some u) (hn : u.next = s.now + 1)
    (hl : s.link.sent.getLast? = some d) : s.turnTick = s.frameDone u d := by
  simp [State.turnTick, hu, hn, hl]

theorem rcode_eq (d : DevFrame) : d.rcode = d.h0.toNat / 4096 := by
  have h := d.h0.isLt
  simp only [DevFrame.rcode, fld]
  omega

/-- The state on the last CRC bit of a frame. -/
def State.lastBit (s : State) (u : Turn) : State := { s with link := { s.link with turn := some { u with done := true } } }

theorem frameDone_end {s : State} {u : Turn} {d : DevFrame} (h : d.h0.toNat / 4096 = 6) :
    s.frameDone u d = (s.lastBit u).turnOver := by
  rw [← rcode_eq] at h
  simp only [State.frameDone, h, if_true]
  rfl

theorem frameDone_report {s : State} {u : Turn} {d : DevFrame} (h : d.h0.toNat / 4096 = 5) (hr : d.h0.getLsbD 11 = false) :
    s.frameDone u d = (s.lastBit u).reportDone d := by
  have hr' : d.resent = false := hr
  rw [← rcode_eq] at h
  simp [State.frameDone, h, hr', State.lastBit]

theorem frameDone_replay {s : State} {u : Turn} {d : DevFrame} (h : d.h0.toNat / 4096 = 5) (hr : d.h0.getLsbD 11 = true) :
    s.frameDone u d = (s.lastBit u).replayDone d := by
  have hr' : d.resent = true := hr
  rw [← rcode_eq] at h
  simp [State.frameDone, h, hr', State.lastBit]

theorem frameDone_response {s : State} {u : Turn} {d : DevFrame} (h5 : d.h0.toNat / 4096 ≠ 5) (h6 : d.h0.toNat / 4096 ≠ 6) :
    s.frameDone u d = (s.lastBit u).responseDone u d := by
  rw [← rcode_eq] at h5 h6
  simp [State.frameDone, h5, h6, State.lastBit]

/-! A report's entry frees: link, copies and the entry under way are no concern of the reports that move up. -/

/-- What the reports that take free entries leave alone. -/
def State.sentPart (s : State) : Link × List DevFrame × Option Report := (s.link, s.rq.copies, s.rq.sending)

theorem sentPart_takeEntry (s : State) (r : Report) : (s.takeEntry r).sentPart = s.sentPart := by
  unfold State.takeEntry
  split
  · rfl
  · have h := timersOnly_timerEvent { s with rq := { s.rq with
      entries := s.rq.entries ++ [{ r with seq := some s.rq.seqNext, epoch := s.epochNow }]
      seqNext := (s.rq.seqNext + 1) % 65536 } } 6
    rw [State.sentPart, h.link, h.rq]
    rfl

theorem sentPart_refill (n : Nat) : ∀ s : State, (s.refill n).sentPart = s.sentPart := by
  induction n with
  | zero => exact fun _ => rfl
  | succ n ih =>
    intro s
    unfold State.refill
    split
    · split
      · exact (ih _).trans (sentPart_takeEntry ..)
      · rfl
    · split
      · split
        · exact (ih _).trans (sentPart_takeEntry ..)
        · rfl
      · rfl

theorem sentPart_replayCheck (s : State) : s.replayCheck.sentPart = s.sentPart := by
  unfold State.replayCheck
  split <;> rfl

theorem reportDone_spec (s : State) (d : DevFrame) : (s.reportDone d).link = s.link ∧
    (s.reportDone d).rq.copies = (d :: s.rq.copies).take 32 ∧ (s.reportDone d).rq.sending = none := by
  have h : (s.reportDone d).sentPart = (s.link, (d :: s.rq.copies).take 32, none) :=
    (sentPart_refill _ _).trans (sentPart_replayCheck _)
  simpa only [State.sentPart, Prod.mk.injEq] using h

/-- A replayed copy has gone out: nothing but the replay changes (R242). -/
theorem replayDone_spec (s : State) (d : DevFrame) :
    s.replayDone d = { s with rq := { s.rq with replay := (s.replayDone d).rq.replay } } ∧
      (s.rq.replay = some (d.seqWord.toNat, d.epochWord.toNat) → (s.replayDone d).rq.replay =
        (copyAfter s.rq.copies (d.seqWord.toNat, d.epochWord.toNat)).map (fun c => (c.seqWord.toNat, c.epochWord.toNat))) ∧
      (s.rq.replay ≠ some (d.seqWord.toNat, d.epochWord.toNat) → (s.replayDone d).rq = s.rq) := by
  unfold State.replayDone
  dsimp only
  split
  · exact ⟨rfl, fun _ => rfl, fun h => absurd ‹_› h⟩
  · exact ⟨rfl, fun h => absurd h ‹_›, fun _ => rfl⟩

theorem responseDone_frame (s : State) (u : Turn) (d : DevFrame) :
    s.responseDone u d = { s with link := (s.responseDone u d).link } ∧
      (s.responseDone u d).link.turn = s.link.turn ∧ (s.responseDone u d).link.sent = s.link.sent := by
  unfold State.responseDone
  split <;> exact ⟨rfl, rfl, rfl⟩

/-- A response is ready by hc `h`. -/
def Resp.readyBy (h : Nat) (r : Resp) : Bool := r.ready.any (fun x => decide (x ≤ h))

theorem find_findIdx_append_cons {α : Type} {p : α → Bool} {l : List α} {a : α} (m : List α) (hl : ∀ x ∈ l, p x = false) (ha : p a = true) :
    (l ++ a :: m).find? p = some a ∧ (l ++ a :: m).findIdx p = l.length := by
  constructor
  · rw [List.find?_append, List.find?_eq_none.2 (fun x hx => by simp [hl x hx]), Option.none_or, List.find?_cons_of_pos ha]
  · rw [List.findIdx_append, List.findIdx_eq_length.2 hl, if_neg (lt_irrefl _), List.findIdx_cons, ha, cond_true, Nat.zero_add]

/-- The response sent is the first that was ready at T+9: its tag is free, and DATA or ACK is retained (R64, R70). -/
theorem responseDone_spec {s : State} {u : Turn} (d : DevFrame) {l m : List Resp} {r : Resp} (hs : s.link.resp = l ++ r :: m)
    (hl : ∀ x ∈ l, x.readyBy (u.start + 9) = false) (hr : r.readyBy (u.start + 9) = true) :
    (s.responseDone u d).link.resp = l ++ m ∧ (s.responseDone u d).link.retained =
      if (r.rcode = 1 ∨ r.rcode = 2) ∧ r.resent = false then (r.tag, d) :: s.link.retained.filter (fun x => x.1 != r.tag)
      else s.link.retained := by
  obtain ⟨hfind, hidx⟩ := find_findIdx_append_cons m hl hr
  rw [← hs] at hfind hidx
  have hnext : s.nextResp u = some r := hfind
  have herase : s.link.resp.eraseIdx (s.link.resp.findIdx (Resp.readyBy (u.start + 9))) = l ++ m := by
    rw [hidx, hs, List.eraseIdx_append_of_length_le le_rfl, Nat.sub_self, List.eraseIdx_cons_zero]
  unfold State.responseDone
  rw [hnext]
  refine ⟨herase, ?_⟩
  simp

/-- END ends the turn; from E+73 on a cause pulls ATTN again (R56, R77). -/
theorem frameDone_end_spec {s : State} {u : Turn} {d : DevFrame} (ha : s.agenda = []) (h : d.h0.toNat / 4096 = 6) :
    (s.frameDone u d).link = { s.link with
        turn := none, turnEnd := s.now + 9, attnFrom := s.now + 73, dterm := (s.reg 0x0121).getLsbD 2 } ∧
      s.frameDone u d = { s with link := (s.frameDone u d).link, agenda := [(s.now + 73, Instr.attnReassert)] } := by
  rw [frameDone_end h]
  refine ⟨rfl, ?_⟩
  simp [State.turnOver, State.after, State.lastBit, ha]

/-- After any other frame the turn goes on. -/
theorem frameDone_turn {s : State} {u : Turn} {d : DevFrame} (h : d.h0.toNat / 4096 ≠ 6) :
    (s.frameDone u d).link.turn = some { u with done := true } ∧ (s.frameDone u d).link.sent = s.link.sent := by
  by_cases h5 : d.h0.toNat / 4096 = 5
  · cases hr : d.h0.getLsbD 11 with
    | false =>
      obtain ⟨hlink, -⟩ := reportDone_spec (s.lastBit u) d
      rw [frameDone_report h5 hr, hlink]
      exact ⟨rfl, rfl⟩
    | true =>
      obtain ⟨hframe, -⟩ := replayDone_spec (s.lastBit u) d
      rw [frameDone_replay h5 hr, hframe]
      exact ⟨rfl, rfl⟩
  · obtain ⟨-, hturn, hsent⟩ := responseDone_frame (s.lastBit u) u d
    rw [frameDone_response h5 h]
    exact ⟨hturn, hsent⟩

end Machine
end Sys2Proof
end

section
/-! SUPPORT. The fast ticker: the looks of the Scarecrow and the start of a DORMANT exit (R120, R175, R250, R258). -/

namespace Sys2Proof
namespace Machine

/-! A look of the Scarecrow ends (R257 to R265): time base, clock, reports and contacts stand. -/

/-- What no look changes: the time base, HCLK and its absence, the reports, the contacts, and whether an exit waits. -/
def State.scarePart (s : State) : TimeBase × Clock × Queue × Trellis × Bool := (s.tb, s.clk, s.rq, s.tr, s.sk.exitDue)

theorem scarePart_tapTouch (s : State) (g t q : Nat) : (s.tapTouch g t q).scarePart = s.scarePart := by
  unfold State.tapTouch
  dsimp only
  split
  · split <;> rfl
  · rfl

theorem scarePart_touch (s : State) (g q t : Nat) : (s.touch g q t).1.scarePart = s.scarePart := by
  have h := scarePart_tapTouch { s with sk := { s.sk with qm := q } } g t q
  unfold State.touch
  dsimp only
  split <;> exact h

theorem scarePart_release (s : State) (g t : Nat) : (s.release g t).1.scarePart = s.scarePart := by
  unfold State.release
  dsimp only
  split
  · split <;> rfl
  · rfl

theorem scarePart_lidLook (s : State) (r : Int) : (s.lidLook r).1.scarePart = s.scarePart := by
  unfold State.lidLook
  split
  · rfl
  · split
    · rfl
    · split <;> rfl

theorem scarePart_relearn (s : State) (g bit : Nat) : (s.relearn g bit).scarePart = s.scarePart := by
  unfold State.relearn
  dsimp only
  split_ifs <;> rfl

theorem scarePart_confirm (s : State) (g t : Nat) (qs : List Int) : (s.confirm g t qs).1.scarePart = s.scarePart := by
  unfold State.confirm
  dsimp only
  split
  · rfl
  split
  · exact scarePart_touch ..
  split
  · split
    · rfl
    · exact scarePart_lidLook ..
  · rfl

theorem scarePart_confirmEnd (s : State) (g t : Nat) (qs : List Int) : (s.confirmEnd g t qs).1.scarePart = s.scarePart := by
  have h := scarePart_confirm s g t qs
  unfold State.confirmEnd
  dsimp only
  split
  · exact (scarePart_relearn ..).trans h
  · exact h

theorem scarePart_quarterLook (s : State) (c : Cycle) (g q : Nat) (u : QuarterUse) :
    (s.quarterLook c g q u).1.scarePart = s.scarePart := by
  unfold State.quarterLook
  cases u with
  | confirm =>
    dsimp only
    split
    · exact scarePart_confirmEnd ..
    · rfl
  | _ => rfl

theorem scarePart_gangResult (s : State) (g t : Nat) (r : Int) : (s.gangResult g t r).1.scarePart = s.scarePart := by
  have hlid : (if g = 3 then (s.setGang g { s.gang g with last := r }).lidLook r
      else (s.setGang g { s.gang g with last := r }, 0)).1.scarePart = s.scarePart := by
    split
    · exact scarePart_lidLook ..
    · rfl
  unfold State.gangResult
  dsimp only
  split
  · rfl
  generalize (if g = 3 then (s.setGang g { s.gang g with last := r }).lidLook r
      else (s.setGang g { s.gang g with last := r }, 0)) = p at hlid ⊢
  obtain ⟨u, c0⟩ := p
  dsimp only at hlid ⊢
  split
  · split
    · exact (scarePart_release ..).trans hlid
    · split
      · exact (scarePart_relearn ..).trans hlid
      · exact hlid
  · split
    · exact (scarePart_relearn ..).trans hlid
    · split <;> exact hlid

theorem scarePart_gangLook (s : State) (c : Cycle) (g : Nat) : (s.gangLook c g).1.scarePart = s.scarePart := by
  unfold State.gangLook
  dsimp only
  split
  · exact scarePart_gangResult ..
  · rfl

theorem scarePart_skShow (s : State) : s.skShow.scarePart = s.scarePart :=
  List.foldlRecOn (motive := fun t : State => t.scarePart = s.scarePart) _ _ rfl fun _ h _ _ => h

theorem scarePart_wakeUp (s : State) (mask : Nat) : (s.wakeUp mask).scarePart = s.scarePart := by
  unfold State.wakeUp
  dsimp only
  split
  · split <;> rfl
  · split <;> rfl

theorem scarePart_itemWake (s : State) (w : Nat) : (s.itemWake w).scarePart = s.scarePart := by
  unfold State.itemWake
  dsimp only
  split
  · exact scarePart_wakeUp ..
  · rfl

theorem scarePart_expire (s : State) (t : Nat) : (s.expire t).scarePart = s.scarePart := by
  unfold State.expire
  dsimp only
  split_ifs <;> rfl

theorem scarePart_cycleEnd (s : State) (start t : Nat) : (s.cycleEnd start t).scarePart = s.scarePart :=
  scarePart_expire ..

theorem scarePart_passEnd (s : State) (start t : Nat) : (s.passEnd start t).scarePart = s.scarePart := by
  unfold State.passEnd
  dsimp only
  refine (scarePart_skShow _).trans ?_
  split
  · rfl
  · refine List.foldlRecOn (motive := fun u : State => u.scarePart = s.scarePart) _ _ rfl fun u h g _ => ?_
    split <;> exact h

theorem scarePart_skNext (c : Cycle) (t : Nat) (l : List SkLook) : ∀ s : State, (s.skNext c t l).scarePart = s.scarePart := by
  induction l with
  | nil =>
    intro s
    unfold State.skNext
    dsimp only
    split
    · exact scarePart_passEnd ..
    · exact scarePart_cycleEnd ..
  | cons i rest ih =>
    intro s
    unfold State.skNext
    split
    · exact ih s
    · rfl

theorem scarePart_itemLook (s : State) (c : Cycle) (i : SkLook) : (s.itemLook c i).1.scarePart = s.scarePart := by
  cases i with
  | gang g => exact scarePart_gangLook ..
  | quarter g q u => exact scarePart_quarterLook ..

theorem scarePart_itemDone (s : State) : s.itemDone.scarePart = s.scarePart := by
  unfold State.itemDone
  split
  · rfl
  · split
    · rfl
    · next c _ _ i rest _ =>
      have h := (scarePart_skShow _).trans (scarePart_itemLook s c i)
      dsimp only
      split
      · exact (scarePart_itemWake ..).trans h
      · exact (scarePart_skNext ..).trans h

/-! A DORMANT exit begins (R120, R250). -/

/-- What of the modes, the Scarecrow and the reports the time base and the pins leave alone. -/
def State.exitPart (s : State) : ModeCtl × Scare × Queue := (s.ms, s.sk, s.rq)

theorem exitPart_advance (s : State) (a r b d : Nat) : (s.advance a r b d).exitPart = s.exitPart := by
  simp [State.exitPart, State.advance, State.setUnc]

theorem exitPart_declaration (s : State) (f : Option Nat) :
    State.exitPart (match f with | some f => s.changeDeclaration f | none => s.writeAnchor) = s.exitPart := by
  split <;> rfl

theorem exitPart_blankFollow (s : State) : s.blankFollow.exitPart = s.exitPart := by
  unfold State.blankFollow
  split_ifs <;> rfl

theorem exitPart_vsFollow (s : State) : s.vsFollow.exitPart = s.exitPart := by
  unfold State.vsFollow
  split_ifs <;> rfl

theorem exitPart_pinsStart (s : State) : s.pinsStart.exitPart = s.exitPart :=
  (exitPart_vsFollow _).trans (exitPart_blankFollow _)

theorem exitBegin_spec (s : State) : s.exitBegin.clk.relock = some .dormantExit ∧ s.exitBegin.exitPart =
    ({ s.ms with age := min 65535 ((s.ft - s.ms.ageFrom) / 32), exit := .relock },
      { s.sk with running := false, cyc := none, burstEnd := 0, exitDue := false }, s.rq) := by
  refine ⟨rfl, ?_⟩
  unfold State.exitBegin
  extract_lets age s1 _ _ s2 s3 _ _ _ _ _ s4
  have h1 : s1.exitPart = s.exitPart := exitPart_advance ..
  clear_value s1
  have h2 : s2.exitPart = ({ s1.ms with age := age, exit := .relock },
      { s1.sk with running := false, cyc := none, burstEnd := 0, exitDue := false }, s1.rq) := rfl
  have h3 : s3.exitPart = s2.exitPart := exitPart_declaration ..
  clear_value s3
  have h4 : State.exitPart (s4.clocheExit.pinsStart.startRelock .dormantExit) = s3.exitPart := exitPart_pinsStart _
  simp only [State.exitPart, Prod.mk.injEq] at h1
  rw [h4, h3, h2, h1.1, h1.2.1, h1.2.2]

/-! A fast-ticker period (R40, R250, R258). -/

/-- The period counted, with the absence, and the Scarecrow's first cycle where it may start: no look and no exit yet. -/
def State.ftCount (s : State) : State :=
  let u := { s with ft := s.ft + 1, clk := { s.clk with absence := s.clk.absence + b2n s.absent } }
  if u.skMayStart && decide (u.ft % 32 = 0) then { u with sk := { u.sk with running := true, cycleAt := u.ft } } else u

theorem ftTick_eq (s : State) : s.ftTick = s.ftCount.ftLook.ftExit := rfl

end Machine
end Sys2Proof
end

section
/-! SUPPORT. The clock as a whole (log entry 1). -/

namespace Sys2Proof
namespace Machine

theorem scarePart_ftLook (s : State) : s.ftLook.scarePart = s.scarePart := by
  unfold State.ftLook
  split
  · exact scarePart_itemDone s
  · rfl

theorem keeps_ftLook (s : State) : Keeps s s.ftLook := by
  unfold State.ftLook
  split
  · exact kept_State_itemDone (.refl s)
  · exact .refl s

theorem ftExit_of_no_exit {s : State} (h : s.sk.exitDue = false) : s.ftExit = s := by
  simp [State.ftExit, h]

theorem ftExit_of_exit {s : State} (h : s.sk.exitDue = true) (hb : s.burstUntil = none) : s.ftExit = s.exitBegin := by
  simp [State.ftExit, h, hb]

theorem ftCount_keeps (s : State) : s.ftCount.ft = s.ft + 1 ∧ s.ftCount.now = s.now ∧ s.bytesKept s.ftCount ∧
    s.ftCount.scarePart = (s.tb, { s.clk with absence := s.clk.absence + b2n s.absent }, s.rq, s.tr, s.sk.exitDue) := by
  unfold State.ftCount
  dsimp only
  split <;> exact ⟨rfl, rfl, ⟨fun _ => rfl, fun _ => rfl⟩, rfl⟩

/-- In a DORMANT exit the Scarecrow does not start (R260). -/
theorem ftCount_of_exit {s : State} (h : s.ms.exit ≠ .none) :
    s.ftCount = { s with ft := s.ft + 1, clk := { s.clk with absence := s.clk.absence + b2n s.absent } } := by
  simp [State.ftCount, State.skMayStart, h]

/-- A fast-ticker period on which no exit waits. -/
theorem ftTick_of_no_exit {s : State} (h : s.sk.exitDue = false) : s.ftTick.ft = s.ft + 1 ∧ s.ftTick.now = s.now ∧
    s.ftTick.tb = s.tb ∧ s.ftTick.clk.absence = s.clk.absence + b2n s.absent ∧ s.ftTick.rq = s.rq ∧ s.ftTick.tr = s.tr ∧
    s.bytesKept s.ftTick := by
  obtain ⟨hft, hnow, hbytes, hcount⟩ := ftCount_keeps s
  have hkeeps := keeps_ftLook s.ftCount
  have hlook := (scarePart_ftLook s.ftCount).trans hcount
  simp only [State.scarePart, Prod.mk.injEq] at hlook
  obtain ⟨htb, hclk, hrq, htr, hexit⟩ := hlook
  have heq : s.ftTick = s.ftCount.ftLook := ftExit_of_no_exit (hexit.trans h)
  rw [heq]
  exact ⟨hkeeps.ft.trans hft, hkeeps.now.trans hnow, htb, by rw [hclk], hrq, htr, bytesKept_trans hbytes (bytesKept_of_keeps hkeeps)⟩

/-- The period on which a burst that an exit waited for has ended (R175). -/
theorem ftTick_of_exit {s : State} (h : s.sk.exitDue = true) (he : s.ms.exit = .waitClock) (hc : s.sk.cyc = none)
    (hb : s.sk.burstEnd ≤ s.ft + 1) : s.ftTick.ft = s.ft + 1 ∧ s.ftTick.now = s.now ∧ s.ftTick.ms.exit = .relock ∧
    s.ftTick.clk.relock = some .dormantExit ∧ s.ftTick.sk.exitDue = false ∧
    s.ftTick.ms.age = min 65535 ((s.ft + 1 - s.ms.ageFrom) / 32) ∧ s.ftTick.rq = s.rq ∧ s.bytesKept s.ftTick := by
  let u : State := { s with ft := s.ft + 1, clk := { s.clk with absence := s.clk.absence + b2n s.absent } }
  have hcount : s.ftCount = u := ftCount_of_exit (by simp [he])
  have hlook : u.ftLook = u := by simp [State.ftLook, u, hc]
  have hburst : u.burstUntil = none := by simp [State.burstUntil, u, hc, hb]
  have heq : s.ftTick = u.exitBegin := by rw [ftTick_eq, hcount, hlook, ftExit_of_exit (s := u) h hburst]
  have hkeeps := kept_State_exitBegin (.refl u)
  obtain ⟨hrelock, hpart⟩ := exitBegin_spec u
  simp only [State.exitPart, Prod.mk.injEq] at hpart
  obtain ⟨hms, hsk, hrq⟩ := hpart
  have hbytes : s.bytesKept u := ⟨fun _ => rfl, fun _ => rfl⟩
  rw [heq]
  exact ⟨hkeeps.ft, hkeeps.now, by rw [hms], hrelock, by rw [hsk], by rw [hms], hrq, bytesKept_trans hbytes (bytesKept_of_keeps hkeeps)⟩

/-- Settles O56: each branch of the clock by the lemmas about it. -/
theorem idleStepIsClock : Obligations.IdleStepIsClock := by
  refine ⟨fun s hp hd hc ha ht hq => ?_, fun s u hp hd hc ha hu hn => ?_, fun s u d hp hd hc ha hu hdone hn hl => ?_,
    fun s hp hd hc hr hf => ?_, fun s hp hd hcyc => ?_, fun s hp hd hcyc hex _ he hc hb => ?_, fun s hp hd hcyc hex => ?_⟩
  all_goals rw [step_of_empty_queue hp]
  · rw [clock_of_quiet hd hc ha ht hq]
    refine ⟨fun hw => by rw [if_pos hw], fun hw => ⟨s.hcTick, by rw [if_neg (by simp [hw])], ?_⟩⟩
    obtain ⟨hnow, hft, hpending⟩ := hcTick_clocks s
    refine ⟨hnow, hft, hpending.trans hp, fun hnone => (hcTick_of_no_reset hnone).1, fun r hr hle hlast => hcTick_of_reset hr hle hlast,
      fun hrun hpause hnone => ?_, fun hrun hpause hnone => ?_⟩
    · obtain ⟨-, hslot, hh, -⟩ := hcTick_of_no_reset hnone
      rw [hh, hslot, tickSlot_of_running hrun hpause]
      exact ⟨rfl, rfl⟩
    · obtain ⟨-, -, hh, hcount⟩ := hcTick_of_no_reset hnone
      rw [hh, hcount, tickSlot_of_paused hrun hpause]
      exact ⟨rfl, rfl⟩
  · rw [clock_of_turn hd hc ha (turnDue_of_start hu hn), turnTick_of_start hu hn]
    obtain ⟨d, q, heq, hfirst, hlast, hresp, hcopy, hreport, hend⟩ := turnFrame_spec s u
    refine ⟨d, q, s.nextResp u, s.nextReplay, by rw [heq, sendFrame_eq], rfl, rfl, hfirst, hlast, fun r hr hfit => ?_,
      fun c hr hc hfit => ?_, fun r l hr hc he hcred hfit => ?_, fun hr hc hrep => ?_⟩
    · obtain ⟨rfl, rfl⟩ := hresp r hr hfit
      exact ⟨rfl, rfl, rfl, rfl⟩
    · obtain ⟨rfl, rfl⟩ := hcopy c hr hc hfit
      exact ⟨rfl, rfl, rfl, rfl⟩
    · obtain ⟨rfl, rfl⟩ := hreport r l hr hc he hcred hfit
      exact ⟨rfl, rfl, rfl, rfl⟩
    · have hnot : ¬ s.sends u := by
        rintro (⟨r, h1, hf⟩ | ⟨c, h1, h2, hf⟩ | ⟨r, l, h1, h2, h3, h4, hf⟩)
        · exact absurd hf (Nat.not_le.2 (hr r h1))
        · exact absurd hf (Nat.not_le.2 (hc c h1 h2))
        · have := hrep r l h1 h2 h3
          omega
      obtain ⟨rfl, rfl⟩ := hend hnot
      exact ⟨rfl, rfl, rfl, rfl⟩
  · rw [clock_of_turn hd hc ha (turnDue_of_end hu hdone hn), turnTick_of_end hu hn hl]
    refine ⟨_, rfl, fun h6 => ?_, fun h6 => ?_, fun h5 hr => ?_, fun h5 hr => ?_, fun l r m h5 h6 hresp hbefore hready => ?_⟩
    · exact frameDone_end_spec ha h6
    · exact frameDone_turn h6
    · obtain ⟨hlink, hcopies, hsending⟩ := reportDone_spec (s.lastBit u) d
      rw [frameDone_report h5 hr, hlink]
      exact ⟨hcopies, hsending, rfl⟩
    · rw [frameDone_replay h5 hr]
      exact replayDone_spec (s.lastBit u) d
    · rw [frameDone_response h5 h6]
      obtain ⟨hfree, hretained⟩ := responseDone_spec (s := s.lastBit u) d hresp hbefore hready
      obtain ⟨hframe, -⟩ := responseDone_frame (s.lastBit u) u d
      refine ⟨hfree, hframe, fun hfirst hkind => ?_, fun hno => ?_⟩
      · rw [hretained, if_pos ⟨hkind, hfirst⟩]
        simp [getKey]
      · rw [hretained, if_neg ?_]
        · rfl
        · rintro ⟨hkind, hfirst⟩
          rcases hno with hresent | ⟨h1, h2⟩
          · simp [hfirst] at hresent
          · exact hkind.elim h1 h2
  · obtain ⟨hcounted, hpos, htsc⟩ := countHc_of_run hd hc hr hf
    have hkeeps := kept_State_countHc (.refl s)
    exact ⟨s.countHc, by rw [clock_of_uncounted hd hc], hkeeps.now, hcounted, hpos, htsc, hkeeps.pending.trans hp⟩
  · rw [clock_of_ticker hd, if_pos hcyc]
  · obtain ⟨hft, hnow, hexit, hrelock, hdue, hage, hrq, hbytes⟩ := ftTick_of_exit hex he hc hb
    exact ⟨s.ftTick, by rw [clock_of_ticker hd, if_neg (by simp [hcyc])], hft, hnow, hexit, hrelock, hdue, hage, hrq, hbytes⟩
  · exact ⟨s.ftTick, by rw [clock_of_ticker hd, if_neg (by simp [hcyc])], ftTick_of_no_exit hex⟩

end Machine
end Sys2Proof
end

section
/-! SUPPORT. A flag that is set on a condition; the requests that hand over the lane and give credits (R56, R243). -/

namespace Sys2Proof
namespace Machine

/-! A flag that is set on a condition. -/

theorem setFlagIf_frame (s : State) (c : Bool) (p k : Nat) :
    s.setFlagIf c p k = { s with regs := (s.setFlagIf c p k).regs, flagged := (s.setFlagIf c p k).flagged } := by
  unfold State.setFlagIf
  split <;> rfl

theorem regsKept_setFlagIf (s : State) (c : Bool) (p k : Nat) : s.regsKept (s.setFlagIf c p k) [p * 256 + 3] := by
  unfold State.setFlagIf
  split
  · exact regsKept_setFlag s p k
  · exact regsKept_refl s _

theorem reg_setFlagIf_same (s : State) (c : Bool) (p k : Nat) : (s.setFlagIf c p k).reg (p * 256 + 3) =
    if c then s.reg (p * 256 + 3) ||| w16 (2 ^ k) else s.reg (p * 256 + 3) := by
  simp

/-! GRANT and CREDIT. -/

/-- A request that is accepted, needs no room in the posted-write buffer and carries no tag acts at once (R61, R63, R78). -/
theorem request_of_accepts {s : State} {op : Op} {f : Frame} (h : s.accepts op f) (ht : op.tagged = false)
    (hr : s.noRoom op f = false) : s.request f = s.firstRequest.act op f := by
  obtain ⟨hheard, hcrc, hop, -, hchecks⟩ := h
  have hbusy : s.firstRequest.tagBusy op f = false := by simp [State.tagBusy, ht]
  have hroom : s.firstRequest.noRoom op f = false := hr
  have hnak : nakReason op f (decide (s.firstRequest.ms.mode = Mode.service)) s.firstRequest.ms.halted = none := by
    rw [State.nakFor, hop] at hchecks
    exact hchecks
  simp only [State.request, State.checked, hheard, hcrc, hop, hbusy, hroom, hnak, ht, Bool.not_true, Bool.false_eq_true,
    Bool.false_and, if_false]

theorem exec_grant {s : State} {f : Frame} (h : s.accepts .grant f) : exec (.grant f) s = .next (s.firstRequest.grantOp f) :=
  congrArg Host.Outcome.next (request_of_accepts h rfl rfl)

theorem exec_credit {s : State} {f : Frame} (h : s.accepts .credit f) :
    exec (.credit f) s = .next (s.firstRequest.creditOp f.h1.toNat) :=
  congrArg Host.Outcome.next (request_of_accepts h rfl rfl)

/-- The credits after a CREDIT, which never exceed 65,535 (R243). -/
def Queue.credited (q : Queue) (n : Nat) : Queue :=
  { q with cout := min 65535 (q.cout + n), cgrant := (q.cgrant + min n (65535 - q.cout)) % 2 ^ 32 }

theorem creditOp_eq (s : State) (n : Nat) (h : s.rq.cout ≤ 65535) :
    s.creditOp n = State.setFlagIf { s with rq := s.rq.credited n } (decide (65535 < s.rq.cout + n)) 0x26 2 := by
  have hadd : min 65535 (s.rq.cout + n) - s.rq.cout = min n (65535 - s.rq.cout) := by omega
  rw [Queue.credited, ← hadd]
  rfl

/-- Settles O8: a GRANT and a CREDIT carry no tag and need no room, so each acts at once. -/
theorem grantAndCredit : Obligations.GrantAndCredit := by
  refine ⟨fun f s h _ => ⟨_, _, exec_grant h, rfl, rfl, rfl, rfl, rfl, rfl, rfl, rfl, rfl, fun _ => rfl, fun _ => rfl⟩, fun f s h hc => ?_⟩
  let u : State := { s.firstRequest with rq := s.rq.credited f.h1.toNat }
  have hexec : exec (.credit f) s = .next (u.setFlagIf (decide (65535 < s.rq.cout + f.h1.toNat)) 0x26 2) := by
    rw [exec_credit h, creditOp_eq s.firstRequest f.h1.toNat hc]
    rfl
  have hbytes : s.bytesKept u := ⟨fun _ => rfl, fun _ => rfl⟩
  have hframe := setFlagIf_frame u (decide (65535 < s.rq.cout + f.h1.toNat)) 0x26 2
  refine ⟨_, hexec, ?_, by rw [hframe]; rfl, by rw [hframe], by rw [hframe]; rfl, by rw [hframe]; rfl, ?_,
    regsKept_setFlagIf u _ 0x26 2, bytesKept_trans hbytes (bytesKept_of_keeps (kept_State_setFlagIf (.refl u)))⟩
  · rw [hframe]
    rfl
  · exact (reg_setFlagIf_same u _ 0x26 2).trans (if_congr decide_eq_true_iff rfl rfl)

end Machine
end Sys2Proof
end

section
/-! SUPPORT. The power phases, and the events that set flags and never stop the part (R22 to R35, R108, R121, R122). -/

namespace Sys2Proof
namespace Machine

/-! The power phases. -/

theorem phaseStep_of_eq {s : State} {p : PowerPhase} (q : PowerPhase) (h : s.pw.phase = p) :
    s.phaseStep p q = { s with pw := { s.pw with phase := q } } := if_pos h

theorem phaseStep_of_ne {s : State} {p : PowerPhase} (q : PowerPhase) (h : s.pw.phase ≠ p) : s.phaseStep p q = s := if_neg h

/-- Settles O31: four rows step from the phase they name to the next, two begin start-up step 2 from theirs. -/
theorem powerPhases : Obligations.PowerPhases := by
  refine ⟨fun _ => rfl, fun i p q s hi => ?_, fun i p s hi => ?_⟩
  · have hexec : exec i s = .next (s.phaseStep p q) := by
      rcases hi with ⟨rfl, rfl, rfl⟩ | ⟨rfl, rfl, rfl⟩ | ⟨rfl, rfl, rfl⟩ | ⟨rfl, rfl, rfl⟩ <;> rfl
    exact ⟨fun h => by rw [hexec, phaseStep_of_eq q h], fun h => by rw [hexec, phaseStep_of_ne q h]⟩
  · have hexec : exec i s = .next (if s.pw.phase = p then s.beginStep2 else s) := by
      rcases hi with ⟨rfl, rfl⟩ | ⟨rfl, rfl⟩ <;> rfl
    exact ⟨fun h => by rw [hexec, if_pos h]; rfl, fun h => by rw [hexec, if_neg h]⟩

/-! The comparators, the thermal warning and the limiter's flag. -/

/-- The comparators at new levels; where `edge` tells a tripping edge, a part that is not held in reset sets a flag. -/
def State.monitored (s : State) (low warm edge : Bool) (p k : Nat) : State :=
  State.setFlagIf { s with pw := { s.pw with vphLow := low, warm := warm } } (edge && decide (s.pw.phase = .on)) p k

theorem monitored_spec (s : State) (low warm edge : Bool) (p k : Nat) :
    s.monitored low warm edge p k = { s with regs := (s.monitored low warm edge p k).regs,
                                             flagged := (s.monitored low warm edge p k).flagged,
                                             pw := (s.monitored low warm edge p k).pw } ∧
      (s.monitored low warm edge p k).pw = { s.pw with vphLow := low, warm := warm } ∧
      (s.monitored low warm edge p k).reg (p * 256 + 3) =
        (if edge = true ∧ s.pw.phase = .on then s.reg (p * 256 + 3) ||| w16 (2 ^ k) else s.reg (p * 256 + 3)) ∧
      s.regsKept (s.monitored low warm edge p k) [p * 256 + 3] := by
  let u : State := { s with pw := { s.pw with vphLow := low, warm := warm } }
  have hframe := setFlagIf_frame u (edge && decide (s.pw.phase = .on)) p k
  have hreg := reg_setFlagIf_same u (edge && decide (s.pw.phase = .on)) p k
  refine ⟨hframe.trans ?_, State.setFlagIf_pw .., hreg.trans (if_congr (by simp) rfl rfl), regsKept_setFlagIf u _ p k⟩
  rw [State.monitored, hframe]

/-- A comparator that has tripped already stays so, and sets no flag (R24). -/
theorem exec_vphLow (s : State) : exec .vphLow s = .next (s.monitored true s.pw.warm (!s.pw.vphLow) 0x01 12) := by
  have hexec : exec .vphLow s = .next (if s.pw.vphLow then s else
    State.wireFlag { s with pw := { s.pw with vphLow := true } } 12) := rfl
  rw [hexec, State.monitored]
  cases h : s.pw.vphLow with
  | true =>
    show Host.Outcome.next s = .next { s with pw := { s.pw with vphLow := true } }
    rw [← h]
  | false => rw [if_neg (by decide), Bool.not_false, Bool.true_and]; rfl

theorem exec_ilim (s : State) : exec .ilim s = .next (s.monitored s.pw.vphLow s.pw.warm s.pw.limit 0x01 14) := by
  have hexec : exec .ilim s = .next (if s.pw.limit then s.wireFlag 14 else s) := rfl
  rw [hexec, State.monitored]
  cases s.pw.limit <;> rfl

/-- The six rows: each sets the comparators' levels, and its flag on its edge. A release sets none. -/
theorem exec_monitor {i : Instr} {s : State} {addr : Nat} {flag : Word} {edge : Bool}
    (h : i = .vphLow ∧ addr = 0x0103 ∧ flag = 0x1000 ∧ edge = !s.pw.vphLow ∨ i = .vphHigh ∧ addr = 0x0103 ∧ flag = 0x2000 ∧ edge = true ∨
      i = .thwarn ∧ addr = 0x0003 ∧ flag = 8 ∧ edge = !s.pw.warm ∨ i = .ilim ∧ addr = 0x0103 ∧ flag = 0x4000 ∧ edge = s.pw.limit ∨
      i = .vphLowClear ∧ addr = 0x0103 ∧ flag = 0 ∧ edge = true ∨ i = .thermalWarnClear ∧ addr = 0x0003 ∧ flag = 0 ∧ edge = true) :
    ∃ p k e, addr = p * 256 + 3 ∧ exec i s = .next (s.monitored (if i = .vphLow then true else if i = .vphLowClear then false else s.pw.vphLow)
      (if i = .thwarn then true else if i = .thermalWarnClear then false else s.pw.warm) e p k) ∧
      (flag = w16 (2 ^ k) ∧ e = edge ∨ flag = 0 ∧ e = false) := by
  rcases h with ⟨rfl, rfl, rfl, rfl⟩ | ⟨rfl, rfl, rfl, rfl⟩ | ⟨rfl, rfl, rfl, rfl⟩ | ⟨rfl, rfl, rfl, rfl⟩ | ⟨rfl, rfl, rfl, rfl⟩ |
    ⟨rfl, rfl, rfl, rfl⟩
  · exact ⟨0x01, 12, _, rfl, exec_vphLow s, .inl ⟨rfl, rfl⟩⟩
  · exact ⟨0x01, 13, _, rfl, rfl, .inl ⟨rfl, rfl⟩⟩
  · exact ⟨0x00, 3, _, rfl, rfl, .inl ⟨rfl, rfl⟩⟩
  · exact ⟨0x01, 14, _, rfl, exec_ilim s, .inl ⟨rfl, rfl⟩⟩
  · exact ⟨0x01, 12, false, rfl, rfl, .inr ⟨rfl, rfl⟩⟩
  · exact ⟨0x00, 3, false, rfl, rfl, .inr ⟨rfl, rfl⟩⟩

/-! The ESD counter. -/

theorem exec_esdHit_of_on {s : State} (h : s.pw.phase = .on) : exec .esdHit s = .next ((s.setFlag 0x01 15).addSat8 0x0124) :=
  congrArg Host.Outcome.next (if_pos h)

theorem reg_addSat8 (s : State) (a b : Nat) :
    (s.addSat8 a).reg b = if b = a then w16 (min 255 ((s.reg a).toNat + 1)) else s.reg b := reg_setReg ..

theorem toNat_w16_min (n : Nat) : (w16 (min 255 n)).toNat = min 255 n := by
  rw [w16, BitVec.toNat_ofNat]
  omega

/-- Settles O32: the six rows have one shape, `State.monitored`; the limiter's rows and the ESD hit are read off. -/
theorem monitorsSetFlags : Obligations.MonitorsSetFlags := by
  refine ⟨fun i s addr flag edge h => ?_, fun s => ⟨fun h => ?_, fun h => ?_, rfl⟩, fun s => ⟨fun h => ?_, fun h => ?_⟩⟩
  · obtain ⟨p, k, e, rfl, hexec, hflag⟩ := exec_monitor h
    generalize (if i = .vphLow then true else if i = .vphLowClear then false else s.pw.vphLow) = low at hexec ⊢
    generalize (if i = .thwarn then true else if i = .thermalWarnClear then false else s.pw.warm) = warm at hexec ⊢
    obtain ⟨hframe, hpw, hreg, hkept⟩ := monitored_spec s low warm e p k
    refine ⟨_, hexec, hframe, by rw [hpw], ?_, hkept, by rw [hpw], by rw [hpw]⟩
    rcases hflag with ⟨rfl, rfl⟩ | ⟨rfl, rfl⟩
    · exact hreg
    · simpa using hreg
  · exact congrArg Host.Outcome.next (if_pos h)
  · exact congrArg Host.Outcome.next (if_neg (by simp [h]))
  · exact congrArg Host.Outcome.next (if_neg h)
  · refine ⟨_, exec_esdHit_of_on h, rfl, ?_, ?_, fun a ha => ?_⟩
    · rw [reg_addSat8, if_neg (by decide), reg_setFlag, if_pos rfl]
      rfl
    · rw [reg_addSat8, if_pos rfl, toNat_w16_min, reg_setFlag, if_neg (by decide)]
    · simp only [List.mem_cons, List.not_mem_nil, or_false, not_or] at ha
      rw [reg_addSat8, if_neg ha.2, reg_setFlag, if_neg ha.1]

end Machine
end Sys2Proof
end

section
/-! SUPPORT. The Gauge: its enable bit, the start of a PWM period and the rising edge in frequency mode (R31, R277 to R280). -/

namespace Sys2Proof
namespace Machine

/-! The write that enables or stops the generator. -/

theorem writeBlock_gaugeCtrl (s : State) (v : Word) : s.writeBlock 0x2901 v = s.gaugeCtrl v := rfl

theorem hostWrite_gaugeCtrl {s : State} (h : s.takes 0x2901) (v : Word) : s.hostWrite 0x2901 v = s.gaugeCtrl v := by
  have hwrite : s.hostWrite 0x2901 v = s.written 0x2901 v := rfl
  rw [hwrite, written_eq_writePlain v (by decide) h (by decide), ← writeBlock_gaugeCtrl]
  exact writePlain_open v (.inl rfl) (fun hp => absurd hp (by decide))

/-- The lowest bit of GAUGE.CTRL is taken as written (R374). -/
theorem takenWord_gauge_en (old new : Word) : (takenWord 0x2901 old new).getLsbD 0 = new.getLsbD 0 := by
  have h : takenWord 0x2901 old new = if fld new 5 3 = 7 then w16 (new.toNat % 8 + old.toNat / 8 % 8 * 8) else new := rfl
  rw [h]
  split
  · rw [← BitVec.testBit_toNat, ← BitVec.testBit_toNat, w16, BitVec.toNat_ofNat, Nat.testBit_zero, Nat.testBit_zero,
      decide_eq_decide]
    omega
  · rfl

/-- EN is as written, and only GAUGE.CTRL and the generator change (R277). -/
theorem gaugeEnableOp_spec (s : State) (en : Bool) :
    s.gaugeEnableOp en = { s with regs := (s.gaugeEnableOp en).regs, gg := (s.gaugeEnableOp en).gg } ∧
      s.regsKept (s.gaugeEnableOp en) [0x2901] ∧ ((s.gaugeEnableOp en).reg 0x2901).getLsbD 0 = en := by
  cases en with
  | true =>
    have hreg (b : Nat) : (s.gaugeEnableOp true).reg b = if b = 0x2901 then s.reg 0x2901 ||| 1 else s.reg b := Regs.get_set ..
    refine ⟨rfl, fun a ha => ?_, ?_⟩
    · rw [hreg, if_neg (by simpa using ha)]
    · rw [hreg, if_pos rfl]
      simp
  | false =>
    have hreg (b : Nat) : (s.gaugeEnableOp false).reg b = if b = 0x2901 then s.reg 0x2901 &&& 0x3E else s.reg b := Regs.get_set ..
    refine ⟨rfl, fun a ha => ?_, ?_⟩
    · rw [hreg, if_neg (by simpa using ha)]
    · rw [hreg, if_pos rfl]
      simp

theorem gaugeEnableOp_off (s : State) : (s.gaugeEnableOp false).gg = { s.gg with level := false, startAt := none } := rfl

theorem gaugeEnableOp_on {s : State} (h : (s.reg 0x2901).getLsbD 0 = false) :
    (s.gaugeEnableOp true).gg = { s.gg with startAt := some (s.now + 1) } := by
  have hop : (s.gaugeEnableOp true).gg = { s.gg with
      startAt := if (s.reg 0x2901).getLsbD 0 then s.gg.startAt else some (s.now + 1) } := rfl
  rw [hop, h]
  rfl

/-- GAUGE.CTRL as a write leaves it, before EN takes effect: a change of FMODE in a generator that runs starts a period. -/
def State.gaugeFields (s : State) (new : Word) : State :=
  let u := s.setReg 0x2901 ((new &&& 0x3E) ||| (s.reg 0x2901 &&& 1))
  if wbit (s.reg 0x2901) 0 && (wbit (s.reg 0x2901) 1 != wbit new 1) then { u with gg := { u.gg with startAt := some (u.now + 1) } }
  else u

theorem gaugeCtrl_eq (s : State) (v : Word) : s.gaugeCtrl v =
    (s.gaugeFields (takenWord 0x2901 (s.reg 0x2901) (v &&& 0x3F))).gaugeEnableOp (v.getLsbD 0) := by
  have hen : wbit (takenWord 0x2901 (s.reg 0x2901) (v &&& 0x3F)) 0 = v.getLsbD 0 := by
    rw [wbit, takenWord_gauge_en]
    simp
  rw [← hen]
  rfl

theorem gaugeFields_spec (s : State) (new : Word) :
    s.gaugeFields new = { s with regs := (s.gaugeFields new).regs, gg := { s.gg with startAt := (s.gaugeFields new).gg.startAt } } ∧
      s.regsKept (s.gaugeFields new) [0x2901] ∧ ((s.gaugeFields new).reg 0x2901).getLsbD 0 = (s.reg 0x2901).getLsbD 0 := by
  have hbit : ((new &&& 0x3E) ||| (s.reg 0x2901 &&& 1)).getLsbD 0 = (s.reg 0x2901).getLsbD 0 := by simp
  unfold State.gaugeFields
  dsimp only
  split
  · exact ⟨rfl, regsKept_setReg s 0x2901 _, by rw [reg_mk, get_regs, reg_setReg, if_pos rfl, hbit]⟩
  · exact ⟨rfl, regsKept_setReg s 0x2901 _, by rw [reg_setReg, if_pos rfl, hbit]⟩

theorem exec_gaugeEnable {s u : State} (en : Bool) (hu : s.countHc = u) (ht : u.takes 0x2901) :
    ∃ new, exec (.gaugeEnable en) s = .next ((u.gaugeFields new).gaugeEnableOp en) := by
  have hexec : exec (.gaugeEnable en) s = .next (s.countHc.hostWrite 0x2901 ((s.reg 0x2901 &&& 0x3E) ||| w16 (b2n en))) := rfl
  have hbit : ((s.reg 0x2901 &&& 0x3E) ||| w16 (b2n en)).getLsbD 0 = en := by cases en <;> simp [w16, b2n]
  exact ⟨_, by rw [hexec, hu, hostWrite_gaugeCtrl ht, gaugeCtrl_eq, hbit]⟩

/-- The clauses of GAUGE_ENABLE (R31, R277). -/
theorem exec_gaugeEnable_spec {s u : State} (en : Bool) (hu : s.countHc = u) (ht : u.takes 0x2901) :
    ∃ t, exec (.gaugeEnable en) s = .next t ∧ t = { u with regs := t.regs, flagged := t.flagged, gg := t.gg } ∧
      u.regsKept t [0x2901] ∧ (t.reg 0x2901).getLsbD 0 = en ∧
      (en = false → t.gg = { u.gg with level := false, startAt := none } ∧ (u.pw.phase = .on → t.gaugePin = .low)) ∧
      (en = true → (u.reg 0x2901).getLsbD 0 = false →
        t.gg.startAt = some (s.now + 1) ∧ t.gg.level = u.gg.level ∧ t.gg.v = u.gg.v) := by
  obtain ⟨new, hexec⟩ := exec_gaugeEnable en hu ht
  obtain ⟨hfields, hkept, hold⟩ := gaugeFields_spec u new
  obtain ⟨hframe, hkept', hen⟩ := gaugeEnableOp_spec (u.gaugeFields new) en
  have hnow : u.now = s.now := by rw [← hu]; exact (kept_State_countHc (.refl s)).now
  refine ⟨_, hexec, ?_, fun a ha => (hkept' a ha).trans (hkept a ha), hen, ?_, ?_⟩
  · rw [hframe, hfields]
  · rintro rfl
    rw [gaugeEnableOp_off]
    refine ⟨by rw [hfields], fun hon => ?_⟩
    have hphase : ((u.gaugeFields new).gaugeEnableOp false).pw.phase = .on := by rw [hframe, hfields]; exact hon
    rw [State.gaugePin, if_pos hphase, gaugeEnableOp_off]
    rfl
  · rintro rfl hoff
    rw [gaugeEnableOp_on (hold.trans hoff), hfields, ← hnow]
    exact ⟨rfl, rfl, rfl⟩

/-! The start of a period and the rising edge (R279, R280). -/

theorem exec_gaugePeriod (s : State) :
    exec .gaugePeriod s = .next (if s.gaugeRuns && !(s.reg 0x2901).getLsbD 1 then s.gaugePeriodOp else s) := rfl

theorem exec_gaugeFreqEdge (s : State) :
    exec .gaugeFreqEdge s = .next (if s.gaugeRuns && (s.reg 0x2901).getLsbD 1 then s.gaugeEdgeOp else s) := rfl

theorem reg_gaugePeriodOp (s : State) (a : Nat) :
    s.gaugePeriodOp.reg a = if a = 0x290D then w16 s.gaugeSource else s.reg a := Regs.get_set ..

/-- The value picked up, the frequency it gives within its limits, and CLAMP where the limits changed it (R280). -/
theorem gaugeEdgeOp_spec (s : State) :
    s.gaugeEdgeOp = { s with regs := s.gaugeEdgeOp.regs, flagged := s.gaugeEdgeOp.flagged, gg := s.gaugeEdgeOp.gg } ∧
      s.gaugeEdgeOp.reg 0x290D = w16 s.gaugeSource ∧
      s.gaugeEdgeOp.gg = { s.gg with
        v := s.gaugeSource, level := true, startAt := none,
        inc := (roundDiv (max 10 (min (s.gaugeFreq s.gaugeSource) 200000) * 2 ^ 24 : Nat) (s.clk.decl * 1000)).toNat } ∧
      s.regsKept s.gaugeEdgeOp [0x290D, 0x2903] ∧
      s.gaugeEdgeOp.reg 0x2903 = (if 10 ≤ s.gaugeFreq s.gaugeSource ∧ s.gaugeFreq s.gaugeSource ≤ 200000 then s.reg 0x2903
        else s.reg 0x2903 ||| 1) := by
  let f := s.gaugeFreq s.gaugeSource
  let u : State := { s with
    regs := s.regs.set 0x290D (w16 s.gaugeSource)
    gg := { s.gg with v := s.gaugeSource, level := true, startAt := none,
                      inc := (roundDiv (max 10 (min f 200000) * 2 ^ 24 : Nat) (s.clk.decl * 1000)).toNat } }
  have hop : s.gaugeEdgeOp = u.setFlagIf (decide (max 10 (min f 200000) ≠ f)) 0x29 0 := rfl
  have hu (a : Nat) : u.reg a = if a = 0x290D then w16 s.gaugeSource else s.reg a := Regs.get_set ..
  have hreg (a : Nat) : s.gaugeEdgeOp.reg a = if decide (max 10 (min f 200000) ≠ f) = true ∧ a = 0x2903 then u.reg a ||| 1
    else u.reg a := by rw [hop]; exact reg_setFlagIf ..
  refine ⟨?_, ?_, by rw [hop, State.setFlagIf_gg], fun a ha => ?_, ?_⟩
  · rw [hop, setFlagIf_frame]
  · rw [hreg, if_neg (by simp), hu, if_pos rfl]
  · simp only [List.mem_cons, List.not_mem_nil, or_false, not_or] at ha
    rw [hreg, if_neg (fun h => ha.2 h.2), hu, if_neg ha.1]
  · have hlimit : decide (max 10 (min f 200000) ≠ f) = true ∧ 0x2903 = 0x2903 ↔ ¬(10 ≤ f ∧ f ≤ 200000) := by
      rw [decide_eq_true_iff]
      omega
    have hclamp : u.reg 0x2903 = s.reg 0x2903 := (hu _).trans (if_neg (by decide))
    rw [hreg, hclamp, if_congr hlimit rfl rfl, ite_not]

/-- Settles O55: GAUGE.CTRL's fields come before its EN, and each row of the generator does nothing in the other mode. -/
theorem gaugeGenerator : Obligations.GaugeGenerator := by
  refine ⟨fun en s u hu ht => ?_, fun s h => ⟨?_, ?_⟩, fun s hrun hmode => ⟨?_, ?_⟩, fun s hrun hmode => ⟨?_, ?_⟩⟩
  · exact exec_gaugeEnable_spec en hu ht
  · rw [exec_gaugePeriod, h]; rfl
  · rw [exec_gaugeFreqEdge, h]; rfl
  · rw [exec_gaugeFreqEdge, hrun, hmode]; rfl
  · refine ⟨s.gaugePeriodOp, by rw [exec_gaugePeriod, hrun, hmode]; rfl, rfl, ?_, fun a ha => ?_, rfl, rfl, rfl, rfl, ?_, rfl⟩
    · rw [reg_gaugePeriodOp, if_pos rfl]
    · rw [reg_gaugePeriodOp, if_neg (by simpa using ha)]
    · exact decide_eq_true_iff
  · rw [exec_gaugePeriod, hrun, hmode]; rfl
  · obtain ⟨hframe, hval, hgg, hkept, hclamp⟩ := gaugeEdgeOp_spec s
    exact ⟨s.gaugeEdgeOp, by rw [exec_gaugeFreqEdge, hrun, hmode]; rfl, hframe, hval, by rw [hgg], by rw [hgg], hkept, by rw [hgg]; rfl, hclamp⟩

end Machine
end Sys2Proof
end

section
/-! SUPPORT. A reset cause: what it clears, what it leaves, and the page it damages (R23, R121, R328). -/

namespace Sys2Proof
namespace Machine

/-! The seeds. -/

/-- The seeds load into the lane pages only (R284, R285). -/
theorem reg_loadSeeds {s : State} {a : Nat} (h : pageOf a < 0x10 ∨ 0x20 < pageOf a) : s.loadSeeds.reg a = s.reg a := by
  have hlane (u : State) {k o : Nat} (hk : k < 17) (ho : o < 256) (v : Word) (hu : u.reg a = s.reg a) :
      (u.setReg (laneAddr k o) v).reg a = s.reg a := by
    rw [reg_setReg, if_neg (by unfold laneAddr; unfold pageOf at h; omega), hu]
  refine List.foldlRecOn (motive := fun u : State => u.reg a = s.reg a) _ _ rfl fun u hu k hk => ?_
  have hk := List.mem_range.1 hk
  refine List.foldlRecOn (motive := fun u : State => u.reg a = s.reg a) _ _ ?_ fun v hv j hj => ?_
  · refine List.foldlRecOn (motive := fun u : State => u.reg a = s.reg a) _ _ hu fun v hv j hj => ?_
    have hj := List.mem_range.1 hj
    exact hlane v hk (by omega) _ hv
  · have hj := List.mem_range.1 hj
    exact hlane v hk (by omega) _ hv

/-! The page that is being programmed. -/

theorem getKey_filter_ne {β : Type} (x k : Nat) (l : List (Nat × β)) :
    getKey x (l.filter (fun p => p.1 != k)) = if x = k then none else getKey x l := by
  unfold getKey
  rw [List.find?_filter]
  split
  · next h =>
    rw [List.find?_eq_none.2 (by simp [h]), Option.map_none]
  · next h =>
    congr 2
    funext p
    by_cases hp : p.1 = x <;> simp [hp, h]

theorem getKey_setKey_of_ne {β : Type} {k x : Nat} (v : β) (l : List (Nat × β)) (h : x ≠ k) :
    getKey x (setKey k v l) = getKey x l := by
  have hskip : getKey x (setKey k v l) = getKey x (l.filter (fun p => p.1 != k)) :=
    congrArg (Option.map Prod.snd) (List.find?_cons_of_neg (by simpa using Ne.symm h))
  rw [hskip, getKey_filter_ne, if_neg h]

theorem byteAt_congr {h h' : Shed} {a : Nat} (ht : getKey (a / 256) h'.torn = getKey (a / 256) h.torn)
    (hm : memGet h'.mem a = memGet h.mem a) : h'.byteAt a = h.byteAt a := by
  unfold Shed.byteAt
  rw [ht, hm]

/-- An interruption damages the page in progress, and no other (R328). -/
theorem shedInterrupt_byteAt {s : State} {a : Nat} (h : ∀ j rest, s.sh.jobs = j :: rest → a / 256 ≠ 32 * j.bank + j.page) :
    s.shedInterrupt.sh.byteAt a = s.sh.byteAt a := by
  refine byteAt_congr ?_ (congrArg (memGet · a) (shedInterrupt_mem s))
  unfold State.shedInterrupt
  split
  · next j rest hj => exact getKey_setKey_of_ne _ _ (h j rest hj)
  · rfl

/-! The reset. -/

/-- The state a reset with a cause leaves, but for RSTCAUSE and the seeds (R121, R328; log entry 6). -/
def State.cleared (s : State) (bit : Nat) (phase : PowerPhase) (limit : Bool) : State :=
  { State.reset with
    pending := s.pending, now := s.now, ft := s.ft, free := s.shedInterrupt.free, fac := s.fac
    pw := { State.reset.pw with phase := phase, limit := limit, vphLow := s.pw.vphLow, warm := s.pw.warm,
                                lastReset := some (s.now, s.ft, bit) }
    ms := { State.reset.ms with refIn := s.ms.refIn }
    scan := { State.reset.scan with blkBall := s.scan.blkBall, vsBall := s.scan.vsBall }
    sh := { State.reset.sh with mem := s.shedInterrupt.sh.mem, torn := s.shedInterrupt.sh.torn } }

/-- A cause that no higher one of the same instant has come before resets the part (Table MS-7). -/
theorem hardReset_of_first {s : State} {bit : Nat} (p : PowerPhase) (l : Bool)
    (h : ∀ b, s.pw.lastReset = some (s.now, s.ft, b) → bit < b) :
    s.hardReset bit p l = ((s.cleared bit p l).setReg 0x020E (w16 (2 ^ bit))).loadSeeds := by
  have hfirst : ¬ s.pw.lastReset.any (fun r => decide (r.1 = s.now) && decide (r.2.1 = s.ft) && decide (r.2.2 ≤ bit)) = true := by
    simp only [Option.any_eq_true, Bool.and_eq_true, decide_eq_true_eq, not_exists, not_and, Prod.forall]
    rintro n f b hr ⟨rfl, rfl⟩
    exact Nat.not_le.2 (h b hr)
  exact if_neg hfirst

/-- A cause of Table MS-7 in a state in which it resets the part. -/
theorem exec_resetCause {i : Instr} {bit : Nat} {phase : PowerPhase} {s : State}
    (h : i = .por ∧ bit = 0 ∧ phase = .qualifying ∨
      i = .thermal ∧ bit = 1 ∧ phase = .thermalHeld ∧ s.pw.phase ≠ .thermalHeld ∧ s.sh.jobs = [] ∨
      i = .thermalDeferralExpiry ∧ bit = 1 ∧ phase = .thermalHeld ∧ s.pw.deferred = true ∨
      i = .writeAbort150c ∧ bit = 1 ∧ phase = .thermalHeld ∧ s.pw.phase ≠ .thermalHeld ∨
      i = .foldback ∧ bit = 2 ∧ phase = .foldbackOpen ∧ s.pw.limit = true ∨
      i = .regbo ∧ bit = 3 ∧ phase = .regboHeld ∧ s.limiterRuns = true ∨
      i = .wdog ∧ bit = 4 ∧ phase = .resetCircuit ∧ s.hostClocked = true ∧ s.ms.halted = false) :
    ∃ l, exec i s = .next (s.hardReset bit phase l) := by
  rcases h with ⟨rfl, rfl, rfl⟩ | ⟨rfl, rfl, rfl, hp, hj⟩ | ⟨rfl, rfl, rfl, hd⟩ | ⟨rfl, rfl, rfl, hp⟩ | ⟨rfl, rfl, rfl, hl⟩ |
    ⟨rfl, rfl, rfl, hr⟩ | ⟨rfl, rfl, rfl, hc, hh⟩
  · exact ⟨_, rfl⟩
  · have hidle : ¬ (decide (s.pw.phase = .on) && !s.sh.jobs.isEmpty) = true := by simp [hj]
    exact ⟨_, congrArg Host.Outcome.next ((if_neg hp).trans (if_neg hidle))⟩
  · exact ⟨_, congrArg Host.Outcome.next (if_pos hd)⟩
  · exact ⟨_, congrArg Host.Outcome.next (if_neg hp)⟩
  · exact ⟨_, congrArg Host.Outcome.next (if_pos hl)⟩
  · exact ⟨_, congrArg Host.Outcome.next (if_pos hr)⟩
  · exact ⟨_, congrArg Host.Outcome.next (if_pos (by simp [hc, hh]))⟩

/-- Settles O33: every cause leaves the cleared state, in which only RSTCAUSE and the seeds of the lanes are written. -/
theorem resetCauses : Obligations.ResetCauses := by
  intro i bit phase s hi hfirst
  obtain ⟨l, hexec⟩ := exec_resetCause hi
  obtain ⟨hframe, hcause⟩ := wordsOnly_loadSeeds ((s.cleared bit phase l).setReg 0x020E (w16 (2 ^ bit)))
  refine ⟨_, hexec, ?_⟩
  rw [hardReset_of_first phase l hfirst]
  refine ⟨?cause, ?_, ?_, ?_, ?_, ?_, ?_, ?_, ?_, ?_, ?_, fun a ha hne => ?words, ?_, ?_, ?_, ?_, ?_, ?_, ?_, ?_, fun a => ?mem,
    fun a ha => ?bytes⟩
  case cause => rw [hcause, reg_setReg, if_pos rfl]
  case words =>
    rw [reg_loadSeeds ha, reg_setReg, if_neg hne]
    rfl
  all_goals rw [hframe]
  case mem => exact congrArg (memGet · a) (shedInterrupt_mem s)
  case bytes => exact shedInterrupt_byteAt ha
  all_goals rfl

end Machine
end Sys2Proof
end

section
/-! SUPPORT. What the entry of records and reports leaves alone (R187, R236, R299): the supply, the clock, the link, the Shed. -/

namespace Sys2Proof
namespace Machine

/-- What no entry of a record or a report changes. -/
def State.outsidePart (s : State) : Power × Clock × TimeBase × Link × Shed × Mode × Nat :=
  (s.pw, s.clk, s.tb, s.link, s.sh, s.ms.mode, s.ms.step)

theorem outsidePart_foldl {α : Type} {f : State → α → State} (h : ∀ s a, (f s a).outsidePart = s.outsidePart) (l : List α)
    (s : State) : (l.foldl f s).outsidePart = s.outsidePart :=
  List.foldlRecOn (motive := fun t : State => t.outsidePart = s.outsidePart) l f rfl fun _ ht a _ => (h _ a).trans ht

/-! Flags, wide values and timers. -/

theorem outsidePart_setReg (s : State) (a : Nat) (v : Word) : (s.setReg a v).outsidePart = s.outsidePart := rfl

theorem outsidePart_draw (s : State) : s.draw.outsidePart = s.outsidePart := rfl

theorem outsidePart_setFlagIf (s : State) (c : Bool) (p k : Nat) : (s.setFlagIf c p k).outsidePart = s.outsidePart := by
  unfold State.setFlagIf
  split <;> rfl

theorem outsidePart_setWide (s : State) (b n v : Nat) : (s.setWide b n v).outsidePart = s.outsidePart := by
  unfold State.setWide State.staleIf
  split <;> rfl

theorem outsidePart_timerEvent (s : State) (c : Nat) : (s.timerEvent c).outsidePart = s.outsidePart := by
  have h : s.timersOnly (s.timerEvent c) := timersOnly_timerEvent s c
  rw [State.timersOnly] at h
  rw [h]
  rfl

/-! The report queue (R236 to R241) and the contacts it reports (R227, R238). -/

theorem outsidePart_takeEntry (s : State) (r : Report) : (s.takeEntry r).outsidePart = s.outsidePart := by
  unfold State.takeEntry
  split
  · rfl
  · exact outsidePart_timerEvent ..

theorem outsidePart_waitEntry (s : State) (r : Report) : (s.waitEntry r).outsidePart = s.outsidePart := by
  unfold State.waitEntry
  extract_lets first _ u
  have hu : u.outsidePart = s.outsidePart := outsidePart_timerEvent ..
  clear_value u
  split <;> exact hu

theorem outsidePart_absorbHolder (s : State) (r : Report) : (s.absorbHolder r).2.outsidePart = s.outsidePart := by
  unfold State.absorbHolder
  split <;> rfl

theorem outsidePart_queueLife (s : State) (r : Report) : (s.queueLife r).outsidePart = s.outsidePart := by
  have hpair : (if r.up then s.absorbHolder r else (r, s)).2.outsidePart = s.outsidePart := by
    split
    · exact outsidePart_absorbHolder ..
    · rfl
  unfold State.queueLife
  generalize (if r.up then s.absorbHolder r else (r, s)) = x at hpair ⊢
  obtain ⟨r', u⟩ := x
  refine Eq.trans ?_ hpair
  dsimp only
  split
  · rfl
  · split
    · exact outsidePart_takeEntry ..
    · exact outsidePart_waitEntry ..

theorem outsidePart_queueMove (s : State) (r : Report) : (s.queueMove r).outsidePart = s.outsidePart := by
  unfold State.queueMove
  split
  · rfl
  split
  · exact outsidePart_takeEntry ..
  split
  · rfl
  split <;> rfl

theorem outsidePart_contactReport (s : State) (c : Contact) (e : Event) (ts n : Nat) :
    (s.contactReport c e ts n).outsidePart = s.outsidePart := by
  unfold State.contactReport
  dsimp only
  split
  · exact outsidePart_queueMove ..
  · exact outsidePart_queueLife ..
  · exact outsidePart_queueLife ..

theorem outsidePart_contactReports (s : State) (l : List (Contact × Event)) (ts : Nat) :
    (s.contactReports l ts).outsidePart = s.outsidePart :=
  outsidePart_foldl (fun _ _ => outsidePart_contactReport ..) _ s

theorem outsidePart_idleCheck (s : State) : s.idleCheck.outsidePart = s.outsidePart := by
  unfold State.idleCheck
  split
  · split <;> rfl
  · rfl

theorem outsidePart_forceUps (s : State) (sel : Contact → Bool) (reason : Nat) :
    (s.forceUps sel reason).outsidePart = s.outsidePart := by
  unfold State.forceUps
  dsimp only
  split
  · rfl
  · exact (outsidePart_idleCheck _).trans (outsidePart_contactReports ..)

/-! The Cloche's measurements (R201 to R211). -/

theorem outsidePart_fillFree (l : List (Option Nat)) : ∀ s : State, (s.fillFree l).2.outsidePart = s.outsidePart := by
  induction l with
  | nil => exact fun _ => rfl
  | cons x l ih =>
    intro s
    cases x with
    | some v => exact ih s
    | none => exact ih s.draw

theorem outsidePart_chargerUpdate (s : State) : s.chargerUpdate.outsidePart = s.outsidePart := by
  unfold State.chargerUpdate
  extract_lets known best u lvl chg
  have hu : u.outsidePart = s.outsidePart := by
    clear_value best
    cases best <;> rfl
  split
  · exact (outsidePart_setFlagIf ..).trans hu
  · split <;> exact hu

theorem outsidePart_clocheInjected (s : State) (i : Nat) (els : List ElecRecs) :
    (s.clocheInjected i els).outsidePart = s.outsidePart := by
  refine (outsidePart_chargerUpdate _).trans ?_
  split
  · split
    · rfl
    · refine outsidePart_foldl (fun u q => ?_) _ s
      split <;> rfl
  · rfl

theorem outsidePart_setMaps (b v : Nat → Nat) (l : List Nat) (s : State) :
    (l.foldl (fun s n => s.setMap (b n) (v n)) s).outsidePart = s.outsidePart := by
  refine outsidePart_foldl (fun u n => ?_) l s
  rfl

theorem outsidePart_clocheFrame (s : State) (c : FrameCtx) : (s.clocheFrame c).outsidePart = s.outsidePart := by
  unfold State.clocheFrame
  dsimp only
  generalize hu : State.chargerUpdate _ = u
  have h : u.outsidePart = s.outsidePart := by
    rw [← hu, outsidePart_chargerUpdate, outsidePart_setMaps, outsidePart_setMaps]
    exact (outsidePart_fillFree ..).trans (outsidePart_fillFree ..)
  split_ifs <;> exact h

theorem outsidePart_impulsePassed (s : State) (c : FrameCtx) : (s.impulsePassed c).outsidePart = s.outsidePart := by
  unfold State.impulsePassed
  split <;> rfl

/-! The health check (R299 to R301). -/

theorem outsidePart_healthCheck (s : State) (v : Health) : (s.healthCheck v).outsidePart = s.outsidePart := by
  unfold State.healthCheck
  split
  · rfl
  · dsimp only
    generalize hu : State.draw _ = u
    have h : u.outsidePart = s.outsidePart := by
      rw [← hu, outsidePart_draw, outsidePart_setReg, outsidePart_setReg]
    clear hu
    split
    · exact h
    · exact h

theorem outsidePart_declare (s : State) (lane cause : Nat) (forming : Bool) (frame : Nat) :
    (s.declare lane cause forming frame).outsidePart = s.outsidePart := by
  unfold State.declare
  split
  · rfl
  · exact outsidePart_setFlagIf ..

theorem outsidePart_frameCheck (s : State) (c : FrameCtx) : (s.frameCheck c).outsidePart = s.outsidePart := by
  unfold State.frameCheck
  dsimp only
  split
  · rfl
  · refine outsidePart_foldl (fun u f => ?_) _ _
    split
    · exact outsidePart_declare ..
    · exact outsidePart_declare ..

theorem outsidePart_formEnd (s : State) (frame : Nat) : (s.formEnd frame).outsidePart = s.outsidePart := by
  unfold State.formEnd
  dsimp only
  split
  · rfl
  · refine (outsidePart_foldl (fun _ _ => outsidePart_declare ..) _ _).trans ?_
    refine outsidePart_foldl (fun u k => ?_) _ _
    rfl

theorem outsidePart_healthSlot (s : State) (c : FrameCtx) (e : Nat) (hs : List Health) :
    (s.healthSlot c e hs).outsidePart = s.outsidePart := by
  unfold State.healthSlot
  extract_lets u _ v
  have hu : u.outsidePart = s.outsidePart := by
    dsimp only [u]
    split <;> rfl
  have hv : v.outsidePart = s.outsidePart := by
    refine Eq.trans ?_ hu
    dsimp only [v]
    split
    · split <;> rfl
    · exact outsidePart_foldl outsidePart_healthCheck hs u
  clear_value v
  split
  · exact hv
  split
  · split
    · exact (outsidePart_formEnd ..).trans hv
    · exact hv
  · exact (outsidePart_frameCheck ..).trans hv

/-! The resampler (R187 to R196). -/

theorem outsidePart_takeTarget (s : State) (h : List HistFrame) (t0 t : Int) : (s.takeTarget h t0 t).outsidePart = s.outsidePart := by
  unfold State.takeTarget
  split_ifs <;> rfl

theorem outsidePart_freeRun (h : List HistFrame) (upTo : Int) (fuel : Nat) :
    ∀ s : State, (s.freeRun h upTo fuel).outsidePart = s.outsidePart := by
  induction fuel with
  | zero => exact fun _ => rfl
  | succ fuel ih =>
    intro s
    unfold State.freeRun
    split
    · dsimp only
      split
      · exact (ih _).trans (outsidePart_takeTarget ..)
      · rfl
    · rfl

theorem outsidePart_resolveTargets (f : HistFrame) (ts : List Int) :
    ∀ s : State, (s.resolveTargets f ts).outsidePart = s.outsidePart := by
  induction ts with
  | nil => exact fun _ => rfl
  | cons t ts ih =>
    intro s
    unfold State.resolveTargets
    split
    · exact ih s
    · dsimp only
      split
      · split
        · exact ih _
        · exact ih _
      · exact ih _

theorem outsidePart_resamplerEnter (s : State) (starts : List Nat) (gdly : Nat) (cells : List (List Cell)) :
    (s.resamplerEnter starts gdly cells).outsidePart = s.outsidePart := by
  unfold State.resamplerEnter
  extract_lets no f hist _ _ early _ u _ v w n x
  have hv : v.outsidePart = s.outsidePart := by
    dsimp only [v]
    split
    · split
      · exact outsidePart_foldl (fun _ _ => outsidePart_takeTarget ..) _ _
      · exact outsidePart_takeTarget ..
    · rfl
  have hw : w.outsidePart = v.outsidePart := by
    dsimp only [w]
    split
    · exact outsidePart_freeRun ..
    · rfl
  have hx : x.outsidePart = s.outsidePart := (outsidePart_resolveTargets ..).trans (hw.trans hv)
  clear_value x
  split <;> exact hx

/-! Baselines, images and calibration frames (R215 to R220, R289). -/

theorem outsidePart_trellisFrame (s : State) (no : Nat) (cells : List (List Cell)) (selfs : List (Nat × CxQ × Tag)) :
    (s.trellisFrame no cells selfs).outsidePart = s.outsidePart :=
  (outsidePart_setFlagIf ..).trans (outsidePart_setFlagIf ..)

theorem outsidePart_baseForm (s : State) (re : Bool) (no : Nat) : (s.baseForm re no).outsidePart = s.outsidePart := by
  unfold State.baseForm
  dsimp only
  split
  · rfl
  · exact outsidePart_setFlagIf ..

theorem outsidePart_pointEnd (s : State) (pt : Nat) (m : CalMeas) (ok : Bool) : (s.pointEnd pt m ok).outsidePart = s.outsidePart := by
  cases ok <;> rfl

theorem outsidePart_calFrame (s : State) (c : FrameCtx) : (s.calFrame c).outsidePart = s.outsidePart := by
  unfold State.calFrame
  split
  · rfl
  · extract_lets _ _ _ _ _ _ _ m _ u
    have hu : u.outsidePart = s.outsidePart := rfl
    clear_value m u
    split
    · split <;> exact hu
    · split
      · exact (outsidePart_pointEnd ..).trans hu
      · split
        · exact (outsidePart_pointEnd ..).trans hu
        · exact hu

/-! The entry of a frame and of a slot's records. -/

theorem outsidePart_peekLoad (s : State) (c : FrameCtx) : (s.peekLoad c).outsidePart = s.outsidePart := by
  unfold State.peekLoad
  dsimp only
  split
  · rw [outsidePart_setReg, outsidePart_setWide, outsidePart_setWide]
  · rfl

theorem outsidePart_waterEnter (s : State) (c : FrameCtx) : (s.waterEnter c).outsidePart = s.outsidePart := rfl

theorem outsidePart_normalEntry (s : State) (c : FrameCtx) : (s.normalEntry c).outsidePart = s.outsidePart := by
  refine (outsidePart_calFrame ..).trans ((outsidePart_waterEnter ..).trans ((outsidePart_clocheFrame ..).trans
    ((outsidePart_trellisFrame ..).trans ?_)))
  split
  · exact outsidePart_resamplerEnter ..
  · rfl

theorem outsidePart_baseEntry (s : State) (c : FrameCtx) : (s.baseEntry c).outsidePart = s.outsidePart := by
  unfold State.baseEntry
  extract_lets u v
  have hv : v.outsidePart = s.outsidePart := by
    dsimp only [v]
    split_ifs
    · exact outsidePart_baseForm ..
    · exact outsidePart_baseForm ..
    · rfl
  exact (outsidePart_clocheFrame v c).trans hv

theorem outsidePart_frameEntry (s : State) (c : FrameCtx) : (s.frameEntry c).outsidePart = s.outsidePart := by
  unfold State.frameEntry
  extract_lets _ u v w
  have hv : v.outsidePart = s.outsidePart := outsidePart_impulsePassed u c
  have hw : w.outsidePart = s.outsidePart := (outsidePart_peekLoad ..).trans hv
  clear_value w
  split
  · rfl
  split
  · rfl
  split
  · exact hv
  split
  · exact (outsidePart_normalEntry ..).trans hw
  · exact (outsidePart_baseEntry ..).trans hw

theorem outsidePart_recordsIn (s : State) (r : SlotRecs) : (s.recordsIn r).outsidePart = s.outsidePart := by
  unfold State.recordsIn
  split
  · split
    · rfl
    · exact outsidePart_clocheInjected ..
  · rfl
  · split
    · rfl
    · extract_lets _ u
      split
      · rfl
      · extract_lets v
        have h : v.outsidePart = s.outsidePart := by
          dsimp only [v]
          split
          · exact outsidePart_healthSlot ..
          · rfl
        clear_value v
        split
        · split
          · exact (outsidePart_frameEntry ..).trans h
          · exact h
        · exact h

theorem outsidePart_outputCount (s : State) (o : Output) : (s.outputCount o).outsidePart = s.outsidePart := rfl

/-! The entry of DORMANT (R118). -/

/-- DORMANT entry locks every page, and leaves the Shed, the supply and the start-up step alone. -/
theorem enterDormant_keeps (s : State) : s.enterDormant.sh = s.sh ∧ s.enterDormant.pw = s.pw ∧
    s.enterDormant.link = { s.link with unlocked := [] } ∧ s.enterDormant.ms.step = s.ms.step := by
  unfold State.enterDormant
  extract_lets u1 u2 _ _ u3 _ u4 u5 drops u6 _ _ _ _ u7
  have h2 : u2.outsidePart = s.outsidePart := outsidePart_forceUps ..
  have h4 : u4.outsidePart = u3.outsidePart := outsidePart_foldl outsidePart_recordsIn ..
  have h5 : u5.outsidePart = u4.outsidePart := outsidePart_foldl (fun _ _ => outsidePart_outputCount ..) ..
  have h7 : u7.outsidePart = u3.outsidePart := h5.trans h4
  simp only [State.outsidePart, Prod.mk.injEq] at h2 h7
  obtain ⟨hpw, -, -, hlink, hsh, -, hstep⟩ := h2
  obtain ⟨hpw', -, -, hlink', hsh', -, hstep'⟩ := h7
  exact ⟨hsh'.trans hsh, hpw'.trans hpw, hlink'.trans (congrArg (fun l : Link => { l with unlocked := [] }) hlink),
    hstep'.trans hstep⟩

end Machine
end Sys2Proof
end

section
/-! SUPPORT. A page program that ends: the page it stores, and what waited for it (R33, R109, R118, R318, R325, R328). -/

namespace Sys2Proof
namespace Machine

/-! The bytes of a programmed page (R318). -/

/-- The address of byte 0 of a program's page. -/
def Job.base (j : Job) : Nat := bankBase j.bank + 256 * j.page

theorem Job.base_eq (j : Job) : j.base = 256 * (32 * j.bank + j.page) := by
  unfold Job.base bankBase
  omega

theorem memGet_program (h : Shed) (j : Job) (a : Nat) : memGet (h.program j).mem a =
    if j.base ≤ a ∧ a < j.base + j.bytes.length then j.bytes.getD (a - j.base) 0 else memGet h.mem a :=
  memGet_setAll j.bytes h.mem j.base a

theorem memGet_program_of_mem {j : Job} (h : Shed) {k : Nat} {b : Byte} (hk : j.bytes[k]? = some b) :
    memGet (h.program j).mem (j.base + k) = b := by
  obtain ⟨hlt, -⟩ := List.getElem?_eq_some_iff.1 hk
  rw [memGet_program, if_pos (by omega), Nat.add_sub_cancel_left, List.getD_eq_getElem?_getD, hk]
  rfl

theorem memGet_program_of_not_mem {j : Job} (h : Shed) {a : Nat} (ha : a < j.base ∨ j.base + j.bytes.length ≤ a) :
    memGet (h.program j).mem a = memGet h.mem a := by
  rw [memGet_program, if_neg (by omega)]

/-- A page that has been programmed is undamaged. -/
theorem getKey_torn_program (h : Shed) (j : Job) (x : Nat) : getKey x (h.program j).torn =
    if x = 32 * j.bank + j.page then none else getKey x h.torn := getKey_filter_ne ..

theorem byteAt_program_of_mem {j : Job} (h : Shed) {k : Nat} {b : Byte} (hk : j.bytes[k]? = some b) (hlt : k < 256) :
    (h.program j).byteAt (j.base + k) = b := by
  have hpage : (j.base + k) / 256 = 32 * j.bank + j.page := by
    rw [j.base_eq]
    omega
  rw [Shed.byteAt, getKey_torn_program, if_pos hpage]
  exact memGet_program_of_mem h hk

theorem byteAt_program_of_not_mem {j : Job} (h : Shed) {a : Nat} (ha : a < j.base ∨ j.base + j.bytes.length ≤ a)
    (hp : a < j.base ∨ j.base + 256 ≤ a) : (h.program j).byteAt a = h.byteAt a := by
  have hpage : a / 256 ≠ 32 * j.bank + j.page := by
    rw [j.base_eq] at hp
    omega
  exact byteAt_congr (by rw [getKey_torn_program, if_neg hpage]) (memGet_program_of_not_mem h ha)

/-! The end of a page program (R325). -/

/-- The front program is over, and its page stored. -/
def State.stored (s : State) (j : Job) (rest : List Job) : State :=
  { s with sh := { s.sh.program j with jobs := rest, jobAt := none } }

/-- What neither the counters that follow a program nor the next program change. -/
def State.pagePart (s : State) : List Host.Cell × List (Nat × Nat) × Power := (s.sh.mem, s.sh.torn, s.pw)

theorem pagePart_setWide (s : State) (b n v : Nat) : (s.setWide b n v).pagePart = s.pagePart := by
  rw [State.pagePart, State.setWide_sh, State.setWide_pw, State.pagePart]

theorem pagePart_forgetDone (s : State) : s.forgetDone.pagePart = s.pagePart := by
  unfold State.forgetDone
  dsimp only
  rw [State.pagePart, State.setFlagIf_sh, State.setFlagIf_pw, State.setFlag_sh, State.setFlag_pw, State.setWide_sh, State.setWide_pw]
  rfl

theorem shedReadback_keeps (s : State) : s.shedReadback.sh = { s.sh with readback := true } ∧ s.shedReadback.pw = s.pw := by
  unfold State.shedReadback
  dsimp only
  split <;> exact ⟨rfl, rfl⟩

theorem shedPageEnd_payload {j : Job} (s : State) (rest : List Job) (h : j.kind = .payload) :
    s.shedPageEnd j rest = s.stored j rest := by
  simp only [State.shedPageEnd, h]
  rfl

theorem shedPageEnd_header {j : Job} (s : State) (rest : List Job) (h : j.kind = .header) :
    s.shedPageEnd j rest = ((s.stored j rest).setWide (wearAddr j.bank) 2 ((s.sh.program j).wearOf j.bank)).shedReadback := by
  simp only [State.shedPageEnd, h]
  rfl

theorem clk_shedPageEnd_boot {j : Job} (s : State) (rest : List Job) (h : j.kind = .boot) :
    (s.shedPageEnd j rest).clk = s.clk := by
  simp only [State.shedPageEnd, h]
  split
  · rw [State.setWide_clk]
  · rfl

/-- Whatever the program belonged to, its page is stored, and the supply does not change. -/
theorem pagePart_shedPageEnd (s : State) (j : Job) (rest : List Job) :
    (s.shedPageEnd j rest).pagePart = (s.stored j rest).pagePart := by
  cases hk : j.kind with
  | payload => rw [shedPageEnd_payload s rest hk]
  | header =>
    rw [shedPageEnd_header s rest hk]
    obtain ⟨hsh, hpw⟩ := shedReadback_keeps ((s.stored j rest).setWide (wearAddr j.bank) 2 ((s.sh.program j).wearOf j.bank))
    rw [State.pagePart, hsh, hpw]
    exact pagePart_setWide ..
  | void =>
    simp only [State.shedPageEnd, hk]
    split
    · exact pagePart_setWide ..
    · exact (pagePart_forgetDone _).trans (pagePart_setWide ..)
  | epoch | boot =>
    simp only [State.shedPageEnd, hk]
    split
    · exact pagePart_setWide ..
    · rfl

/-! What follows a page program (R109, R118, R325). -/

/-- The next page program starts: at most the front one gets its bank and bytes (R324). -/
theorem shedStart_keeps (s : State) :
    s.shedStart = { s with agenda := s.shedStart.agenda,
                           sh := { s.sh with jobs := s.shedStart.sh.jobs, jobAt := s.shedStart.sh.jobAt } } ∧
      s.shedStart.sh.jobs.map (·.kind) = s.sh.jobs.map (·.kind) := by
  unfold State.shedStart
  split
  · exact ⟨rfl, rfl⟩
  · next j rest hj =>
    extract_lets front
    have hkind : front.kind = j.kind := by
      dsimp only [front]
      split
      · split <;> rfl
      · rfl
    clear_value front
    have hkinds : (front :: rest).map (·.kind) = s.sh.jobs.map (·.kind) := by
      rw [hj, List.map_cons, List.map_cons, hkind]
    split <;> exact ⟨rfl, hkinds⟩

/-- The next page program starts where one waits. -/
def State.nextPage (s : State) : State := if s.sh.jobs.isEmpty then s else s.shedStart

theorem nextPage_keeps (s : State) :
    s.nextPage = { s with agenda := s.nextPage.agenda,
                          sh := { s.sh with jobs := s.nextPage.sh.jobs, jobAt := s.nextPage.sh.jobAt } } ∧
      s.nextPage.sh.jobs.map (·.kind) = s.sh.jobs.map (·.kind) := by
  unfold State.nextPage
  split
  · exact ⟨rfl, rfl⟩
  · exact shedStart_keeps s

/-- DORMANT that waited for the program is entered (R118). -/
def State.dormantNow (s : State) : State := if s.dormantWaits then s.enterDormant else s

theorem dormantNow_keeps (s : State) : s.dormantNow.sh = s.sh ∧ s.dormantNow.pw = s.pw ∧
    s.dormantNow.link.presence = s.link.presence ∧ s.dormantNow.link.answering = s.link.answering ∧
    s.dormantNow.ms.step = s.ms.step := by
  unfold State.dormantNow
  split
  · obtain ⟨hsh, hpw, hlink, hstep⟩ := enterDormant_keeps s
    exact ⟨hsh, hpw, by rw [hlink], by rw [hlink], hstep⟩
  · exact ⟨rfl, rfl, rfl, rfl, rfl⟩

theorem refStart_frame (s : State) (w : RefWait) (src : Nat) :
    s.refStart w src = { s with agenda := (s.refStart w src).agenda,
                                ms := { s.ms with refUse := src, refRdy := false, refWait := w } } := by
  unfold State.refStart
  dsimp only
  split <;> rfl

/-- Step 3 follows the epoch program of step 2, or step 4 where both of its conditions hold already (R33, R109). -/
theorem presenceOp_keeps (s : State) : s.presenceOp.sh = s.sh ∧ s.presenceOp.pw = s.pw ∧
    s.presenceOp.link = { s.link with presence := true, answering := true } ∧
    s.presenceOp.ms.step = if s.clk.decl ≠ 0 ∧ s.clk.lock = true then 4 else 3 := by
  unfold State.presenceOp State.stepCheck
  by_cases h : s.clk.decl ≠ 0 ∧ s.clk.lock = true
  · rw [if_pos (by simpa using h), if_pos h, refStart_frame]
    exact ⟨rfl, rfl, rfl, rfl⟩
  · rw [if_neg (by simpa using h), if_neg h]
    exact ⟨rfl, rfl, rfl, rfl⟩

/-- Presence begins after the epoch program of step 2 (R33). -/
def State.presenceNow (s : State) (k : JobKind) : State := if k = .boot then s.presenceOp else s

theorem presenceNow_keeps (s : State) (k : JobKind) : (s.presenceNow k).sh = s.sh ∧ (s.presenceNow k).pw = s.pw := by
  unfold State.presenceNow
  split
  · obtain ⟨hsh, hpw, -, -⟩ := presenceOp_keeps s
    exact ⟨hsh, hpw⟩
  · exact ⟨rfl, rfl⟩

/-- With no shutdown deferred: presence, DORMANT, the next page. -/
theorem pageAfter_of_not_deferred {s : State} (h : s.pw.deferred = false) (k : JobKind) :
    s.pageAfter k = (s.presenceNow k).dormantNow.nextPage := if_neg (by rw [h]; exact Bool.false_ne_true)

/-- What follows a program with no shutdown deferred leaves the stored bytes, the read-back and the kinds that wait. -/
theorem pageAfter_keeps {s : State} (h : s.pw.deferred = false) (k : JobKind) :
    (s.pageAfter k).pagePart = s.pagePart ∧ (s.pageAfter k).sh.readback = s.sh.readback ∧
      (s.pageAfter k).sh.jobs.map (·.kind) = s.sh.jobs.map (·.kind) := by
  rw [pageAfter_of_not_deferred h]
  obtain ⟨hframe, hkinds⟩ := nextPage_keeps (s.presenceNow k).dormantNow
  obtain ⟨hsh, hpw, -, -, -⟩ := dormantNow_keeps (s.presenceNow k)
  obtain ⟨hsh', hpw'⟩ := presenceNow_keeps s k
  refine ⟨?_, ?_, ?_⟩
  · rw [hframe]
    dsimp only [State.pagePart]
    rw [hsh, hpw, hsh', hpw']
  · rw [hframe]
    dsimp only
    rw [hsh, hsh']
  · rw [hkinds, hsh, hsh']

theorem pageAfter_boot {s : State} (h : s.pw.deferred = false) :
    (s.pageAfter .boot).link.presence = true ∧ (s.pageAfter .boot).link.answering = true ∧
      (s.pageAfter .boot).ms.step = if s.clk.decl ≠ 0 ∧ s.clk.lock = true then 4 else 3 := by
  have hb : s.pageAfter .boot = s.presenceOp.dormantNow.nextPage := pageAfter_of_not_deferred h .boot
  obtain ⟨hframe, -⟩ := nextPage_keeps s.presenceOp.dormantNow
  obtain ⟨-, -, hpres, hans, hstep⟩ := dormantNow_keeps s.presenceOp
  obtain ⟨-, -, hlink, hstep'⟩ := presenceOp_keeps s
  rw [hb, hframe]
  exact ⟨hpres.trans (by rw [hlink]), hans.trans (by rw [hlink]), hstep.trans hstep'⟩

theorem regs_pageAfter {s : State} (h : s.pw.deferred = false) {k : JobKind} (hk : k ≠ .boot) (hw : s.dormantWaits = false) :
    (s.pageAfter k).regs = s.regs := by
  have hstart : s.presenceNow k = s := if_neg hk
  have hawake : s.dormantNow = s := if_neg (by rw [hw]; exact Bool.false_ne_true)
  rw [pageAfter_of_not_deferred h, hstart, hawake, (nextPage_keeps s).1]

/-! A shutdown that waited for the page (R328). -/

/-- A cause that one as high or higher of the same instant has come before does nothing (Table MS-7). -/
theorem hardReset_of_not_first {s : State} {bit b : Nat} (p : PowerPhase) (l : Bool)
    (h : s.pw.lastReset = some (s.now, s.ft, b)) (hb : b ≤ bit) : s.hardReset bit p l = s := by
  unfold State.hardReset
  rw [if_pos (by simp [h, hb])]

/-- No further page program waits. -/
def State.pagesDropped (s : State) : State := { s with sh := { s.sh with jobs := [] } }

theorem pageAfter_of_deferred {s : State} (h : s.pw.deferred = true) (k : JobKind) :
    s.pageAfter k = s.pagesDropped.hardReset 1 .thermalHeld false :=
  (if_pos h).trans (if_pos h)

/-- The shutdown takes place, or a cause above it has reset the part on this instant; no stored byte changes. -/
theorem deferred_pageAfter {s : State} (h : s.pw.deferred = true) (k : JobKind) :
    ((s.pageAfter k).sh.mem = s.sh.mem ∧ (s.pageAfter k).sh.torn = s.sh.torn) ∧
      ((s.pageAfter k).pw.phase = .thermalHeld ∨ ∃ b, s.pw.lastReset = some (s.now, s.ft, b) ∧ b ≤ 1) := by
  rw [pageAfter_of_deferred h]
  by_cases hfirst : ∃ b, s.pw.lastReset = some (s.now, s.ft, b) ∧ b ≤ 1
  · obtain ⟨b, hlast, hb⟩ := hfirst
    rw [hardReset_of_not_first (s := s.pagesDropped) .thermalHeld false hlast hb]
    exact ⟨⟨rfl, rfl⟩, .inr ⟨b, hlast, hb⟩⟩
  · have hlower (b : Nat) (hlast : s.pagesDropped.pw.lastReset = some (s.pagesDropped.now, s.pagesDropped.ft, b)) : 1 < b :=
      Nat.not_le.1 fun hb => hfirst ⟨b, hlast, hb⟩
    rw [hardReset_of_first .thermalHeld false hlower, (wordsOnly_loadSeeds _).1]
    exact ⟨⟨rfl, rfl⟩, .inl rfl⟩

/-! The command. -/

theorem pageDone_of_idle {s : State} (h : s.sh.jobs = []) : s.pageDone = s := by
  simp only [State.pageDone, h]

theorem pageDone_of_early {s : State} {h : Nat} (hat : s.sh.jobAt = some h) (hlt : s.now < h) : s.pageDone = s := by
  unfold State.pageDone
  split
  · rfl
  · exact if_pos (by simp [hat, hlt])

theorem pageDone_of_due {s : State} {j : Job} {rest : List Job} (hj : s.sh.jobs = j :: rest)
    (hdue : ∀ h, s.sh.jobAt = some h → h ≤ s.now) : s.pageDone = (s.shedPageEnd j rest).pageAfter j.kind := by
  have hnow : ¬ s.sh.jobAt.any (fun t => decide (s.now < t)) = true := by
    rw [Option.any_eq_true]
    rintro ⟨h, hat, hlt⟩
    exact Nat.not_lt.2 (hdue h hat) (of_decide_eq_true hlt)
  simp only [State.pageDone, hj]
  exact if_neg hnow

/-- Whatever follows the program, the bytes and the damage marks are then those of the programmed page. -/
theorem pageDone_stores {s : State} {j : Job} {rest : List Job} (hj : s.sh.jobs = j :: rest)
    (hdue : ∀ h, s.sh.jobAt = some h → h ≤ s.now) :
    s.pageDone.sh.mem = (s.sh.program j).mem ∧ s.pageDone.sh.torn = (s.sh.program j).torn := by
  rw [pageDone_of_due hj hdue]
  have hend := pagePart_shedPageEnd s j rest
  have hpage : ((s.shedPageEnd j rest).pageAfter j.kind).sh.mem = (s.shedPageEnd j rest).sh.mem ∧
      ((s.shedPageEnd j rest).pageAfter j.kind).sh.torn = (s.shedPageEnd j rest).sh.torn := by
    cases hd : (s.shedPageEnd j rest).pw.deferred with
    | true => exact (deferred_pageAfter hd j.kind).1
    | false =>
      have hafter := (pageAfter_keeps hd j.kind).1
      simp only [State.pagePart, Prod.mk.injEq] at hafter
      exact ⟨hafter.1, hafter.2.1⟩
  simp only [State.pagePart, Prod.mk.injEq] at hend
  exact ⟨hpage.1.trans hend.1, hpage.2.trans hend.2.1⟩

theorem pw_shedPageEnd (s : State) (j : Job) (rest : List Job) : (s.shedPageEnd j rest).pw = s.pw := by
  have hend := pagePart_shedPageEnd s j rest
  simp only [State.pagePart, Prod.mk.injEq] at hend
  exact hend.2.2

/-- Settles O36: the page's bytes are those of `Shed.program`, and each of what may follow the program keeps them. -/
theorem pageProgramStores : Obligations.PageProgramStores := by
  refine ⟨fun s hj => congrArg Host.Outcome.next (pageDone_of_idle hj),
    fun s h hat hlt => congrArg Host.Outcome.next (pageDone_of_early hat hlt), fun s j rest hj hdue => ?_⟩
  obtain ⟨hmem, htorn⟩ := pageDone_stores hj hdue
  have hbyte (a : Nat) : s.pageDone.sh.byteAt a = (s.sh.program j).byteAt a :=
    byteAt_congr (by rw [htorn]) (by rw [hmem])
  have hafter := pageDone_of_due hj hdue
  have hpw := pw_shedPageEnd s j rest
  have hheld := shedPageEnd_spec s j rest
  have hdone := pageDone_spec s
  have hkeep (h : s.pw.deferred = false) : (s.shedPageEnd j rest).pw.deferred = false := by rw [hpw, h]
  refine ⟨s.pageDone, rfl, fun k b hk => ⟨?inPage, fun hlt => ?readsIn⟩, fun a ha => ⟨?outside, fun hp => ?readsOut⟩,
    fun h hk => ?header, fun h hk => ?payload, fun h hk => ?boot, fun h => ?shutdown, hdone.now, hdone.pending, hdone.fac⟩
  case inPage => exact (congrArg (memGet · _) hmem).trans (memGet_program_of_mem s.sh hk)
  case readsIn => exact (hbyte _).trans (byteAt_program_of_mem s.sh hk hlt)
  case outside => exact (congrArg (memGet · _) hmem).trans (memGet_program_of_not_mem s.sh ha)
  case readsOut => exact (hbyte _).trans (byteAt_program_of_not_mem s.sh ha hp)
  case header =>
    obtain ⟨-, hread, hkinds⟩ := pageAfter_keeps (hkeep h) j.kind
    have hsh : (s.shedPageEnd j rest).sh = { (s.stored j rest).sh with readback := true } := by
      rw [shedPageEnd_header s rest hk, (shedReadback_keeps _).1, State.setWide_sh]
    rw [hafter, hread, hkinds, hsh]
    exact ⟨rfl, rfl⟩
  case payload =>
    have hne : j.kind ≠ .boot := by simp [hk]
    have hstored := shedPageEnd_payload s rest hk
    obtain ⟨-, hread, hkinds⟩ := pageAfter_keeps (hkeep h) j.kind
    have hlen := congrArg List.length hkinds
    rw [List.length_map, List.length_map] at hlen
    rw [hafter]
    refine ⟨?_, ?_, fun hw => ?_⟩
    · rw [hread, hstored]
      rfl
    · rw [hlen, hstored]
      rfl
    · have hawake : (s.shedPageEnd j rest).dormantWaits = false := by
        rw [hstored]
        exact hw
      rw [regs_pageAfter (hkeep h) hne hawake, hstored]
      rfl
  case boot =>
    rw [hafter, hk]
    simpa only [clk_shedPageEnd_boot s rest hk] using pageAfter_boot (hkeep h)
  case shutdown =>
    have hd : (s.shedPageEnd j rest).pw.deferred = true := by rw [hpw, h]
    have hphase := (deferred_pageAfter hd j.kind).2
    rw [hpw, hheld.now, hheld.ft] at hphase
    rw [hafter]
    exact hphase

end Machine
end Sys2Proof
end

section
/-! SUPPORT. A stop of HCLK, its absence timer, its measurement, and the count of its hc (R44 to R46, R52, R247, R252). -/

namespace Sys2Proof
namespace Machine

/-! A stop and its absence (R44 to R46, R74). -/

theorem hcDriven_of_stopped {s : State} (h : s.clk.stopped = true) : s.hcDriven = false := by
  simp [State.hcDriven, h]

theorem stopOp_of_undriven {s : State} (h : s.hcDriven = false) (cut : Bool) : s.stopOp cut = s := by
  simp [State.stopOp, h]

theorem stopOp_of_driven {s : State} (h : s.hcDriven = true) (cut : Bool) :
    s.stopOp cut = State.setFlagIf { s with clk := { s.clk with stopped := true, absence := 0, stops := s.clk.stops + 1 } }
      (cut || s.link.turn.isSome) 0x01 5 := by
  simp [State.stopOp, h]

theorem stopOp_spec {s : State} (h : s.hcDriven = true) (cut : Bool) :
    s.stopOp cut = { s with regs := (s.stopOp cut).regs, flagged := (s.stopOp cut).flagged, clk := (s.stopOp cut).clk } ∧
      (s.stopOp cut).clk = { s.clk with stopped := true, absence := 0, stops := s.clk.stops + 1 } ∧
      (s.stopOp cut).hcDriven = false ∧
      (s.stopOp cut).reg 0x0103 = (if cut = true ∨ s.link.turn.isSome = true then s.reg 0x0103 ||| 32 else s.reg 0x0103) ∧
      s.regsKept (s.stopOp cut) [0x0103] := by
  rw [stopOp_of_driven h]
  refine ⟨?_, State.setFlagIf_clk .., hcDriven_of_stopped (by rw [State.setFlagIf_clk]), ?_, regsKept_setFlagIf _ _ 0x01 5⟩
  · rw [setFlagIf_frame]
  · refine (reg_setFlagIf_same _ _ 0x01 5).trans ?_
    simp only [Bool.or_eq_true]
    rfl

/-- Settles O26: a stop freezes nothing but the clock's own record, and a trip changes only its own mark. -/
theorem stopFreezesClock : Obligations.StopFreezesClock := by
  refine ⟨fun cut s => ⟨_, rfl, fun h => stopOp_of_undriven h cut, fun h => stopOp_spec h cut⟩, fun s => ⟨_, rfl, ?_⟩⟩
  unfold State.tripOp
  split
  · next h =>
    rw [Bool.and_eq_true, decide_eq_true_eq] at h
    exact ⟨rfl, fun _ => .inr h, fun _ => rfl⟩
  · next h =>
    rw [Bool.and_eq_true, decide_eq_true_eq] at h
    exact ⟨rfl, .inl, fun ht => ht.resolve_right h⟩

/-! Changes of registers and flags alone. -/

/-- `t` is `s` but for registers and flags. -/
def State.regsOnly (s t : State) : Prop := t = { s with regs := t.regs, flagged := t.flagged }

theorem State.regsOnly.refl (s : State) : s.regsOnly s := rfl

theorem State.regsOnly.trans {s t u : State} (h : s.regsOnly t) (g : t.regsOnly u) : s.regsOnly u := Eq.trans g (by rw [h])

theorem regsOnly_setReg (s : State) (a : Nat) (v : Word) : s.regsOnly (s.setReg a v) := rfl

/-! A measurement against the ticker (R52). -/

theorem toNat_w16_sat (n : Nat) : (w16 (min 65535 n)).toNat = min 65535 n := by
  rw [w16, BitVec.toNat_ofNat, Nat.mod_eq_of_lt (by omega)]

theorem sat16_eq_min (n : Nat) : sat16 n = min 65535 n := by
  unfold sat16
  split <;> omega

/-- The frequency measured is over 8% from the declaration in force (R52). -/
def State.farOff (s : State) (n : Nat) : Bool :=
  decide (s.clk.decl ≠ 0) && decide (8 * s.clk.decl < 100 * ((measuredKhz n : Int) - s.clk.decl).natAbs)

theorem measureOp_of_spanned {s : State} {n : Nat} (h : s.hcDriven = false ∨ s.now < s.clk.measFrom + n) : s.measureOp n = s :=
  if_pos (by simpa using h)

theorem measureStore_spec (s : State) (n : Nat) :
    s.measureStore n = { s with regs := (s.measureStore n).regs, flagged := (s.measureStore n).flagged,
                                tb := { s.tb with measured := true }, clk := { s.clk with measFrom := s.now } } ∧
      ∀ a, (s.measureStore n).reg a =
        if a = 0x0311 then w16 (min 65535 n) else if a = 0x0115 then w16 (measuredKhz n) else s.reg a := by
  obtain ⟨u, hu, heq⟩ : ∃ u, u = (s.setReg 0x0115 (w16 (measuredKhz n))).setReg 0x0311 (w16 (min 65535 n)) ∧
      s.measureStore n = { u with clk := { u.clk with measFrom := u.now }, tb := { u.tb with measured := true } } := ⟨_, rfl, rfl⟩
  have hwords : s.regsOnly u := by
    rw [hu]
    exact (regsOnly_setReg ..).trans (regsOnly_setReg ..)
  rw [heq]
  refine ⟨by rw [hwords], fun a => ?_⟩
  rw [reg_mk, get_regs, hu, reg_setReg, reg_setReg]

theorem measureOp_of_run {s : State} {n : Nat} (hd : s.hcDriven = true) (hn : s.clk.measFrom + n ≤ s.now)
    (ht : s.ca.ticks = none) : s.measureOp n =
      if s.farOff n then (s.measureStore n).setReg 0x0111 ((s.measureStore n).reg 0x0111 ||| 0x0400) else s.measureStore n := by
  have htick (u : State) (hu : u.ca = s.ca) : u.tickMeasure n = u := by simp only [State.tickMeasure, hu, ht]
  obtain ⟨hframe, -⟩ := measureStore_spec s n
  have hdecl : (s.measureStore n).clk.decl = s.clk.decl := by rw [hframe]
  have hcal : (s.measureStore n).ca = s.ca := by rw [hframe]
  unfold State.measureOp
  rw [if_neg (by simp [hd, hn])]
  dsimp only
  rw [hdecl, ← State.farOff]
  split
  · exact htick _ ((State.setReg_ca ..).trans hcal)
  · exact htick _ hcal

theorem reg_measureOp {s : State} {n : Nat} (hd : s.hcDriven = true) (hn : s.clk.measFrom + n ≤ s.now)
    (ht : s.ca.ticks = none) (a : Nat) : (s.measureOp n).reg a =
      if s.farOff n ∧ a = 0x0111 then s.reg 0x0111 ||| 0x0400 else (s.measureStore n).reg a := by
  have h : (s.measureStore n).reg 0x0111 = s.reg 0x0111 := (measureStore_spec s n).2 _
  rw [measureOp_of_run hd hn ht, h]
  split <;> simp [*]

/-- A measurement is stored, and marked where it is far off (R52). -/
theorem measureOp_spec {s : State} {n : Nat} (hd : s.hcDriven = true) (hn : s.clk.measFrom + n ≤ s.now)
    (ht : s.ca.ticks = none) :
    s.measureOp n = { s with regs := (s.measureOp n).regs, flagged := (s.measureOp n).flagged,
                             tb := { s.tb with measured := true }, clk := { s.clk with measFrom := s.now } } ∧
      ((s.measureOp n).reg 0x0115).toNat = measuredKhz n ∧ ((s.measureOp n).reg 0x0311).toNat = min 65535 n ∧
      (s.measureOp n).reg 0x0111 = (if s.farOff n then s.reg 0x0111 ||| 0x0400 else s.reg 0x0111) ∧
      s.regsKept (s.measureOp n) [0x0111, 0x0115, 0x0311] := by
  refine ⟨?_, ?_, ?_, ?_, fun a ha => ?_⟩
  · rw [measureOp_of_run hd hn ht, (measureStore_spec s n).1]
    split <;> rfl
  · rw [reg_measureOp hd hn ht, if_neg (by simp), (measureStore_spec s n).2]
    exact toNat_w16_sat _
  · rw [reg_measureOp hd hn ht, if_neg (by simp), (measureStore_spec s n).2]
    exact toNat_w16_sat n
  · rw [reg_measureOp hd hn ht, (measureStore_spec s n).2]
    simp
  · simp only [List.mem_cons, List.not_mem_nil, or_false, not_or] at ha
    obtain ⟨hs, hm, hr⟩ := ha
    rw [reg_measureOp hd hn ht, if_neg (by simp [hs]), (measureStore_spec s n).2, if_neg hr, if_neg hm]

/-! The count of an hc and the end of a slew (R247, R248, R252). -/

theorem accumulate_of_run {s : State} (hr : s.tb.run = true) (hf : s.clk.decl ≠ 0) :
    s.hcTicks = (s.tb.acc + s.tb.rate) / s.clk.decl ∧
    s.accumulate.tb = { s.tb with
      hcpos := s.tb.hcpos + 1, acc := (s.tb.acc + s.tb.rate) % s.clk.decl, tsc := (s.tb.tsc + s.hcTicks) % 2 ^ 48
      held := if s.tb.slewRem ≠ 0 then (s.tb.held + 8000) % s.clk.decl else 0
      slewRem := s.tb.slewRem - s.withheld } := by
  simp [State.accumulate, State.hcTicks, hr, hf]

theorem slewEnd_of_run {s : State} (hr : s.tb.run = true) (hz : s.tb.slewRem = 0) : exec .slewEnd s = .next s.writeAnchor :=
  congrArg Host.Outcome.next (if_pos (by simp [hr, hz]))

theorem slewEnd_of_none {s : State} (h : s.tb.run = false ∨ s.tb.slewRem ≠ 0) : exec .slewEnd s = .next s := by
  refine congrArg Host.Outcome.next (if_neg fun h' => ?_)
  rw [Bool.and_eq_true, decide_eq_true_eq] at h'
  rcases h with h | h
  · simp [h] at h'
  · exact h h'.2

/-- Settles O30: a measurement that counts is `measureOp_spec`, an hc is one division with remainder by the declaration. -/
theorem clockMeasuredAndCounted : Obligations.ClockMeasuredAndCounted := by
  refine ⟨fun n s h => congrArg Host.Outcome.next (measureOp_of_spanned h), fun n s hd hn ht => ?measured, fun s hr hf => ?counted,
    fun s => ?slewEnd⟩
  case measured =>
    obtain ⟨hframe, hmeas, hratio, hoff, hkept⟩ := measureOp_spec hd hn ht
    refine ⟨_, rfl, hframe, hmeas, hratio, ?_, hkept⟩
    rw [hoff, hmeas]
    exact if_congr (by simp [State.farOff]) rfl rfl
  case counted =>
    obtain ⟨hticks, htb⟩ := accumulate_of_run hr hf
    have hdiv := Nat.mod_add_div (s.tb.acc + s.tb.rate) s.clk.decl
    rw [← hticks] at hdiv
    rw [htb]
    refine ⟨rfl, ?_, Nat.mod_lt _ (Nat.pos_of_ne_zero hf), rfl, Nat.sub_le .., fun hz => ?_⟩
    · refine hdiv.trans ?_
      unfold TimeBase.rate
      split <;> simp [*]
    · dsimp only
      rw [hz, Nat.zero_sub]
  case slewEnd =>
    by_cases h : s.tb.run = true ∧ s.tb.slewRem = 0
    · refine ⟨_, slewEnd_of_run h.1 h.2, rfl, fun _ _ => rfl, fun hn => ?_⟩
      simp [h] at hn
    · have hn : s.tb.run = false ∨ s.tb.slewRem ≠ 0 := by
        by_cases hr : s.tb.run = true
        · exact .inr fun hz => h ⟨hr, hz⟩
        · exact .inl (by simpa using hr)
      exact ⟨s, slewEnd_of_none hn, rfl, fun hr hz => absurd ⟨hr, hz⟩ h, fun _ => rfl⟩

end Machine
end Sys2Proof
end

section
/-! SUPPORT. The delay line and the slot in progress at a resume or a jump (R43, R46 to R48, R50, R51), the pins and ATTN on that hc
(R77, R376). -/

namespace Sys2Proof
namespace Machine

/-! Folds of updates of registers and flags. -/

theorem regsOnly_setFlagIf (s : State) (c : Bool) (p k : Nat) : s.regsOnly (s.setFlagIf c p k) := setFlagIf_frame s c p k

theorem regsOnly_foldl {α : Type} {f : State → α → State} (h : ∀ (u : State) (x : α), u.regsOnly (f u x)) (l : List α) (s : State) :
    s.regsOnly (l.foldl f s) :=
  List.foldlRecOn (motive := s.regsOnly) l f (.refl s) fun _ hu x _ => hu.trans (h _ x)

theorem reg_foldl {α : Type} {f : State → α → State} {a : Nat} (l : List α) (s : State)
    (h : ∀ x ∈ l, ∀ u, (f u x).reg a = u.reg a) : (l.foldl f s).reg a = s.reg a :=
  List.foldlRecOn (motive := fun u : State => u.reg a = s.reg a) l f rfl fun _ hu x hx => (h x hx _).trans hu

/-! A slot is frozen (R47). -/

/-- What a relock, a freeze and the end of a slot taken back may change; of HCLK only the relock and the absence that counts. -/
def State.relockOnly (s t : State) : Prop :=
  t = { s with agenda := t.agenda, regs := t.regs, flagged := t.flagged, ms := t.ms, scan := t.scan, inj := t.inj, ca := t.ca, dg := t.dg
               clk := { s.clk with relock := t.clk.relock, lock := t.clk.lock, lockAt := t.clk.lockAt,
                                   stops := t.clk.stops, cum := t.clk.cum, tripped := t.clk.tripped } }

theorem State.relockOnly.refl (s : State) : s.relockOnly s := rfl

theorem State.relockOnly.trans {s t u : State} (h : s.relockOnly t) (g : t.relockOnly u) : s.relockOnly u := Eq.trans g (by rw [h])

theorem State.regsOnly.relockOnly {s t : State} (h : s.regsOnly t) : s.relockOnly t := Eq.trans h (by rw [h])

theorem regsOnly_cutClips (s : State) : s.regsOnly s.cutClips := by
  unfold State.cutClips
  split
  · split
    · exact regsOnly_foldl (fun u _ => regsOnly_setFlagIf u _ _ _) _ s
    · exact .refl s
  · exact .refl s

/-- The clips of a slot that is cut short are flags of the lane pages (R143). -/
theorem reg_cutClips {s : State} {a : Nat} (h : a < 0x1000) : s.cutClips.reg a = s.reg a := by
  unfold State.cutClips
  split
  · split
    · exact reg_foldl _ s fun x _ u => by rw [reg_setFlagIf, if_neg (by omega)]
    · rfl
  · rfl

/-- The slot that the freeze of `t` holds for its re-run: `k`, from its first hc, after a relock of 256 hc (R46, R47). -/
structure State.freezes (s t : State) (k : SlotKind) : Prop where
  flag : t.reg 0x0111 = s.reg 0x0111 ||| 0x0100
  count : t.reg 0x0113 = w16 (sat16 ((s.reg 0x0113).toNat + 1))
  relock : t.clk.relock = some .frozenSlot
  lock : t.clk.lock = false
  lockAt : t.clk.lockAt = s.now + b2n s.tb.counted + 256
  slot : t.scan.slot = some k
  first : t.scan.h = 0
  lead : t.scan.lead = 256 + b2n s.tb.counted
  pause : t.scan.cutPause = s.scan.pauseCount

/-- A freeze but for its words: the sequencer waits for the relock. -/
def State.awaitRerun (s : State) : State :=
  State.startRelock { s with scan := { s.scan with
    h := 0, lead := 256 + b2n s.tb.counted, paused := false, marked := false, tailAt := none, ended := none,
    cutPause := s.scan.pauseCount } } .frozenSlot

theorem freezeSlot_eq (s : State) : s.freezeSlot =
    ((s.cutClips.setReg 0x0111 (s.reg 0x0111 ||| 0x0100)).addSat 0x0113 1).awaitRerun := rfl

theorem relockOnly_awaitRerun (s : State) : s.relockOnly s.awaitRerun := rfl

/-- The words a freeze writes. -/
def State.freezeWords (s : State) : State := (s.cutClips.setReg 0x0111 (s.reg 0x0111 ||| 0x0100)).addSat 0x0113 1

theorem regsOnly_freezeWords (s : State) : s.regsOnly s.freezeWords :=
  (regsOnly_cutClips s).trans ((regsOnly_setReg ..).trans (regsOnly_setReg ..))

theorem reg_freezeWords {s : State} {a : Nat} (h : a < 0x1000) : s.freezeWords.reg a =
    if a = 0x0113 then w16 (sat16 ((s.reg 0x0113).toNat + 1)) else if a = 0x0111 then s.reg 0x0111 ||| 0x0100 else s.reg a := by
  have hcount : s.cutClips.reg 0x0113 = s.reg 0x0113 := reg_cutClips (by decide)
  rw [State.freezeWords, reg_addSat, reg_setReg, reg_setReg, reg_cutClips h, if_neg (by decide : ¬ 0x0113 = 0x0111), hcount]

theorem relockOnly_freezeSlot (s : State) : s.relockOnly s.freezeSlot := by
  rw [freezeSlot_eq, ← State.freezeWords]
  exact (regsOnly_freezeWords s).relockOnly.trans (relockOnly_awaitRerun _)

theorem reg_freezeSlot (s : State) (a : Nat) : s.freezeSlot.reg a = s.freezeWords.reg a := rfl

theorem freezes_freezeSlot {s : State} {k : SlotKind} (h : s.scan.slot = some k) : s.freezes s.freezeSlot k := by
  have hwords := regsOnly_freezeWords s
  have heq : s.freezeSlot = s.freezeWords.awaitRerun := rfl
  have hflag := reg_freezeWords (s := s) (a := 0x0111) (by decide)
  have hcount := reg_freezeWords (s := s) (a := 0x0113) (by decide)
  rw [heq]
  generalize s.freezeWords = u at hwords hflag hcount
  rw [hwords] at *
  exact ⟨hflag, hcount, rfl, rfl, rfl, h, rfl, rfl, rfl⟩

/-! The end of a slot taken back (R46, R47, R143). -/

theorem slotWords_ge {a : Nat} (h : a ∈ slotWords) : 0x0640 ≤ a := by
  simp only [slotWords, List.mem_append, List.mem_flatMap, List.mem_map, List.mem_range, List.mem_cons, List.not_mem_nil, or_false] at h
  rcases h with (⟨k, -, o, -, rfl⟩ | ⟨i, -, rfl⟩) | rfl | rfl | rfl
  · unfold laneAddr
    omega
  all_goals omega

theorem slotFlags_ne {f : Nat × Word} {a : Nat} (h : f ∈ slotFlags) (hl : 0x0100 ≤ a) (hu : a < 0x0400) : f.1 ≠ a := by
  simp only [slotFlags, List.mem_append, List.mem_map, List.mem_range, List.mem_cons, List.not_mem_nil, or_false] at h
  rcases h with ⟨k, -, rfl⟩ | rfl | rfl | rfl
  · unfold laneAddr
    omega
  all_goals simp only; omega

/-- The words and flags that the end of a slot may have written, as they stood before. -/
def State.unendWords (s : State) (r : Regs) : State :=
  slotFlags.foldl (fun s f => s.setReg f.1 (s.reg f.1 &&& (r.get f.1 ||| ~~~ f.2))) (slotWords.foldl (fun s a => s.setReg a (r.get a)) s)

theorem regsOnly_unendWords (s : State) (r : Regs) : s.regsOnly (s.unendWords r) :=
  (regsOnly_foldl (fun u _ => regsOnly_setReg u _ _) _ s).trans (regsOnly_foldl (fun u _ => regsOnly_setReg u _ _) _ _)

theorem reg_unendWords {a : Nat} (s : State) (r : Regs) (hl : 0x0100 ≤ a) (hu : a < 0x0400) : (s.unendWords r).reg a = s.reg a := by
  unfold State.unendWords
  rw [reg_foldl, reg_foldl]
  · intro x hx u
    have := slotWords_ge hx
    rw [reg_setReg, if_neg (by omega)]
  · intro f hf u
    rw [reg_setReg, if_neg (slotFlags_ne hf hl hu).symm]

theorem unend_spec (s : State) (e : Ended) : s.relockOnly (s.unend e) ∧ (s.unend e).clk = s.clk ∧
    (s.unend e).scan.slot = some e.slot ∧ (s.unend e).scan.pauseCount = s.scan.pauseCount ∧
    ∀ a, 0x0100 ≤ a → a < 0x0400 → (s.unend e).reg a = s.reg a := by
  let isEnd (i : Instr) : Bool := decide (i = Instr.exitRampEnd) || decide (i = Instr.injectedSequenceEnd)
  have hwords := regsOnly_unendWords (s.unschedule isEnd) e.regs
  have hreg (a : Nat) (hl : 0x0100 ≤ a) (hu : a < 0x0400) := reg_unendWords (s.unschedule isEnd) e.regs hl hu
  unfold State.unend
  extract_lets _ u
  have hu : u = (s.unschedule isEnd).unendWords e.regs := rfl
  clear_value u
  rw [← hu] at hwords hreg
  clear hu
  obtain ⟨r, f, rfl⟩ : ∃ r f, u = { s.unschedule isEnd with regs := r, flagged := f } := ⟨_, _, hwords⟩
  exact ⟨rfl, rfl, rfl, rfl, hreg⟩

/-! The relock that a resume or a jump begins (R46 to R48, R50, R51). -/

/-- `t` is `s` but for what waits for a relock: the agenda, the ramps and the sequencer. -/
def State.waitsOnly (s t : State) : Prop := t = { s with agenda := t.agenda, inj := t.inj, scan := t.scan }

theorem State.waitsOnly.trans {s t u : State} (h : s.waitsOnly t) (g : t.waitsOnly u) : s.waitsOnly u := Eq.trans g (by rw [h])

theorem restartRelock_eq (s : State) : ∃ u : State, s.waitsOnly u ∧ u.scan.slot = s.scan.slot ∧
    s.restartRelock = { u with clk := { u.clk with
      lock := false, lockAt := u.now + b2n u.tb.counted + 256, stops := 0, cum := 0, tripped := false } } := by
  unfold State.restartRelock
  extract_lets d per _ _ s1 _ s2
  have h1 : s.waitsOnly s1 ∧ s1.scan.slot = s.scan.slot := by
    unfold s1
    split <;> exact ⟨rfl, rfl⟩
  have h2 : s1.waitsOnly s2 ∧ s2.scan.slot = s1.scan.slot := by
    unfold s2
    split <;> exact ⟨rfl, rfl⟩
  exact ⟨s2, h1.1.trans h2.1, h2.2.trans h1.2, rfl⟩

theorem restartRelock_spec (s : State) : s.relockOnly s.restartRelock ∧ s.restartRelock.clk = { s.clk with
      lock := false, lockAt := s.now + b2n s.tb.counted + 256, stops := 0, cum := 0, tripped := false } ∧
    s.restartRelock.scan.slot = s.scan.slot ∧ ∀ a, s.restartRelock.reg a = s.reg a := by
  obtain ⟨u, hu, hslot, heq⟩ := restartRelock_eq s
  rw [heq]
  rw [State.waitsOnly] at hu
  rw [hu] at hslot ⊢
  exact ⟨rfl, rfl, hslot, fun _ => rfl⟩

theorem resumeRelock_of_relock {s : State} {k : Relock} (h : s.clk.relock = some k) (f r : Bool) :
    s.resumeRelock f r = if r then s.restartRelock else s := by
  simp [State.resumeRelock, h]

theorem resumeRelock_of_ended {s : State} {e : Ended} (h : s.clk.relock = none) (he : s.scan.ended = some e) (f r : Bool) :
    s.resumeRelock f r = if f then (s.unend e).freezeSlot else s := by
  simp [State.resumeRelock, h, he]

theorem resumeRelock_of_slot {s : State} (h : s.clk.relock = none) (he : s.scan.ended = none) (hs : s.slotRuns = true) (f r : Bool) :
    s.resumeRelock f r = if f then s.freezeSlot else s := by
  simp [State.resumeRelock, h, he, hs]

theorem resumeRelock_of_neither (s : State) : s.resumeRelock false false = s := by
  unfold State.resumeRelock
  split
  · rfl
  split
  · rfl
  split <;> rfl

/-- What a resume or a jump does to a slot, a relock or a period is one of these. -/
theorem resumeRelock_cases (s : State) (f r : Bool) : s.resumeRelock f r = s ∨ s.resumeRelock f r = s.restartRelock ∨
    s.resumeRelock f r = s.shiftPeriod ∨ s.resumeRelock f r = s.freezeSlot ∨
    ∃ e, s.resumeRelock f r = (s.unend e).freezeSlot := by
  unfold State.resumeRelock
  split
  · split <;> simp
  split
  · next e _ =>
    split
    · exact .inr (.inr (.inr (.inr ⟨e, rfl⟩)))
    · simp
  split
  · split <;> simp
  · split <;> simp

theorem relockOnly_resumeRelock (s : State) (f r : Bool) : s.relockOnly (s.resumeRelock f r) := by
  rcases resumeRelock_cases s f r with h | h | h | h | ⟨e, h⟩ <;> rw [h]
  · exact .refl s
  · exact (restartRelock_spec s).1
  · rfl
  · exact relockOnly_freezeSlot s
  · exact (unend_spec s e).1.trans (relockOnly_freezeSlot _)

/-- Of the words of the link and of the time base, only FROZE and FRZCNT change. -/
theorem reg_resumeRelock (s : State) (f r : Bool) {a : Nat} (hl : 0x0100 ≤ a) (hu : a < 0x0400) (hc : a ≠ 0x0113) :
    (s.resumeRelock f r).reg a = s.reg a ∨ a = 0x0111 ∧ (s.resumeRelock f r).reg a = s.reg a ||| 0x0100 := by
  have hfreeze (u : State) (h : u.reg a = s.reg a) :
      u.freezeSlot.reg a = s.reg a ∨ a = 0x0111 ∧ u.freezeSlot.reg a = s.reg a ||| 0x0100 := by
    rw [reg_freezeSlot, reg_freezeWords (by omega), if_neg hc]
    split
    · next hf => exact .inr ⟨hf, by rw [← h, hf]⟩
    · exact .inl h
  rcases resumeRelock_cases s f r with h | h | h | h | ⟨e, h⟩ <;> rw [h]
  · exact .inl rfl
  · exact .inl ((restartRelock_spec s).2.2.2 a)
  · exact .inl rfl
  · exact hfreeze s rfl
  · obtain ⟨-, -, -, -, hreg⟩ := unend_spec s e
    exact hfreeze _ (hreg a hl hu)

theorem unchanged_resumeRelock (s : State) (f r : Bool) {a : Nat} (hl : 0x0100 ≤ a) (hu : a < 0x0400) (hf : a ≠ 0x0111)
    (hc : a ≠ 0x0113) : (s.resumeRelock f r).reg a = s.reg a :=
  (reg_resumeRelock s f r hl hu hc).resolve_right fun h => hf h.1

/-- The slot that a stop or a jump finds in progress: one that ended on this hc, or the one that runs (R46, R51). -/
def State.inProgress (s : State) (k : SlotKind) : Prop :=
  (∃ e, s.scan.ended = some e ∧ e.slot = k) ∨ (s.scan.ended = none ∧ s.slotRuns = true ∧ s.scan.slot = some k)

theorem freezes_resumeRelock {s : State} {k : SlotKind} (h : s.clk.relock = none) (hk : s.inProgress k) (r : Bool) :
    s.freezes (s.resumeRelock true r) k := by
  rcases hk with ⟨e, he, rfl⟩ | ⟨he, hs, hslot⟩
  · rw [resumeRelock_of_ended h he, if_pos rfl]
    obtain ⟨hframe, -, hslot, hpause, hreg⟩ := unend_spec s e
    have hfreeze := freezes_freezeSlot hslot
    have hnow : (s.unend e).now = s.now := by rw [hframe]
    have htb : (s.unend e).tb = s.tb := by rw [hframe]
    refine ⟨?_, ?_, hfreeze.relock, hfreeze.lock, ?_, hfreeze.slot, hfreeze.first, ?_, ?_⟩
    · rw [hfreeze.flag, hreg _ (by decide) (by decide)]
    · rw [hfreeze.count, hreg _ (by decide) (by decide)]
    · rw [hfreeze.lockAt, hnow, htb]
    · rw [hfreeze.lead, htb]
    · rw [hfreeze.pause, hpause]
  · rw [resumeRelock_of_slot h he hs, if_pos rfl]
    exact freezes_freezeSlot hslot

/-! The pins and ATTN on the hc of a resume (R77, R376). -/

theorem blankFollow_frame (s : State) : ∃ b, s.blankFollow = { s with scan := { s.scan with blkAt := b } } := by
  unfold State.blankFollow
  split
  · exact ⟨s.scan.blkAt, rfl⟩
  split
  · split
    · exact ⟨s.scan.blkAt, rfl⟩
    · exact ⟨none, rfl⟩
  split
  · exact ⟨s.scan.blkAt, rfl⟩
  · exact ⟨_, rfl⟩

theorem vsFollow_frame (s : State) : ∃ v, s.vsFollow = { s with scan := { s.scan with vsAt := v } } := by
  unfold State.vsFollow
  split
  · exact ⟨s.scan.vsAt, rfl⟩
  split
  · exact ⟨none, rfl⟩
  split
  · exact ⟨s.scan.vsAt, rfl⟩
  · exact ⟨_, rfl⟩

theorem pinsFollow_frame (s : State) : ∃ b v, s.pinsFollow = { s with scan := { s.scan with blkAt := b, vsAt := v } } := by
  obtain ⟨b, hb⟩ := blankFollow_frame s
  obtain ⟨v, hv⟩ := vsFollow_frame s.blankFollow
  exact ⟨b, v, hv.trans (by rw [hb])⟩

theorem timerEvent_frame (s : State) (c : Nat) : s.timerEvent c = { s with tm := (s.timerEvent c).tm } :=
  List.foldlRecOn (motive := fun u : State => u = { s with tm := u.tm }) _ _ rfl fun u hu t _ => by
    split
    · exact Eq.trans (b := { u with tm := (u.setTimer t ((u.timer t).event c)).tm }) rfl (by rw [hu])
    · exact hu

theorem attnSet_spec (s : State) (low : Bool) : s.attnSet low = { s with link := { s.link with attn := low }, tm := (s.attnSet low).tm } ∧
    (s.attnOut = true ∨ (s.attnSet low).attnOut = false → (s.attnSet low).tm = s.tm) := by
  let u : State := { s with link := { s.link with attn := low } }
  have heq : s.attnSet low = if u.attnOut && !s.attnOut then u.timerEvent 8 else u := rfl
  rw [heq]
  split
  · next h =>
    have hout : (u.timerEvent 8).attnOut = u.attnOut := by rw [timerEvent_frame]; rfl
    rw [Bool.and_eq_true, Bool.not_eq_true'] at h
    refine ⟨by rw [timerEvent_frame], fun hq => ?_⟩
    rw [hout, h.1, h.2] at hq
    simp at hq
  · exact ⟨rfl, fun _ => rfl⟩

/-- ATTN as it follows the causes; that level is the one its causes call for afterwards too (R77). -/
theorem attnUpdate_spec (s : State) (h : Nat) :
    s.attnUpdate h = { s with link := { s.link with attn := (s.attnUpdate h).attnWanted h }, tm := (s.attnUpdate h).tm } ∧
      (s.attnOut = true ∨ (s.attnUpdate h).attnOut = false → (s.attnUpdate h).tm = s.tm) := by
  obtain ⟨hframe, htm⟩ := attnSet_spec s (s.attnWanted h)
  have hwanted : (s.attnUpdate h).attnWanted h = s.attnWanted h := by rw [State.attnUpdate, hframe]; rfl
  rw [hwanted]
  exact ⟨hframe, htm⟩

end Machine
end Sys2Proof
end

section
/-! SUPPORT. Wide values, the uncertainty, anchors and declarations (R93 to R95, R248 to R251), and an undeclared jump (R51). -/

namespace Sys2Proof
namespace Machine

/-! A wide value (R93, R95). -/

theorem setWords_get (r : Regs) (b v a : Nat) : ∀ n, (setWords r b v n).get a = if b ≤ a ∧ a < b + n then wordAt v (a - b) else r.get a
  | 0 => (if_neg (by omega)).symm
  | n + 1 => by
    rw [setWords, Regs.get_set, setWords_get r b v a n]
    by_cases h : a = b + n
    · rw [if_pos h, if_pos (by omega), h, Nat.add_sub_cancel_left]
    · rw [if_neg h]
      exact if_congr (by omega) rfl rfl

theorem wordAt_succ (v i : Nat) : wordAt v (i + 1) = wordAt (v / 65536) i := by
  rw [wordAt, wordAt, Nat.div_div_eq_div_mul, Nat.mul_succ, pow_add, Nat.mul_comm]
  rfl

theorem ofWords_wordAt (n : Nat) : ∀ v, ofWords ((List.range n).map (wordAt v)) = v % 2 ^ (16 * n) := by
  induction n with
  | zero => intro v; simp [ofWords, Nat.mod_one]
  | succ n ih =>
    intro v
    have hlow : (wordAt v 0).toNat = v % 65536 := by simp [wordAt, w16]
    have htail : wordAt v ∘ Nat.succ = wordAt (v / 65536) := funext (wordAt_succ v)
    rw [List.range_succ_eq_map, List.map_cons, List.map_map, ofWords, hlow, htail, ih, Nat.mul_succ, Nat.add_comm (16 * n), pow_add,
      Nat.mod_mul]
    norm_num

theorem regsOnly_setWide (s : State) (b n v : Nat) : s.regsOnly (s.setWide b n v) := by
  unfold State.setWide State.staleIf
  split <;> rfl

theorem reg_setWide {s : State} {b n v a : Nat} (h : a ≠ pageOf b * 256 + 2) :
    (s.setWide b n v).reg a = if b ≤ a ∧ a < b + n then wordAt v (a - b) else s.reg a := by
  unfold State.setWide State.staleIf
  split
  · rw [reg_setReg, if_neg h]
    exact setWords_get ..
  · exact setWords_get ..

theorem wide_congr {s t : State} {b n : Nat} (h : ∀ i, i < n → t.reg (b + i) = s.reg (b + i)) : t.wide b n = s.wide b n := by
  unfold State.wide
  rw [List.map_congr_left fun i hi => h i (List.mem_range.1 hi)]

theorem wide_setWide {s : State} {b n v : Nat} (h : pageOf b * 256 + 2 < b) : (s.setWide b n v).wide b n = v % 2 ^ (16 * n) := by
  rw [← ofWords_wordAt, State.wide]
  congr 1
  refine List.map_congr_left fun i hi => ?_
  have hi := List.mem_range.1 hi
  rw [reg_setWide (by omega), if_pos (by omega), Nat.add_sub_cancel_left]

/-! The uncertainty (R251). -/

theorem setUnc_spec (s : State) (v : Nat) :
    s.setUnc v = { s with regs := (s.setUnc v).regs, flagged := (s.setUnc v).flagged, tb := { s.tb with est := (s.setUnc v).tb.est } } ∧
      (s.setUnc v).wide 0x030E 2 = min v 0xFFFFFFFF ∧ s.regsKept (s.setUnc v) [0x0302, 0x0303, 0x030E, 0x030F] := by
  obtain ⟨w, hw⟩ : ∃ w, w = s.setWide 0x030E 2 (min v 0xFFFFFFFF) := ⟨_, rfl⟩
  obtain ⟨e, c, heq⟩ : ∃ e c, s.setUnc v = State.setFlagIf { w with tb := { s.tb with est := e } } c 0x03 2 := by
    rw [hw]
    exact ⟨_, _, rfl⟩
  have hwide := regsOnly_setWide s 0x030E 2 (min v 0xFFFFFFFF)
  rw [← hw] at hwide
  have hreg {a : Nat} (h : a ≠ 0x0303) : (s.setUnc v).reg a = w.reg a := by
    rw [heq, reg_setFlagIf, if_neg (by simp [h])]
    rfl
  refine ⟨?_, ?_, fun a ha => ?_⟩
  · rw [heq, setFlagIf_frame, hwide]
  · rw [wide_congr fun i hi => hreg (by omega), hw, wide_setWide (by decide)]
    omega
  · simp only [List.mem_cons, List.not_mem_nil, or_false, not_or] at ha
    obtain ⟨h2, h3, hE, hF⟩ := ha
    rw [hreg h3, hw, reg_setWide h2, if_neg (by omega)]

/-- The advance of a resume: the absence in TIME.ABSLEN, the ticks it is worth in the TSC, and the uncertainty (R249, R250). -/
theorem advance_spec (s : State) (n ratio base div : Nat) :
    s.advance n ratio base div = { s with
      regs := (s.advance n ratio base div).regs, flagged := (s.advance n ratio base div).flagged
      tb := { s.tb with tsc := (s.tb.tsc + absenceTicks n ratio s.clk.decl) % 2 ^ 48, est := (s.advance n ratio base div).tb.est } } ∧
      (s.advance n ratio base div).wide 0x0313 3 = n % 2 ^ 48 ∧
      s.regsKept (s.advance n ratio base div) [0x0302, 0x0303, 0x030E, 0x030F, 0x0313, 0x0314, 0x0315] := by
  obtain ⟨w, hw⟩ : ∃ w, w = s.setWide 0x0313 3 n := ⟨_, rfl⟩
  obtain ⟨u, hu⟩ : ∃ u, u = ({ w with tb := { w.tb with tsc := (w.tb.tsc + absenceTicks n ratio s.clk.decl) % 2 ^ 48 } } : State) := ⟨_, rfl⟩
  have heq : s.advance n ratio base div = u.setUnc (u.unc + base + absenceTicks n ratio s.clk.decl / div) := by
    rw [hu, hw]
    rfl
  have hwide := regsOnly_setWide s 0x0313 3 n
  rw [← hw] at hwide
  have hreg (a : Nat) : u.reg a = w.reg a := by
    rw [hu]
    rfl
  obtain ⟨hframe, -, hkept⟩ := setUnc_spec u (u.unc + base + absenceTicks n ratio s.clk.decl / div)
  rw [← heq] at hframe hkept
  refine ⟨?_, ?_, fun a ha => ?_⟩
  · rw [hframe, hu, hwide]
  · have hwords (i : Nat) (hi : i < 3) : (s.advance n ratio base div).reg (0x0313 + i) = w.reg (0x0313 + i) := by
      rw [hkept _ (by simp; omega), hreg]
    rw [wide_congr hwords, hw, wide_setWide (by decide)]
  · simp only [List.mem_cons, List.not_mem_nil, or_false, not_or] at ha
    obtain ⟨h2, h3, hE, hF, hA, hB, hC⟩ := ha
    rw [hkept a (by simp [h2, h3, hE, hF]), hreg, hw, reg_setWide h2, if_neg (by omega)]

/-! An undeclared jump (R51). -/

/-- What a jump marks before any relock: JUMP, JUMPED, and an uncertainty at its limit (R51, R251). -/
def State.jumpMarked (s : State) : State :=
  State.setUnc { s.setReg 0x0111 (s.reg 0x0111 ||| 0x0200) with tb := { s.tb with jumped := true } } 0xFFFFFFFF

theorem jumpMarked_spec (s : State) :
    s.jumpMarked = { s with regs := s.jumpMarked.regs, flagged := s.jumpMarked.flagged
                            tb := { s.tb with jumped := true, est := s.jumpMarked.tb.est } } ∧
      s.jumpMarked.wide 0x030E 2 = 0xFFFFFFFF ∧ s.jumpMarked.reg 0x0111 = s.reg 0x0111 ||| 0x0200 := by
  obtain ⟨u, hu⟩ : ∃ u : State, u = { s.setReg 0x0111 (s.reg 0x0111 ||| 0x0200) with tb := { s.tb with jumped := true } } := ⟨_, rfl⟩
  have heq : s.jumpMarked = u.setUnc 0xFFFFFFFF := by
    rw [hu]
    rfl
  obtain ⟨hframe, hwide, hkept⟩ := setUnc_spec u 0xFFFFFFFF
  rw [heq]
  refine ⟨by rw [hframe, hu]; rfl, hwide, ?_⟩
  rw [hkept _ (by decide), hu, reg_mk, get_regs, reg_setReg, if_pos rfl]

theorem jumpOp_of_undriven {s : State} (h : s.hcDriven = false) : s.jumpOp = s := by
  simp [State.jumpOp, h]

theorem jumpOp_of_driven {s : State} (h : s.hcDriven = true) : s.jumpOp =
    if s.clk.relock = some .dormantExit then s.jumpMarked
    else if s.ms.step = 3 ∧ s.clk.relock = none then s.jumpMarked.startRelock .first
    else s.jumpMarked.resumeRelock true true := by
  obtain ⟨hframe, -, -⟩ := jumpMarked_spec s
  have hclk : s.jumpMarked.clk = s.clk := by rw [hframe]
  have hms : s.jumpMarked.ms = s.ms := by rw [hframe]
  have heq : s.jumpOp = if !s.hcDriven then s else
      if decide (s.jumpMarked.clk.relock = some Relock.dormantExit) then s.jumpMarked
      else if decide (s.jumpMarked.ms.step = 3) && s.jumpMarked.clk.relock.isNone then s.jumpMarked.startRelock .first
      else s.jumpMarked.resumeRelock true true := rfl
  rw [heq, hclk, hms]
  simp [h]

/-- After its marks a jump changes what a relock changes, FROZE and FRZCNT among the words of the link and of the time base. -/
theorem jumpOp_spec {s : State} (h : s.hcDriven = true) : s.jumpMarked.relockOnly s.jumpOp ∧
    ∀ a, 0x0100 ≤ a → a < 0x0400 → a ≠ 0x0113 →
      s.jumpOp.reg a = s.jumpMarked.reg a ∨ a = 0x0111 ∧ s.jumpOp.reg a = s.jumpMarked.reg a ||| 0x0100 := by
  rw [jumpOp_of_driven h]
  generalize s.jumpMarked = u
  split
  · exact ⟨.refl _, fun _ _ _ _ => .inl rfl⟩
  split
  · exact ⟨rfl, fun _ _ _ _ => .inl rfl⟩
  · exact ⟨relockOnly_resumeRelock .., fun _ hl hu hc => reg_resumeRelock _ _ _ hl hu hc⟩

theorem inProgress_of_runs {s : State} (h : s.slotRuns = true ∨ s.scan.ended.isSome = true) : ∃ k, s.inProgress k := by
  cases he : s.scan.ended with
  | some e => exact ⟨e.slot, .inl ⟨e, he, rfl⟩⟩
  | none =>
    have hruns : s.slotRuns = true := by simpa [he] using h
    obtain ⟨k, hk⟩ := Option.ne_none_iff_exists'.1 ((slotRuns_iff s).1 hruns).1
    exact ⟨k, .inr ⟨he, hruns, hk⟩⟩

/-- Settles O28: the marks of a jump come first, and the relock that follows keeps them. -/
theorem jumpFreezesSlot : Obligations.JumpFreezesSlot := by
  refine ⟨fun s h => congrArg Host.Outcome.next (jumpOp_of_undriven h), fun s h => ⟨_, rfl, ?_⟩⟩
  obtain ⟨hmarks, hunc, hflag⟩ := jumpMarked_spec s
  obtain ⟨hframe, hreg⟩ := jumpOp_spec h
  have hsame (a : Nat) (hl : 0x0100 ≤ a) (hu : a < 0x0400) (hf : a ≠ 0x0111) (hc : a ≠ 0x0113) :
      s.jumpOp.reg a = s.jumpMarked.reg a := (hreg a hl hu hc).resolve_right fun h => hf h.1
  have htb : s.jumpOp.tb = { s.tb with jumped := true, est := s.jumpMarked.tb.est } := by rw [hframe, hmarks]
  refine ⟨?_, by rw [htb], ?_, by rw [htb], by rw [hframe, hmarks], fun hslot hr hstep => ?_, by rw [hframe, hmarks], by rw [hframe, hmarks],
    by rw [hframe, hmarks], bytesKept_of_keeps (kept_State_jumpOp (.refl s))⟩
  · rcases hreg 0x0111 (by decide) (by decide) (by decide) with h' | ⟨-, h'⟩ <;> rw [h', hflag] <;> simp
  · exact (wide_congr fun i hi => hsame _ (by omega) (by omega) (by omega) (by omega)).trans hunc
  · have hrelock : s.jumpMarked.clk.relock = none := by rw [hmarks]; exact hr
    have hruns : s.jumpMarked.slotRuns = true ∨ s.jumpMarked.scan.ended.isSome = true := by rw [hmarks]; exact hslot
    obtain ⟨k, hk⟩ := inProgress_of_runs hruns
    have hfreeze := freezes_resumeRelock hrelock hk true
    rw [jumpOp_of_driven h, if_neg (by simp [hr]), if_neg (by simp [hstep])]
    refine ⟨by rw [hfreeze.flag]; simp, hfreeze.relock, hfreeze.lock, ?_, hfreeze.first⟩
    rw [hfreeze.lockAt, hmarks]

end Machine
end Sys2Proof
end

section
/-! SUPPORT. A resume of HCLK (R46 to R50, R77, R248, R249). -/

namespace Sys2Proof
namespace Machine

/-! What the time base takes of a stop (R49, R249). -/

/-- LNK.STOPLEN and SATUR of a stop (R49). -/
def State.stopNoted (s : State) : State :=
  let u := s.setReg 0x0112 (w16 (min 65535 s.clk.absence))
  if 65535 < s.clk.absence then u.setReg 0x0111 (u.reg 0x0111 ||| 0x1000) else u

theorem stopNoted_spec (s : State) : s.regsOnly s.stopNoted ∧ (s.stopNoted.reg 0x0112).toNat = min 65535 s.clk.absence ∧
    s.regsKept s.stopNoted [0x0111, 0x0112] := by
  have hlen := toNat_w16_sat s.clk.absence
  unfold State.stopNoted
  generalize w16 (min 65535 s.clk.absence) = len at hlen
  dsimp only
  split
  · refine ⟨(regsOnly_setReg ..).trans (regsOnly_setReg ..), ?_, fun a ha => ?_⟩
    · rw [reg_setReg, if_neg (by decide), reg_setReg, if_pos rfl, hlen]
    · simp only [List.mem_cons, List.not_mem_nil, or_false, not_or] at ha
      rw [reg_setReg, if_neg ha.1, reg_setReg, if_neg ha.2]
  · refine ⟨regsOnly_setReg .., ?_, fun a ha => ?_⟩
    · rw [reg_setReg, if_pos rfl, hlen]
    · simp only [List.mem_cons, List.not_mem_nil, or_false, not_or] at ha
      rw [reg_setReg, if_neg ha.2]

/-- The words that the length of a stop and its ticks may change (R49, R248, R251). -/
def stopWords : List Nat := [0x0111, 0x0112, 0x0302, 0x0303, 0x030E, 0x030F, 0x0313, 0x0314, 0x0315]

/-- A stop in the registers and in the TSC: no declaration and no anchor yet (R49, R249). -/
def State.stopTaken (s : State) : State := s.stopNoted.advance s.clk.absence (s.reg 0x0311).toNat 16 512

theorem stopTaken_spec (s : State) :
    s.stopTaken = { s with
      regs := s.stopTaken.regs, flagged := s.stopTaken.flagged
      tb := { s.tb with tsc := (s.tb.tsc + absenceTicks s.clk.absence (s.reg 0x0311).toNat s.clk.decl) % 2 ^ 48
                        est := s.stopTaken.tb.est } } ∧
      (s.stopTaken.reg 0x0112).toNat = min 65535 s.clk.absence ∧ s.stopTaken.wide 0x0313 3 = s.clk.absence % 2 ^ 48 ∧
      s.regsKept s.stopTaken stopWords := by
  obtain ⟨hwords, hlen, hkept⟩ := stopNoted_spec s
  obtain ⟨hframe, hwide, hkept'⟩ := advance_spec s.stopNoted s.clk.absence (s.reg 0x0311).toNat 16 512
  rw [← State.stopTaken] at hframe hwide hkept'
  refine ⟨?_, by rw [hkept' _ (by decide), hlen], hwide, fun a ha => ?_⟩
  · rw [hframe, hwords]
  · simp only [stopWords, List.mem_cons, List.not_mem_nil, or_false, not_or] at ha
    rw [hkept' a (by simp [ha]), hkept a (by simp [ha])]

/-- What follows the ticks of a stop: the staged declaration, or an anchor (R50, R248). -/
def State.declareOrStamp (s : State) (apply : Bool) : State :=
  match apply, s.clk.staged with
  | true, some f => s.changeDeclaration f
  | _, _ => if s.tb.run then s.writeAnchor else s

theorem resumeTime_of_run {s : State} (hr : s.tb.run = true) (apply : Bool) : s.resumeTime apply = s.stopTaken.declareOrStamp apply := by
  obtain ⟨hwords, -, hkept⟩ := stopNoted_spec s
  have hrun : s.stopNoted.tb.run = true := by rw [hwords]; exact hr
  have heq : s.resumeTime apply = State.declareOrStamp (if s.stopNoted.tb.run
    then s.stopNoted.advance s.clk.absence (s.stopNoted.reg 0x0311).toNat 16 512
    else s.stopNoted.setWide 0x0313 3 s.clk.absence) apply := rfl
  rw [heq, if_pos hrun, hkept _ (by decide), ← State.stopTaken]

theorem writeAnchor_spec (s : State) :
    s.writeAnchor = { s with tb := { s.tb with anchors := s.writeAnchor.tb.anchors, lost := s.writeAnchor.tb.lost } } ∧
      s.writeAnchor.tb.anchors.length = min 256 (s.tb.anchors.length + 1) :=
  ⟨rfl, List.length_take ..⟩

/-- A later declaration takes effect: HCPOS and the TSC go on (R248, R250, R251). -/
theorem changeDeclaration_spec (s : State) (f : Nat) :
    s.changeDeclaration f = { s with
      regs := (s.changeDeclaration f).regs, clk := { s.clk with decl := f, staged := none }
      tb := { s.tb with jumped := false, anchors := (s.changeDeclaration f).tb.anchors, lost := (s.changeDeclaration f).tb.lost } } ∧
      (s.changeDeclaration f).tb.anchors.length = min 256 (s.tb.anchors.length + 1) ∧
      s.regsKept (s.changeDeclaration f) [0x0311] := by
  obtain ⟨ratio, heq⟩ : ∃ ratio, s.changeDeclaration f = State.writeAnchor { s.setReg 0x0311 ratio with
    clk := { s.clk with decl := f, staged := none }, tb := { s.tb with jumped := false } } := ⟨_, rfl⟩
  rw [heq]
  exact ⟨rfl, List.length_take .., regsKept_setReg s 0x0311 ratio⟩

theorem declareOrStamp_of_none {s : State} {apply : Bool} (hr : s.tb.run = true) (h : apply = false ∨ s.clk.staged = none) :
    s.declareOrStamp apply = s.writeAnchor := by
  unfold State.declareOrStamp
  split
  · next f hf => simp [hf] at h
  · exact if_pos hr

theorem declareOrStamp_of_some {s : State} {f : Nat} (h : s.clk.staged = some f) : s.declareOrStamp true = s.changeDeclaration f := by
  simp only [State.declareOrStamp, h]

/-- A declaration or an anchor leaves the TSC and HCPOS, and of the words at most RATIO. -/
theorem declareOrStamp_spec {s : State} (hr : s.tb.run = true) (apply : Bool) :
    s.declareOrStamp apply = { s with
      regs := (s.declareOrStamp apply).regs
      clk := { s.clk with decl := (s.declareOrStamp apply).clk.decl, staged := (s.declareOrStamp apply).clk.staged }
      tb := { s.tb with jumped := (s.declareOrStamp apply).tb.jumped, anchors := (s.declareOrStamp apply).tb.anchors
                        lost := (s.declareOrStamp apply).tb.lost } } ∧
      s.regsKept (s.declareOrStamp apply) [0x0311] := by
  by_cases h : apply = false ∨ s.clk.staged = none
  · rw [declareOrStamp_of_none hr h]
    exact ⟨rfl, regsKept_refl _ _⟩
  · simp only [not_or, Bool.not_eq_false] at h
    obtain ⟨rfl, hs⟩ := h
    obtain ⟨f, hf⟩ := Option.ne_none_iff_exists'.1 hs
    rw [declareOrStamp_of_some hf]
    obtain ⟨hframe, -, hkept⟩ := changeDeclaration_spec s f
    exact ⟨by rw [hframe], hkept⟩

/-! The resume (R46 to R50). -/

/-- A staged declaration takes effect at this resume (R50). -/
def State.appliesStaged (s : State) : Bool := s.clk.staged.isSome && decide (1 ≤ s.clk.absence)

/-- The absence of the slot or period is over 57 µs, or the timer has tripped (R46; log entry 18). -/
def State.overAbsent (s : State) : Bool := s.clk.tripped || decide (62 ≤ s.clk.cum + s.clk.absence)

/-- The stop is over and its time is taken, before any relock. -/
def State.resumed (s : State) : State :=
  let u := s.resumeTime s.appliesStaged
  { u with clk := { u.clk with stopped := false, absence := 0, cum := s.clk.cum + s.clk.absence, measFrom := u.now } }

/-- The relock and the freeze that this resume calls for. -/
def State.relocked (s : State) : State :=
  s.resumed.resumeRelock (s.overAbsent || decide (32 < s.clk.stops) || s.appliesStaged) (s.overAbsent || s.appliesStaged)

theorem resumed_of_run {s : State} (hr : s.tb.run = true) : ∃ u, u = s.stopTaken.declareOrStamp s.appliesStaged ∧
    s.resumed = { u with clk := { u.clk with stopped := false, absence := 0, cum := s.clk.cum + s.clk.absence, measFrom := u.now } } := by
  refine ⟨_, rfl, ?_⟩
  rw [← resumeTime_of_run hr]
  rfl

theorem resumed_spec {s : State} (hr : s.tb.run = true) :
    s.resumed = { s with
      regs := s.resumed.regs, flagged := s.resumed.flagged
      clk := { s.clk with stopped := false, absence := 0, cum := s.clk.cum + s.clk.absence, measFrom := s.now
                          decl := s.resumed.clk.decl, staged := s.resumed.clk.staged }
      tb := { s.tb with tsc := (s.tb.tsc + absenceTicks s.clk.absence (s.reg 0x0311).toNat s.clk.decl) % 2 ^ 48
                        est := s.resumed.tb.est, jumped := s.resumed.tb.jumped, anchors := s.resumed.tb.anchors
                        lost := s.resumed.tb.lost } } ∧
      (s.resumed.reg 0x0112).toNat = min 65535 s.clk.absence ∧ s.resumed.wide 0x0313 3 = s.clk.absence % 2 ^ 48 ∧
      s.regsKept s.resumed (0x0311 :: stopWords) := by
  obtain ⟨htaken, hlen, hwide, hkept⟩ := stopTaken_spec s
  have hrun : s.stopTaken.tb.run = true := by rw [htaken]; exact hr
  obtain ⟨hframe, hratio⟩ := declareOrStamp_spec hrun s.appliesStaged
  obtain ⟨u, hu, heq⟩ := resumed_of_run hr
  rw [← hu] at hframe hratio
  have hreg (a : Nat) : s.resumed.reg a = u.reg a := by
    rw [heq]
    rfl
  refine ⟨?_, ?_, ?_, fun a ha => ?_⟩
  · rw [heq, hframe, htaken]
  · rw [hreg, hratio _ (by decide), hlen]
  · rw [wide_congr fun i hi => (hreg _).trans (hratio _ (by simp; omega)), hwide]
  · simp only [List.mem_cons, not_or] at ha
    rw [hreg, hratio a (by simp [ha.1]), hkept a ha.2]

theorem resumed_of_undeclared {s : State} (hr : s.tb.run = true) (ha : s.appliesStaged = false) :
    s.resumed.clk = { s.clk with stopped := false, absence := 0, cum := s.clk.cum + s.clk.absence, measFrom := s.now } ∧
      s.regsKept s.resumed stopWords := by
  obtain ⟨htaken, -, -, hkept⟩ := stopTaken_spec s
  have hrun : s.stopTaken.tb.run = true := by rw [htaken]; exact hr
  obtain ⟨u, hu, heq⟩ := resumed_of_run hr
  rw [ha, declareOrStamp_of_none hrun (.inl rfl)] at hu
  rw [heq, hu]
  generalize s.stopTaken = v at htaken hkept
  refine ⟨?_, hkept⟩
  rw [(writeAnchor_spec v).1, htaken]

theorem resumed_of_declared {s : State} {f : Nat} (hr : s.tb.run = true) (hf : s.clk.staged = some f) (ha : 1 ≤ s.clk.absence) :
    s.resumed.clk.decl = f ∧ s.resumed.clk.staged = none := by
  have happly : s.appliesStaged = true := by simp [State.appliesStaged, hf, ha]
  obtain ⟨htaken, -, -, -⟩ := stopTaken_spec s
  have hstaged : s.stopTaken.clk.staged = some f := by rw [htaken]; exact hf
  obtain ⟨u, hu, heq⟩ := resumed_of_run hr
  rw [happly, declareOrStamp_of_some hstaged, (changeDeclaration_spec _ f).1] at hu
  rw [heq, hu]
  exact ⟨rfl, rfl⟩

/-- A slot within its budget goes on, and so does a relock (R46). -/
theorem relocked_of_budget {s : State} (hr : s.tb.run = true) (ha : s.appliesStaged = false) (hover : s.overAbsent = false)
    (hstops : s.clk.stops ≤ 32 ∨ s.clk.relock.isSome = true) : s.relocked = s.resumed := by
  have hclk : s.resumed.clk.relock = s.clk.relock := by rw [(resumed_spec hr).1]
  unfold State.relocked
  rw [ha, hover]
  cases hk : s.clk.relock with
  | some k => exact resumeRelock_of_relock (hclk.trans hk) _ _
  | none =>
    have hle : s.clk.stops ≤ 32 := by simpa [hk] using hstops
    rw [decide_eq_false (by omega)]
    exact resumeRelock_of_neither _

theorem relocked_spec {s : State} (hr : s.tb.run = true) : s.resumed.relockOnly s.relocked ∧
    (s.relocked.reg 0x0112).toNat = min 65535 s.clk.absence ∧ s.relocked.wide 0x0313 3 = s.clk.absence % 2 ^ 48 := by
  obtain ⟨-, hlen, hwide, -⟩ := resumed_spec hr
  refine ⟨relockOnly_resumeRelock .., ?_, ?_⟩
  · rw [State.relocked, unchanged_resumeRelock _ _ _ (by decide) (by decide) (by decide) (by decide), hlen]
  · rw [← hwide]
    exact wide_congr fun i hi => unchanged_resumeRelock _ _ _ (by omega) (by omega) (by omega) (by omega)

/-- A slot in progress that is over its budget is frozen (R46, R47). -/
theorem relocked_freezes {s : State} {k : SlotKind} (hr : s.tb.run = true) (hnone : s.clk.relock = none) (hk : s.inProgress k)
    (hover : s.clk.tripped = true ∨ 62 ≤ s.clk.cum + s.clk.absence ∨ 32 < s.clk.stops) : s.resumed.freezes s.relocked k := by
  obtain ⟨hframe, -, -, -⟩ := resumed_spec hr
  have hprog : s.resumed.inProgress k := by rw [hframe]; exact hk
  have hfreeze : (s.overAbsent || decide (32 < s.clk.stops) || s.appliesStaged) = true := by
    simp only [State.overAbsent, Bool.or_eq_true, decide_eq_true_eq]
    tauto
  rw [State.relocked, hfreeze]
  exact freezes_resumeRelock (by rw [hframe]; exact hnone) hprog _

/-- A relock that an absence over 57 µs interrupts starts again (R48). -/
theorem relocked_of_relock {s : State} {k : Relock} (hr : s.tb.run = true) (hk : s.clk.relock = some k)
    (hover : s.clk.tripped = true ∨ 62 ≤ s.clk.cum + s.clk.absence) :
    s.relocked.clk.relock = some k ∧ s.relocked.clk.lock = false ∧
      s.relocked.clk.lockAt = s.now + b2n s.tb.counted + 256 ∧ s.relocked.scan.slot = s.scan.slot := by
  obtain ⟨hframe, -, -, -⟩ := resumed_spec hr
  have hrelock : s.resumed.clk.relock = some k := by rw [hframe]; exact hk
  have hagain : (s.overAbsent || s.appliesStaged) = true := by
    simp only [State.overAbsent, Bool.or_eq_true, decide_eq_true_eq]
    exact .inl hover
  obtain ⟨-, hclk, hslot, -⟩ := restartRelock_spec s.resumed
  rw [State.relocked, resumeRelock_of_relock hrelock, if_pos hagain, hclk, hslot, hframe]
  exact ⟨hk, rfl, rfl, rfl⟩

/-- The pins and ATTN follow the relock; nothing else does. -/
theorem resumeOp_spec {s : State} (hs : s.clk.stopped = true) (hr : s.tb.run = true) :
    ∃ b v, s.resumeOp = { s.relocked with
      scan := { s.relocked.scan with blkAt := b, vsAt := v }
      link := { s.link with attn := s.resumeOp.attnWanted s.now }
      tm := s.resumeOp.tm } ∧ (s.attnOut = true ∨ s.resumeOp.attnOut = false → s.resumeOp.tm = s.tm) := by
  have heq : s.resumeOp = if !s.clk.stopped then s else s.relocked.pinsFollow.attnUpdate s.resumed.now := rfl
  obtain ⟨hresumed, -, -, -⟩ := resumed_spec hr
  obtain ⟨hrelocked, -, -⟩ := relocked_spec hr
  have hnow : s.resumed.now = s.now := by rw [hresumed]
  have hlink : s.relocked.link = s.link := by rw [hrelocked, hresumed]
  have htm : s.relocked.tm = s.tm := by rw [hrelocked, hresumed]
  obtain ⟨b, v, hpins⟩ := pinsFollow_frame s.relocked
  obtain ⟨hattn, hquiet⟩ := attnUpdate_spec s.relocked.pinsFollow s.now
  rw [hs, Bool.not_true, if_neg Bool.false_ne_true, hnow] at heq
  rw [← heq] at hattn hquiet
  have hout : s.relocked.pinsFollow.attnOut = s.attnOut := by
    rw [hpins]
    unfold State.attnOut
    rw [hlink]
  refine ⟨b, v, ?_, fun h => ?_⟩
  · exact hattn.trans (by rw [hpins, hlink])
  · rw [hquiet (by rw [hout]; exact h), hpins, htm]

/-- Settles O27: the time is taken first, then the slot, the relock or the period goes on or starts again, and ATTN follows. -/
theorem resumeAfterStop : Obligations.ResumeAfterStop := by
  intro s hs hr
  obtain ⟨hresumed, -, -, hkept⟩ := resumed_spec hr
  obtain ⟨hrelocked, hlen, hwide⟩ := relocked_spec hr
  obtain ⟨b, v, hframe, hquiet⟩ := resumeOp_spec hs hr
  have hreg (a : Nat) : s.resumeOp.reg a = s.relocked.reg a := by rw [hframe]; rfl
  have hclk : s.resumeOp.clk = s.relocked.clk := by rw [hframe]
  have htb : s.resumeOp.tb = s.resumed.tb := by rw [hframe, hrelocked]
  refine ⟨s.resumeOp, rfl, ?stopped, ?_, ?_, ?_, ?_, fun hst htr hcum hstops => ?budget, fun k hnone hk hover => ?frozen,
    fun k hk hover => ?again, fun f hf ha => ?declared, ?link, hquiet, ?_, ?_, bytesKept_of_keeps (kept_State_resumeOp (.refl s))⟩
  case stopped => rw [hclk, hrelocked, hresumed]
  case budget =>
    have happly : s.appliesStaged = false := by simp [State.appliesStaged, hst]
    have hover : s.overAbsent = false := by simpa [State.overAbsent, htr] using hcum
    obtain ⟨hclk', hwords⟩ := resumed_of_undeclared hr happly
    rw [relocked_of_budget hr happly hover hstops] at hframe hreg hclk
    refine ⟨?_, hclk.trans hclk', ?_, fun a ha => (hreg a).trans (hwords a ha)⟩
    · rw [hframe, hresumed]
    · rw [hframe, hresumed]
  case frozen =>
    have h := relocked_freezes hr hnone hk hover
    refine ⟨?_, ?_, hclk ▸ h.relock, hclk ▸ h.lock, ?_, ?_, ?_, ?_, ?_⟩
    · rw [hreg, h.flag]
      simp
    · rw [hreg, h.count, sat16_eq_min, toNat_w16_sat, hkept _ (by decide)]
    · rw [hclk, h.lockAt, hresumed]
    · rw [hframe]
      exact h.slot
    · rw [hframe]
      exact h.first
    · rw [hframe]
      exact h.lead.trans (by rw [hresumed])
    · rw [hframe]
      exact h.pause.trans (by rw [hresumed])
  case again =>
    obtain ⟨hrelock, hlock, hat, hslot⟩ := relocked_of_relock hr hk hover
    rw [hclk]
    refine ⟨hrelock, hlock, hat, ?_⟩
    rw [hframe]
    exact hslot
  case declared =>
    obtain ⟨hdecl, hstaged⟩ := resumed_of_declared hr hf ha
    rw [hclk, hrelocked]
    exact ⟨hdecl, hstaged⟩
  case link => exact (congrArg State.link hframe)
  · rw [hreg, hlen]
  · rw [htb, hresumed]
  · rw [wide_congr fun i _ => hreg _, hwide]
  · rw [htb, hresumed]
  · rw [hframe, hrelocked, hresumed]
  · rw [hframe, hrelocked, hresumed]

end Machine
end Sys2Proof
end

section
/-! SUPPORT. The first HCLK edge and the lock of the delay line (R43, R47, R108, R109, R120). -/

namespace Sys2Proof
namespace Machine

/-! The first edge (R109). -/

theorem firstEdge_of_first {s : State} (hp : s.pw.phase = .on) (hs : s.clk.seen = false) : s.firstEdge =
    State.startRelock { s with clk := { s.clk with seen := true, measFrom := s.now }, tb := { s.tb with counted := false } } .first := by
  simp [State.firstEdge, hp, hs]

theorem firstEdge_of_seen {s : State} (h : s.pw.phase ≠ .on ∨ s.clk.seen = true) : s.firstEdge = s := by
  refine if_neg fun h' => ?_
  rw [Bool.and_eq_true, decide_eq_true_eq, Bool.not_eq_true'] at h'
  rcases h with h | h
  · exact h h'.1
  · simp [h'.2] at h

/-! What a lock leaves alone. -/

/-- Of the delay line, the Shed and the time base: what nothing that waited for a lock changes (R43). -/
def State.linePart (s : State) : Option Relock × Bool × Word × Shed × TimeBase :=
  (s.clk.relock, s.clk.lock, s.reg 0x0114, s.sh, s.tb)

theorem linePart_refStart (s : State) (w : RefWait) (src : Nat) : (s.refStart w src).linePart = s.linePart := by
  rw [refStart_frame]
  rfl

theorem linePart_stepCheck (s : State) : s.stepCheck.linePart = s.linePart := by
  unfold State.stepCheck
  split
  · exact linePart_refStart ..
  · rfl

theorem reg_timerEvent (s : State) (c a : Nat) : (s.timerEvent c).reg a = s.reg a := by
  rw [timerEvent_frame]
  rfl

/-- A report that takes an entry, or waits for one, changes no word below page RQ. -/
theorem reg_takeEntry (s : State) (r : Report) (a : Nat) : (s.takeEntry r).reg a = s.reg a := by
  unfold State.takeEntry
  split
  · rfl
  · exact reg_timerEvent ..

theorem reg_waitEntry (s : State) (r : Report) {a : Nat} (h : a < 0x2600) : (s.waitEntry r).reg a = s.reg a := by
  unfold State.waitEntry
  extract_lets first _ u
  have hu : u.reg a = s.reg a := reg_timerEvent ..
  clear_value u
  split
  · rw [reg_addSat, if_neg (by omega), reg_setFlag, if_neg (by omega), hu]
  · exact hu

theorem reg_queueLife {r : Report} (s : State) (hr : r.up = false) {a : Nat} (h : a < 0x2600) : (s.queueLife r).reg a = s.reg a := by
  unfold State.queueLife
  rw [hr, if_neg Bool.false_ne_true]
  dsimp only
  split
  · rfl
  split
  · exact reg_takeEntry ..
  · exact reg_waitEntry s r h

theorem linePart_queueLife {r : Report} (s : State) (h : r.up = false) : (s.queueLife r).linePart = s.linePart := by
  have hout := outsidePart_queueLife s r
  simp only [State.outsidePart, Prod.mk.injEq] at hout
  obtain ⟨-, hclk, htb, -, hsh, -, -⟩ := hout
  rw [State.linePart, hclk, htb, hsh, reg_queueLife s h (by decide)]
  rfl

/-! The bins of a frozen slot, and the ramp that may follow (R47, R172, R187). -/

theorem emitCut_spec (s : State) (k : SlotKind) (tag : Tag) (pause : Nat) :
    (s.emitCut k tag pause).linePart = s.linePart ∧ (s.emitCut k tag pause).reg 0x060C = w16 (sat16 pause) ∧
      ∃ r, (s.emitCut k tag pause).scan.flight = s.scan.flight ++ [r] ∧ r.cutAs k tag (s.now + 1024) := by
  obtain ⟨w, hw⟩ : ∃ w, w = w16 (sat16 pause) := ⟨_, rfl⟩
  obtain ⟨r, hcut, heq⟩ : ∃ r : SlotRecs, r.cutAs k tag (s.now + 1024) ∧ s.emitCut k tag pause =
      State.after (State.draw { s.setReg 0x060C (w16 (sat16 pause)) with scan := { s.scan with flight := s.scan.flight ++ [r] } }) 1024
        .recordsReady := by
    refine ⟨_, ⟨rfl, rfl, rfl, fun e he => ?_⟩, rfl⟩
    obtain ⟨p, -, rfl⟩ := List.mem_map.1 he
    refine ⟨by simp [State.cutElec, tab], fun q hq => ?_⟩
    obtain ⟨i, -, rfl⟩ := List.mem_map.1 hq
    rfl
  rw [heq, ← hw]
  refine ⟨?_, ?_, r, rfl, hcut⟩
  · simp [State.linePart]
  · rw [reg_after, reg_draw, reg_mk, get_regs, reg_setReg, if_pos rfl]

theorem linePart_setFlagIf (s : State) (c : Bool) (k : Nat) : (s.setFlagIf c 0x21 k).linePart = s.linePart := by
  simp [State.linePart]

theorem injStart_spec (s : State) (t : Nat) (e : Option Nat) : (s.injStart t e).linePart = s.linePart ∧
    (s.injStart t e).reg 0x060C = s.reg 0x060C ∧ (s.injStart t e).scan.flight = s.scan.flight := by
  unfold State.injStart
  extract_lets te ge p _ _ _ u
  have hu : u.linePart = s.linePart ∧ u.reg 0x060C = s.reg 0x060C ∧ u.scan.flight = s.scan.flight := ⟨rfl, rfl, rfl⟩
  clear_value u
  obtain ⟨hline, hreg, hflight⟩ := hu
  refine ⟨(linePart_setFlagIf u _ 0).trans hline, ?_, (congrArg Scan.flight (u.setFlagIf_scan _ _ _)).trans hflight⟩
  simpa using hreg

/-! A lock (R43). -/

/-- The lock itself: LOCK is 1, and LINE holds the code within its limits. -/
def State.lineLocked (s : State) (code : Word) : State :=
  State.setReg { s with clk := { s.clk with relock := none, lock := true, lineAt := s.now } } 0x0114
    (w16 (max 100 (min 500 code.toNat)))

theorem clk_lineLocked (s : State) (code : Word) :
    (s.lineLocked code).clk = { s.clk with relock := none, lock := true, lineAt := s.now } := rfl

theorem linePart_lineLocked (s : State) (code : Word) :
    (s.lineLocked code).linePart = (none, true, w16 (max 100 (min 500 code.toNat)), s.sh, s.tb) := by
  generalize hw : w16 (max 100 (min 500 code.toNat)) = w
  rw [State.lineLocked, hw]
  simp [State.linePart]

/-- The bins of the frozen slot, if one waits. -/
def State.frozenBins (s : State) : State :=
  match s.scan.slot with
  | some x => s.emitCut x .frozen s.scan.cutPause
  | none => s

/-- The injected sequence that waited for the slot, if one did (R172). -/
def State.heldInjection (s : State) : State :=
  match s.scan.slot, s.inj.phase with
  | some (.regular e), .pending => s.injStart s.now (some e)
  | _, _ => s

/-- What waited for the lock. -/
def State.lockFollows (s : State) : Relock → State
  | .first | .period => s.stepCheck
  | .frozenSlot => s.frozenBins.heldInjection
  | .dormantExit =>
    let u := s.queueLife (s.eventReport 0x12 s.wakeBody)
    State.refStart { u.periodStart with ms := { u.ms with exit := .settle } } .exit u.ms.refUse

theorem relockEnd_of_relock {s : State} {k : Relock} (h : s.clk.relock = some k) (code : Word) :
    s.relockEnd code = (s.lineLocked code).lockFollows k := by
  unfold State.relockEnd
  rw [h]
  cases k <;> rfl

theorem heldInjection_spec (s : State) : s.heldInjection.linePart = s.linePart ∧
    s.heldInjection.reg 0x060C = s.reg 0x060C ∧ s.heldInjection.scan.flight = s.scan.flight := by
  unfold State.heldInjection
  split
  · exact injStart_spec ..
  · exact ⟨rfl, rfl, rfl⟩

theorem linePart_frozenBins (s : State) : s.frozenBins.linePart = s.linePart := by
  unfold State.frozenBins
  split
  · exact (emitCut_spec ..).1
  · rfl

theorem linePart_lockFollows (s : State) (k : Relock) : (s.lockFollows k).linePart = s.linePart := by
  cases k with
  | first => exact linePart_stepCheck s
  | period => exact linePart_stepCheck s
  | frozenSlot => exact (heldInjection_spec _).1.trans (linePart_frozenBins s)
  | dormantExit => exact (linePart_refStart ..).trans (linePart_queueLife s rfl)

/-- The bins of a frozen slot are emitted at the lock, tagged FROZEN (R47). -/
theorem lockFollows_frozenSlot {s : State} {x : SlotKind} (h : s.scan.slot = some x) :
    (s.lockFollows .frozenSlot).reg 0x060C = w16 (sat16 s.scan.cutPause) ∧
      ∃ r, (s.lockFollows .frozenSlot).scan.flight = s.scan.flight ++ [r] ∧ r.cutAs x .frozen (s.now + 1024) := by
  have hbins : s.frozenBins = s.emitCut x .frozen s.scan.cutPause := by rw [State.frozenBins, h]
  obtain ⟨-, hreg, r, hflight, hcut⟩ := emitCut_spec s x .frozen s.scan.cutPause
  obtain ⟨-, hreg', hflight'⟩ := heldInjection_spec s.frozenBins
  rw [hbins] at hreg' hflight'
  exact ⟨(congrArg (fun t => t.heldInjection.reg 0x060C) hbins).trans (hreg'.trans hreg), r,
    (congrArg (fun t => t.heldInjection.scan.flight) hbins).trans (hflight'.trans hflight), hcut⟩

/-- Step 3 ends at the lock where a declaration is in force (R108, R109). -/
theorem stepCheck_step {s : State} (h : s.ms.step = 3) :
    s.stepCheck.ms.step = if s.clk.decl ≠ 0 ∧ s.clk.lock = true then 4 else 3 := by
  unfold State.stepCheck
  by_cases hc : s.clk.decl ≠ 0 ∧ s.clk.lock = true
  · rw [if_pos (by simpa [h] using hc), if_pos hc, refStart_frame]
  · rw [if_neg (by simpa [h] using hc), if_neg hc, h]

theorem delayLock_of_locks {s : State} {k : Relock} (hk : s.clk.relock = some k) (hd : s.hcDriven = true)
    (ht : k = .first ∨ s.clk.lockAt ≤ s.now) (code : Word) : s.delayLock code = (s.lineLocked code).lockFollows k := by
  unfold State.delayLock
  rw [if_pos (by simp [hk, hd, ht])]
  exact relockEnd_of_relock hk code

/-- No lock before the 256 hc of a relock, and none in a stop (R43, R109). -/
theorem delayLock_of_not {s : State} {k : Relock} (hk : s.clk.relock = some k)
    (h : s.hcDriven = false ∨ (k ≠ .first ∧ s.now < s.clk.lockAt)) (code : Word) : s.delayLock code = s := by
  refine if_neg fun h' => ?_
  simp only [hk, Bool.and_eq_true, Bool.or_eq_true, decide_eq_true_eq, Option.some.injEq] at h'
  obtain ⟨hd, hlocks⟩ := h'
  rcases h with h | ⟨hk', ht⟩
  · simp [h] at hd
  · exact hlocks.elim hk' (fun hle => by omega)

/-- Settles O29: the first edge starts a relock; a lock ends one, and what waited for it leaves the line, the Shed and the time
base alone. -/
theorem delayLineLocks : Obligations.DelayLineLocks := by
  unfold Obligations.DelayLineLocks
  refine ⟨fun s => ⟨s.firstEdge, rfl, fun hp hs => ?_, firstEdge_of_seen⟩, fun code k s hk => ⟨s.delayLock code, rfl,
    fun hd ht => ?_, fun h => delayLock_of_not hk h code⟩⟩
  · rw [firstEdge_of_first hp hs]
    exact ⟨rfl, rfl, rfl, rfl⟩
  · rw [delayLock_of_locks hk hd ht]
    have hline := (linePart_lockFollows (s.lineLocked code) k).trans (linePart_lineLocked s code)
    simp only [State.linePart, Prod.mk.injEq] at hline
    obtain ⟨hrelock, hlock, hcode, hsh, htb⟩ := hline
    refine ⟨hrelock, hlock, hcode, ?_, ?_, hsh, htb⟩
    · rintro rfl hstep
      refine (stepCheck_step (s := s.lineLocked code) hstep).trans ?_
      simp only [clk_lineLocked, and_true, ite_not]
    · rintro x rfl hx
      rw [← sat16_eq_min]
      exact lockFollows_frozenSlot (s := s.lineLocked code) hx

end Machine
end Sys2Proof
end

section
/-! SUPPORT. A write to HCLKF: the first declaration, a later one, and one that is staged (R50, R109, R247, R376). -/

namespace Sys2Proof
namespace Machine

theorem hostWrite_hclkf {s : State} (h : s.takes 0x0110) (v : Word) : s.hostWrite 0x0110 v = s.declare_ v := by
  have hhold : s.shedHolds (0x0110 : Word).toNat = false := h.ready
  have hwrite : s.hostWrite 0x0110 v = s.writeWord 0x0110 v := by
    unfold State.hostWrite
    rw [h.up, hhold]
    rfl
  have hblock : s.declare_ v = s.writeBlock 0x0110 v := rfl
  rw [hwrite, writeWord_of_plain v h.mapped (by decide), hblock]
  exact writePlain_open v (.inr (by decide)) (fun hp => absurd hp (by decide))

/-! A word outside the limits, and one after step 3 (R50). -/

theorem declare_of_bad {s : State} {v : Word} (h : v.toNat < 24000 ∨ 40000 < v.toNat) :
    s.declare_ v = s.setReg 0x0111 (s.reg 0x0111 ||| 0x0800) := if_pos h

theorem declare_of_valid {s : State} {v : Word} (hlo : 24000 ≤ v.toNat) (hhi : v.toNat ≤ 40000) : s.declare_ v =
    if s.ms.step = 3 then
      (if s.clk.decl = 0 then ((s.firstDeclaration v.toNat).shedToHc).gaugeTick.pinsStart
        else s.changeDeclaration v.toNat).stepCheck
    else if v.toNat = s.clk.decl then { s with clk := { s.clk with staged := none } }
    else { s with clk := { s.clk with staged := some v.toNat } } := if_neg (by omega)

/-! What a declaration changes at most. -/

/-- `t` is `s` but for what a declaration that takes effect may touch. -/
def State.declaredOnly (s t : State) : Prop :=
  t = { s with regs := t.regs, flagged := t.flagged, clk := t.clk, tb := t.tb, ms := t.ms, agenda := t.agenda, scan := t.scan,
               sh := { s.sh with jobAt := t.sh.jobAt }, free := t.free, gg := t.gg }

theorem State.declaredOnly.trans {s t u : State} (h : s.declaredOnly t) (g : t.declaredOnly u) : s.declaredOnly u :=
  Eq.trans g (by rw [h])

theorem regsKept_trans {s t u : State} {l : List Nat} (h : s.regsKept t l) (g : t.regsKept u l) : s.regsKept u l :=
  fun a ha => (g a ha).trans (h a ha)

theorem regsKept_mono {s t : State} {l m : List Nat} (h : s.regsKept t l) (hlm : l ⊆ m) : s.regsKept t m :=
  fun a ha => h a (fun hl => ha (hlm hl))

/-- The words a declaration that takes effect may change: RATIO, and the Gauge's flags and value. -/
def declaredWords : List Nat := [0x0311, 0x2903, 0x290D]

/-- The declaration `f` is in force in `t`: HCPOS and the TSC stand as in `s`, an anchor is written, JUMPED is clear. -/
structure State.declares (s t : State) (f : Nat) : Prop where
  decl : t.clk.decl = f
  lock : t.clk.lock = s.clk.lock
  step : t.ms.step = s.ms.step
  jumped : t.tb.jumped = false
  tsc : t.tb.tsc = s.tb.tsc
  hcpos : t.tb.hcpos = s.tb.hcpos
  anchors : t.tb.anchors.length = min 256 (s.tb.anchors.length + 1)
  words : s.regsKept t declaredWords
  only : s.declaredOnly t

theorem declares_changeDeclaration (s : State) (f : Nat) : s.declares (s.changeDeclaration f) f := by
  obtain ⟨hframe, hanchors, hwords⟩ := changeDeclaration_spec s f
  exact {
    decl := by rw [hframe]
    lock := by rw [hframe]
    step := by rw [hframe]
    jumped := by rw [hframe]
    tsc := by rw [hframe]
    hcpos := by rw [hframe]
    anchors := hanchors
    words := regsKept_mono hwords (by decide)
    only := Eq.trans hframe (by rw [hframe]) }

/-- The state of the first declaration before its words: HCPOS and the TSC run (R247). -/
def State.clockDeclared (s : State) (f : Nat) : State :=
  { s with clk := { s.clk with decl := f }, tb := { s.tb with run := true, jumped := false } }

/-- RATIO takes its nominal value where none was measured. -/
theorem firstDeclaration_eq (s : State) (f : Nat) : ∃ w : State, s.firstDeclaration f = w.writeAnchor ∧
    (s.clockDeclared f).regsOnly w ∧ (s.clockDeclared f).regsKept w [0x0311] := by
  by_cases hm : s.tb.measured = true
  · exact ⟨s.clockDeclared f, congrArg State.writeAnchor (if_pos hm), .refl _, regsKept_refl _ _⟩
  · exact ⟨(s.clockDeclared f).setReg 0x0311 (w16 (nominalRatio f)), congrArg State.writeAnchor (if_neg hm), regsOnly_setReg ..,
      regsKept_setReg _ 0x0311 _⟩

theorem firstDeclaration_spec (s : State) (f : Nat) : s.declares (s.firstDeclaration f) f ∧ (s.firstDeclaration f).tb.run = true := by
  obtain ⟨w, heq, honly, hwords⟩ := firstDeclaration_eq s f
  obtain ⟨r, fl, rfl⟩ : ∃ r fl, w = { s.clockDeclared f with regs := r, flagged := fl } := ⟨_, _, honly⟩
  have hkept : (s.clockDeclared f).regsKept { s.clockDeclared f with regs := r, flagged := fl } declaredWords :=
    regsKept_mono hwords (by decide)
  rw [heq]
  exact ⟨⟨rfl, rfl, rfl, rfl, rfl, rfl, (writeAnchor_spec _).2, hkept, rfl⟩, rfl⟩

/-! What goes with the first declaration: a program that the ticker timed, the Gauge and the pins (R42, R277, R376). -/

/-- `t` is `s` but for what goes with a first declaration: the clock, the time base and the start-up step stand. -/
def State.besideOnly (s t : State) : Prop :=
  t = { s with regs := t.regs, flagged := t.flagged, agenda := t.agenda, scan := t.scan,
               sh := { s.sh with jobAt := t.sh.jobAt }, free := t.free, gg := t.gg } ∧ s.regsKept t [0x2903, 0x290D]

theorem State.besideOnly.trans {s t u : State} (h : s.besideOnly t) (g : t.besideOnly u) : s.besideOnly u :=
  ⟨Eq.trans g.1 (by rw [h.1]), regsKept_trans h.2 g.2⟩

theorem besideOnly_shedToHc (s : State) : s.besideOnly s.shedToHc := by
  unfold State.shedToHc
  dsimp only
  split
  · exact ⟨rfl, regsKept_refl s _⟩
  split
  · exact ⟨rfl, regsKept_refl s _⟩
  · exact ⟨rfl, regsKept_refl s _⟩

theorem besideOnly_gen (s : State) (g : Gauge) : s.besideOnly { s with gg := g } := ⟨rfl, regsKept_refl s _⟩

theorem besideOnly_gaugePeriodOp (s : State) : s.besideOnly s.gaugePeriodOp := by
  refine ⟨rfl, fun a ha => ?_⟩
  rw [reg_gaugePeriodOp, if_neg (fun h => ha (by simp [h]))]

theorem besideOnly_gaugeEdgeOp (s : State) (g : Gauge) : s.besideOnly (State.gaugeEdgeOp { s with gg := g }) := by
  obtain ⟨hframe, -, -, hwords, -⟩ := gaugeEdgeOp_spec { s with gg := g }
  exact ⟨Eq.trans hframe (by rw [hframe]), regsKept_mono hwords (by decide)⟩

theorem besideOnly_gaugeTick (s : State) : s.besideOnly s.gaugeTick := by
  unfold State.gaugeTick
  split
  · exact besideOnly_gen s s.gg
  split
  · exact besideOnly_gen s s.gg
  split
  case isTrue =>
    split
    · exact besideOnly_gaugeEdgeOp ..
    dsimp only
    split
    · exact besideOnly_gaugeEdgeOp ..
    · exact besideOnly_gen ..
  case isFalse =>
    split
    · exact besideOnly_gaugePeriodOp s
    split
    · exact besideOnly_gen ..
    split
    · exact besideOnly_gaugePeriodOp s
    · exact besideOnly_gen ..

/-- Both deglitched levels are deasserted when sampling starts (R376). -/
theorem pinsStart_spec (s : State) : s.besideOnly s.pinsStart ∧ s.pinsStart.scan.blkEff = false ∧ s.pinsStart.scan.blkTime = 0 := by
  obtain ⟨b, v, heq⟩ := pinsFollow_frame { s with scan := { s.scan with
    blkEff := false, blkAt := none, blkTime := 0, stuckIgn := false, chatIgn := false, vsEff := wbit (s.reg 0x220D) 0, vsAt := none } }
  have hstart : s.pinsStart = _ := heq
  rw [hstart]
  exact ⟨⟨rfl, regsKept_refl s _⟩, rfl, rfl⟩

/-- What goes with a declaration leaves it in force. -/
theorem declares_of_beside {s t u : State} {f : Nat} (h : s.declares t f) (g : t.besideOnly u) : s.declares u f := by
  obtain ⟨hframe, hwords⟩ := g
  exact {
    decl := Eq.trans (by rw [hframe]) h.decl
    lock := Eq.trans (by rw [hframe]) h.lock
    step := Eq.trans (by rw [hframe]) h.step
    jumped := Eq.trans (by rw [hframe]) h.jumped
    tsc := Eq.trans (by rw [hframe]) h.tsc
    hcpos := Eq.trans (by rw [hframe]) h.hcpos
    anchors := Eq.trans (by rw [hframe]) h.anchors
    words := regsKept_trans h.words (regsKept_mono hwords (by decide))
    only := h.only.trans (Eq.trans hframe (by rw [hframe])) }

/-- The first declaration, with all that goes with it on its hc. -/
def State.clockStarted (s : State) (f : Nat) : State := (s.firstDeclaration f).shedToHc.gaugeTick.pinsStart

theorem clockStarted_spec (s : State) (f : Nat) : s.declares (s.clockStarted f) f ∧ (s.clockStarted f).tb.run = true ∧
    (s.clockStarted f).scan.blkEff = false ∧ (s.clockStarted f).scan.blkTime = 0 := by
  obtain ⟨hdecl, hrun⟩ := firstDeclaration_spec s f
  obtain ⟨hpins, heff, htime⟩ := pinsStart_spec (s.firstDeclaration f).shedToHc.gaugeTick
  have hbeside : (s.firstDeclaration f).besideOnly (s.clockStarted f) :=
    ((besideOnly_shedToHc _).trans (besideOnly_gaugeTick _)).trans hpins
  exact ⟨declares_of_beside hdecl hbeside, Eq.trans (by rw [hbeside.1]) hrun, heff, htime⟩

/-! The end of step 3 (R108, R109). -/

theorem stepCheck_frame (s : State) : s.stepCheck = { s with
    agenda := s.stepCheck.agenda, clk := { s.clk with
      stops := s.stepCheck.clk.stops, cum := s.stepCheck.clk.cum, tripped := s.stepCheck.clk.tripped }, ms := s.stepCheck.ms } := by
  unfold State.stepCheck
  split
  · rw [refStart_frame]
    rfl
  · rfl

theorem stepCheck_keeps (s : State) : s.stepCheck.tb = s.tb ∧ s.stepCheck.scan = s.scan ∧ s.stepCheck.sh = s.sh ∧
    s.stepCheck.free = s.free ∧ s.stepCheck.gg = s.gg ∧ s.stepCheck.regs = s.regs := by
  rw [stepCheck_frame]
  exact ⟨rfl, rfl, rfl, rfl, rfl, rfl⟩

/-- The check for the end of step 3 leaves what the declaration has set. -/
theorem declares_stepCheck {s t : State} {f : Nat} (h : s.declares t f) (hf : f ≠ 0) (hstep : s.ms.step = 3) :
    t.stepCheck.ms.step = (if s.clk.lock then 4 else 3) ∧ t.stepCheck.clk.decl = f ∧ s.declaredOnly t.stepCheck := by
  have hframe := stepCheck_frame t
  refine ⟨?_, (congrArg (·.clk.decl) hframe).trans h.decl, h.only.trans (Eq.trans hframe (by rw [hframe]))⟩
  rw [stepCheck_step (h.step.trans hstep), h.decl, h.lock]
  simp [hf]

theorem declare_spec {u : State} {v : Word} (hlo : 24000 ≤ v.toNat) (hhi : v.toNat ≤ 40000) (hstep : u.ms.step = 3) :
    ∃ w, u.declare_ v = w.stepCheck ∧ u.declares w v.toNat ∧
      (u.clk.decl = 0 → w.tb.run = true ∧ w.scan.blkEff = false ∧ w.scan.blkTime = 0) ∧
      (u.clk.decl ≠ 0 → w.scan = u.scan ∧ w.sh = u.sh ∧ w.free = u.free ∧ w.gg = u.gg) := by
  rw [declare_of_valid hlo hhi, if_pos hstep]
  by_cases hd : u.clk.decl = 0
  · obtain ⟨hdecl, hrest⟩ := clockStarted_spec u v.toNat
    rw [if_pos hd]
    exact ⟨_, rfl, hdecl, fun _ => hrest, fun h => absurd hd h⟩
  · obtain ⟨hframe, -, -⟩ := changeDeclaration_spec u v.toNat
    rw [if_neg hd]
    refine ⟨_, rfl, declares_changeDeclaration u v.toNat, fun h => absurd h hd, fun _ => ?_⟩
    rw [hframe]
    exact ⟨rfl, rfl, rfl, rfl⟩

/-- Settles O25: a word outside the limits is flagged, one after step 3 is staged or withdraws, and one in step 3 takes effect,
the first with the pins and what the ticker timed. -/
theorem declarationWrites : Obligations.DeclarationWrites := by
  unfold Obligations.DeclarationWrites
  rintro v s u rfl htakes
  have hexec : exec (.hclkfWrite v) s = .next (s.countHc.declare_ v) := by
    rw [← hostWrite_hclkf htakes]
    rfl
  have hbytes : s.bytesKept (s.countHc.declare_ v) := by
    rw [← hostWrite_hclkf htakes]
    exact bytesKept_trans (bytesKept_of_keeps (kept_State_countHc (.refl s))) (hostWrite_bytesKept ..)
  refine ⟨_, hexec, fun hbad => ?_, fun hlo hhi => ⟨fun hstep hv => ?_, fun hstep hv => ?_, fun hstep => ?_⟩, hbytes⟩
  · rw [declare_of_bad hbad]
    refine ⟨rfl, ?_, regsKept_setReg _ 0x0111 _⟩
    rw [reg_setReg, if_pos rfl]
  · rw [declare_of_valid hlo hhi, if_neg hstep, if_pos hv]
  · rw [declare_of_valid hlo hhi, if_neg hstep, if_neg hv]
  · obtain ⟨w, heq, hdecl, hfirst, hlater⟩ := declare_spec hlo hhi hstep
    obtain ⟨hcheck, hf, honly⟩ := declares_stepCheck hdecl (by omega) hstep
    obtain ⟨htb, hscan, hsh, hfree, hgg, hregs⟩ := stepCheck_keeps w
    rw [heq]
    refine ⟨hf, ?_, ?_, ?_, ?_, ?_, ?_, hcheck, fun a ha => (congrArg (·.get a) hregs).trans (hdecl.words a ha), honly⟩
    · exact (congrArg TimeBase.jumped htb).trans hdecl.jumped
    · exact (congrArg TimeBase.tsc htb).trans hdecl.tsc
    · exact (congrArg TimeBase.hcpos htb).trans hdecl.hcpos
    · exact (congrArg (fun b => b.anchors.length) htb).trans hdecl.anchors
    · rw [htb, hscan]
      exact hfirst
    · rw [hscan, hsh, hfree, hgg]
      exact hlater

end Machine
end Sys2Proof
end

section
/-! SUPPORT. The invariant of the machine: every command and every period of the clock keeps it (R65, R68, R239, R243). -/

namespace Sys2Proof
namespace Machine

/-! What a command keeps. -/

theorem Holds.held {s t : State} (h : Holds s t) : Held s t := ⟨h.pending, h.now, h.ft, h.fac, h.notes, h.inv⟩

theorem Keeps.held {s t : State} (h : Keeps s t) : Held s t := h.holds.held

/-- A command that acts on a condition. -/
theorem Holds.ite {c : Prop} [Decidable c] {s t : State} (h : Holds s t) : Holds s (if c then t else s) := by
  split
  · exact h
  · exact .refl s

theorem Keeps.ite {c : Prop} [Decidable c] {s t : State} (h : Keeps s t) : Keeps s (if c then t else s) :=
  kept_ite (fun _ => h) fun _ => .refl s

/-- A command that comes after the count of its hc. -/
theorem holds_countHc (s : State) : Holds s s.countHc := (kept_State_countHc (.refl s)).holds

theorem holds_registerWrite (s : State) (a v : Word) : Holds s (State.hostWrite (if a = 0x0110 then s.countHc else s) a v) :=
  Holds.trans (Holds.ite (holds_countHc s)) (holds_hostWrite _ a v)

/-- A request row, whatever its frame asks for. -/
theorem exec_of_requestOf {i : Instr} {f : Frame} (h : requestOf i = some f) (s : State) : exec i s = .next (s.request f) := by
  cases i <;> cases h <;> rfl

theorem holds_sysCmd (s : State) (c a : Nat) : Holds s (s.sysCmd c a) := holds_hostWrite ..

/-- A change of the power state alone. -/
theorem kept_pw (s : State) (p : Power) : Keeps s { s with pw := p } := ⟨rfl, rfl, rfl, rfl, rfl, rfl, rfl, rfl, rfl, id, id⟩

/-- Every command completes, and keeps the clock, the queue, the factory area, the limit on notices and the invariant. -/
theorem exec_held (i : Instr) (s : State) : ∃ t, exec i s = .next t ∧ Held s t := by
  have k := Keeps.refl s
  have kc := kept_State_countHc k
  cases i with
  | read f | write f | writea f | grant f | credit f | resend f | tsync f | rebase f | dbgctlStatus f | dbgctlHalt f | dbgctlRun f
  | dbgctlStep f | dbgrd f | dbgwr f | abort f => exact ⟨_, rfl, (holds_request s f).held⟩
  | syncerr w => exact ⟨_, rfl, (kept_State_setFlag k).ite.held⟩
  | responseReady => exact ⟨_, rfl, (holds_responseReadyOp s).held⟩
  | attnReassert => exact ⟨_, rfl, (kept_State_attnUpdate k).ite.held⟩
  | postedWordApply => exact ⟨_, rfl, (holds_postedApply s).held⟩
  | registerWrite a v => exact ⟨_, rfl, (holds_registerWrite s a v).held⟩
  | wideValueCommit a v => exact ⟨_, rfl, (holds_hostWrite s a v).ite.held⟩
  | wideValueLatchRead a => exact ⟨_, rfl, (kept_State_hostRead k).ite.held⟩
  | wideValueHighRead a => exact ⟨_, rfl, (kept_State_hostRead k).ite.held⟩
  | rcRead a => exact ⟨_, rfl, (kept_State_hostRead k).held⟩
  | iset | lock | save | forget | toneCommit | toneSnap | sieveRsync | laneBlankWrite | igo | timerSync | queueSnap | queueReplay =>
    exact ⟨_, rfl, (holds_hostWrite s _ _).held⟩
  | goActive | goWatch | goDormant | goService | reset | selfcal | calzero | calpoint | calsolve | caltrace | caltick | opentest
  | faillane => exact ⟨_, rfl, (holds_sysCmd s _ _).held⟩
  | hclkfWrite | gaugeEnable => exact ⟨_, rfl, (kc.holds.trans (holds_hostWrite _ _ _)).held⟩
  | hclkStop b => exact ⟨_, rfl, (kept_State_stopOp k).held⟩
  | absenceTimerTrip => exact ⟨_, rfl, (kept_State_tripOp k).held⟩
  | hclkResume => exact ⟨_, rfl, (kept_State_resumeOp k).held⟩
  | jump => exact ⟨_, rfl, (kept_State_jumpOp k).held⟩
  | delayLineLock c => exact ⟨_, rfl, (kept_State_delayLock k).held⟩
  | hclkMeasurement n => exact ⟨_, rfl, (kept_State_measureOp k).held⟩
  | vphQualified | foldbackOpenEnd | thermalRelease | railRestored => exact ⟨_, rfl, (kept_State_phaseStep k).held⟩
  | softStartDone | resetCircuitCyclesDone => exact ⟨_, rfl, (kept_State_beginStep2 k).ite.held⟩
  | ilim => exact ⟨_, rfl, (kept_State_wireFlag k).ite.held⟩
  | foldback | regbo | wdog => exact ⟨_, rfl, (holds_hardReset s _ _ _).ite.held⟩
  | por => exact ⟨_, rfl, (holds_hardReset s _ _ _).held⟩
  | vphLow => exact ⟨_, rfl, (kept_ite (fun _ => k) fun _ => kept_State_wireFlag (kept_pw s _)).held⟩
  | vphLowClear | thermalWarnClear | limiterReleased => exact ⟨_, rfl, (kept_pw s _).held⟩
  | limiterEngaged => exact ⟨_, rfl, (kept_pw s _).ite.held⟩
  | vphHigh => exact ⟨_, rfl, (kept_State_wireFlag k).held⟩
  | esdHit => exact ⟨_, rfl, (kept_State_addSat8 (kept_State_setFlag k)).ite.held⟩
  | thermal => exact ⟨_, rfl, (holds_thermalOp s).held⟩
  | thermalDeferralExpiry => exact ⟨_, rfl, (holds_deferredShutdown s).held⟩
  | writeAbort150c =>
    refine ⟨_, rfl, Holds.held ?_⟩
    split
    · exact .refl s
    · exact holds_hardReset s _ _ _
  | thwarn => exact ⟨_, rfl, (kept_State_setFlagIf (kept_pw s _)).held⟩
  | shedBankSelection => exact ⟨_, rfl, (kept_State_selectionOp k).held⟩
  | shedPageProgramDone => exact ⟨_, rfl, pageDone_spec s⟩
  | shedSaveReadbackDone => exact ⟨_, rfl, (kept_State_shedCheck k).ite.held⟩
  | refRdy => exact ⟨_, rfl, (kept_State_refSettled k).ite.held⟩
  | reffail => exact ⟨_, rfl, (kept_State_refFallback k).ite.held⟩
  | refout => exact ⟨_, rfl, (kept_State_refLeaves k).held⟩
  | refxEntersWindow => exact ⟨_, rfl, (kept_State_refEnters k).held⟩
  | automode => exact ⟨_, rfl, Keeps.held (Keeps.ite ⟨rfl, rfl, rfl, rfl, rfl, rfl, rfl, rfl, rfl, id, id⟩)⟩
  | frameBoundary m => exact ⟨_, rfl, (kept_State_boundaryOp kc).held⟩
  | dormantModeSet => exact ⟨_, rfl, (kept_State_dormantSet k).ite.held⟩
  | hostWakeRequest => exact ⟨_, rfl, (kept_State_hostWake k).held⟩
  | dormantExitStart => exact ⟨_, rfl, (kept_State_exitStart k).held⟩
  | epochReport => exact ⟨_, rfl, (kept_State_epochReportOp k).ite.held⟩
  | slotEnd d => exact ⟨_, rfl, (kept_State_slotEndOp k).held⟩
  | recordsReady => exact ⟨_, rfl, (kept_State_recordsDue k).held⟩
  | ntrip => exact ⟨_, rfl, (kept_State_tripNow k).ite.held⟩
  | waterMapUpdate => exact ⟨_, rfl, (kept_State_waterUpdate k).held⟩
  | outputReady => exact ⟨_, rfl, (kept_State_outputsReady k).held⟩
  | trellisOutput => exact ⟨_, rfl, (kept_State_trellisNext k).held⟩
  | stuck id => exact ⟨_, rfl, (kept_State_stuckOpen k).held⟩
  | ovld ds => exact ⟨_, rfl, (kept_State_overload k).held⟩
  | blankAssert | blankDeassert => exact ⟨_, rfl, (kept_State_blankCome k).held⟩
  | pauseEnd => exact ⟨_, rfl, (kept_State_tailEnd k).held⟩
  | blanked => exact ⟨_, rfl, (kept_State_blankedOp k).held⟩
  | blankChatter => exact ⟨_, rfl, (kept_State_chatterOp k).held⟩
  | blankStuck => exact ⟨_, rfl, (kept_State_stuckOp k).held⟩
  | vsyncEdge =>
    refine ⟨_, rfl, Keeps.held ?_⟩
    split
    · exact kept_ite (fun _ => kept_State_vsyncOp (kept_State_countHc (kept_State_vsTake k))) fun _ => kept_State_vsTake k
    · exact kept_State_vsyncPin k
  | vlost => exact ⟨_, rfl, (kept_ite (fun _ => k) fun _ => kept_State_vsyncLost k).held⟩
  | svcoefDataAccess w | ucdataAccess w =>
    cases w with
    | some v => exact ⟨_, rfl, (holds_hostWrite s _ v).held⟩
    | none => exact ⟨_, rfl, (kept_State_hostRead k).held⟩
  | injectedSequenceTrigger a b => exact ⟨_, rfl, (kept_State_injTrigger k).held⟩
  | injectedSequenceEnd => exact ⟨_, rfl, (kept_State_injDone k).held⟩
  | exitRampEnd => exact ⟨_, rfl, (kept_State_injRampEnd k).held⟩
  | scarecrowCycle l => exact ⟨_, rfl, (kept_State_cycleOp k).held⟩
  | timerModeChange | timerArm | timerSwcap => exact ⟨_, rfl, (holds_hostWrite s _ _).ite.held⟩
  | timerWrap t => exact ⟨_, rfl, (kept_State_wrapOp k).held⟩
  | timerCapture t => exact ⟨_, rfl, (kept_State_captureOp k).held⟩
  | timerMeasureStart t => exact ⟨_, rfl, (kept_State_measureStart kc).held⟩
  | timerMeasureStop t => exact ⟨_, rfl, (kept_State_measureStop kc).held⟩
  | gaugePeriod => exact ⟨_, rfl, (kept_State_gaugePeriodOp k).ite.held⟩
  | gaugeFreqEdge => exact ⟨_, rfl, (kept_State_gaugeEdgeOp k).ite.held⟩
  | slewEnd => exact ⟨_, rfl, (kept_State_writeAnchor k).ite.held⟩
  | hiddDataRead => exact ⟨_, rfl, (kept_State_hostRead k).held⟩
  | qualificationRestart => exact ⟨_, rfl, k.held⟩
  | firstHclkEdge => exact ⟨_, rfl, (kept_State_firstEdge k).held⟩

theorem held_of_exec {i : Instr} {s t : State} (h : exec i s = .next t) : Held s t := by
  obtain ⟨u, hu, held⟩ := exec_held i s
  obtain rfl : u = t := Host.Outcome.next.inj (hu.symm.trans h)
  exact held

/-! What a period of the clock keeps. -/

theorem inv_nextHc {s : State} (h : s.Inv) : s.nextHc.Inv := by
  have hover : s.slotOver.Inv := (kept_State_slotOver (.refl s)).inv h
  have hnow : State.Inv { s.slotOver with now := s.slotOver.now + 1, tb := { s.slotOver.tb with counted := false }, flagged := [] } := hover
  have hpins := (kept_State_tickVsync (kept_State_tickPin (kept_State_trackLine (kept_State_tickRamp
    (kept_State_attnSet (low := s.slotOver.attnWanted (s.slotOver.now + 1)) (.refl _)))))).inv hnow
  unfold State.nextHc State.tickReset
  dsimp only
  split
  · split
    · exact (holds_hardReset _ _ _ _).inv hpins
    · exact hpins
  · exact hpins

theorem inv_hcTick {s : State} (h : s.Inv) : s.hcTick.Inv :=
  inv_nextHc ((kept_State_spillEdge (kept_State_tickLatch (kept_State_tickBlank (kept_State_tickSlot (.refl s))))).inv h)

theorem inv_ftCount {s : State} (h : s.Inv) : s.ftCount.Inv := by
  unfold State.ftCount
  dsimp only
  split <;> exact h

theorem inv_ftTick {s : State} (h : s.Inv) : s.ftTick.Inv :=
  (kept_State_ftExit (kept_State_ftLook (.refl s.ftCount))).inv (inv_ftCount h)

theorem inv_clock {s : State} (h : s.Inv) : s.clock.Inv := by
  have hdue (late : Bool) : (s.takeDue late).Inv := h
  unfold State.clock
  split
  · split
    · exact (holds_countHc s).inv h
    split
    · exact hdue false
    split
    · exact (holds_turnTick s).inv h
    split
    · exact (kept_State_snapshot (.refl s)).inv h
    split
    · exact hdue true
    split
    · exact h
    · exact inv_hcTick h
  · split
    · exact h
    · exact inv_ftTick h

/-- Settles O58: nothing is stored, posted, noted, credited or queued. -/
theorem resetKeepsForm : Obligations.ResetKeepsForm := by
  unfold Obligations.ResetKeepsForm State.Inv
  decide

/-- Settles O59: a command keeps the invariant (`exec_held`), and so does a period of the clock. -/
theorem stepKeepsInvariant : Obligations.StepKeepsInvariant := by
  intro s t hstep hinv
  unfold step at hstep
  split at hstep
  · next i rest hp =>
    have hrest : State.Inv { s with pending := rest } := hinv
    exact (held_of_exec hstep).inv hrest
  · obtain rfl : s.clock = t := Host.Outcome.next.inj hstep
    exact inv_clock hinv

/-- Settles O1: `step` is the match on the queue. -/
theorem stepRunsFront : Obligations.StepRunsFront := by
  refine ⟨fun c rest s => rfl, fun s hp => ?_⟩
  unfold step
  rw [hp]

end Machine
end Sys2Proof
end

section
/-! SUPPORT. Requests that draw no answer of their own: a bad CRC, NAK and BUSY, the limit on notices, and RESEND (R62 to R70). -/

namespace Sys2Proof
namespace Machine

/-! A notice (R67, R68). -/

/-- A notice that finds a place: its flag, and itself behind the responses that wait. -/
theorem notice_spec {s : State} (rcode : Nat) (f : Frame) (h1 : Word) (flag : Nat) (h : s.notices < 8) :
    s.notice rcode f.tag h1 flag = { s with
        regs := (s.notice rcode f.tag h1 flag).regs, flagged := (s.notice rcode f.tag h1 flag).flagged,
        link := (s.notice rcode f.tag h1 flag).link, agenda := (s.notice rcode f.tag h1 flag).agenda } ∧
      (s.notice rcode f.tag h1 flag).link = { s.link with resp := s.link.resp ++ [noticeOf f rcode h1 (s.now + 15)] } ∧
      ∀ a, (s.notice rcode f.tag h1 flag).reg a = if a = 0x0103 then s.reg a ||| w16 (2 ^ flag) else s.reg a := by
  have hn : s.notice rcode f.tag h1 flag = (s.setFlag 0x01 flag).addReady
      { kind := .notice, tag := f.tag, rcode := rcode, resent := false, h1 := h1, payload := [], read := none, after := 0,
        ready := none, shown := false } (s.now + 15) := if_neg (by omega)
  rw [hn]
  exact ⟨rfl, rfl, fun a => reg_setFlag s 0x01 flag a⟩

/-- A ninth notice is dropped (R68). -/
theorem notice_of_full {s : State} (rcode tag : Nat) (h1 : Word) (flag : Nat) (h : s.notices = 8) :
    s.notice rcode tag h1 flag = s.setFlag 0x01 4 := if_pos (by omega)

/-! What becomes of a frame, by its CRC, its tag and its checks (R63, R64, R69). -/

theorem request_of_crc_error {s : State} {f : Frame} (hh : s.heard f = true) (hc : f.crcOk = false) :
    s.request f = (s.setFlag 0x01 0).addSat 0x0108 1 := by
  simp [State.request, hh, hc]

theorem request_of_reserved {s : State} {f : Frame} (hh : s.heard f = true) (hc : f.crcOk = true) (ho : opOf f.op = none) :
    s.request f = s.firstRequest.nak f 1 := by
  simp [State.request, hh, hc, ho]

theorem request_of_opcode {s : State} {f : Frame} {op : Op} (hh : s.heard f = true) (hc : f.crcOk = true) (ho : opOf f.op = some op) :
    s.request f = s.firstRequest.checked op f (fun s => s.act op f) := by
  simp [State.request, hh, hc, ho]

theorem tagTaken_of_opcode {s : State} {f : Frame} {op : Op} (ho : opOf f.op = some op) :
    s.tagTaken f = s.firstRequest.tagBusy op f := by
  rw [State.tagTaken, ho]
  rfl

theorem nakFor_of_opcode {s : State} {f : Frame} {op : Op} (ho : opOf f.op = some op) : s.nakFor f =
    nakReason op f (decide (s.firstRequest.ms.mode = Mode.service)) s.firstRequest.ms.halted := by
  rw [State.nakFor, ho]
  rfl

theorem request_of_tagTaken {s : State} {f : Frame} (hh : s.heard f = true) (hc : f.crcOk = true) (ht : s.tagTaken f = true) :
    s.request f = s.firstRequest.busy f := by
  cases ho : opOf f.op with
  | none =>
    rw [State.tagTaken, ho] at ht
    cases ht
  | some op => rw [request_of_opcode hh hc ho, State.checked, if_pos (tagTaken_of_opcode ho ▸ ht)]

theorem request_of_nak {s : State} {f : Frame} {r : Nat} (hh : s.heard f = true) (hc : f.crcOk = true) (ht : s.tagTaken f = false)
    (hr : s.nakFor f = some r) : s.request f = s.firstRequest.nak f r := by
  cases ho : opOf f.op with
  | none =>
    rw [State.nakFor, ho] at hr
    obtain rfl : 1 = r := Option.some.inj hr
    exact request_of_reserved hh hc ho
  | some op =>
    rw [tagTaken_of_opcode ho] at ht
    rw [nakFor_of_opcode ho] at hr
    simp [request_of_opcode hh hc ho, State.checked, ht, hr]

/-- A request that passes every check acts on the state it is admitted to, where its words find room (R65, R70). -/
theorem request_of_accepted {s : State} {op : Op} {f : Frame} (h : s.accepts op f) :
    s.request f = if s.noRoom op f then s.firstRequest.busy f else (s.admitted op f).act op f := by
  obtain ⟨hheard, hcrc, hop, hfree, hchecks⟩ := h
  rw [tagTaken_of_opcode hop] at hfree
  rw [nakFor_of_opcode hop] at hchecks
  have hroom : s.firstRequest.noRoom op f = s.noRoom op f := rfl
  simp [request_of_opcode hheard hcrc hop, State.checked, State.admitted, hfree, hchecks, hroom]

/-- Only a WRITE needs room. -/
theorem request_of_accepted_no_words {s : State} {op : Op} {f : Frame} (h : s.accepts op f) (hw : op ≠ .write) (ha : op ≠ .writea) :
    s.request f = (s.admitted op f).act op f := by
  rw [request_of_accepted h, if_neg]
  simp [State.noRoom, hw, ha]

/-! BUSY and NAK. -/

theorem busy_spec {s : State} (f : Frame) (h : s.notices < 8) :
    s.busy f = { s with regs := (s.busy f).regs, flagged := (s.busy f).flagged, link := (s.busy f).link, agenda := (s.busy f).agenda } ∧
      (s.busy f).link = { s.link with resp := s.link.resp ++ [noticeOf f 3 f.h0 (s.now + 15)] } ∧
      ∀ a, (s.busy f).reg a = if a = 0x0103 then s.reg a ||| 8 else s.reg a :=
  notice_spec 3 f f.h0 3 h

theorem nak_spec {s : State} (f : Frame) (r : Nat) (h : s.notices < 8) :
    s.nak f r = { s with regs := (s.nak f r).regs, flagged := (s.nak f r).flagged, link := (s.nak f r).link, agenda := (s.nak f r).agenda } ∧
      (s.nak f r).link = { s.link with resp := s.link.resp ++ [noticeOf f 4 (w16 (256 * r + fld f.h0 15 8)) (s.now + 15)] } ∧
      ∀ a, (s.nak f r).reg a = if a = 0x0103 then s.reg a ||| 4
        else if a = 0x010B then w16 (r + 256 * f.op + 4096 * f.tag) else s.reg a := by
  obtain ⟨hframe, hlink, hreg⟩ :=
    notice_spec (s := s.setReg 0x010B (w16 (r + 256 * f.op + 4096 * f.tag))) 4 f (w16 (256 * r + fld f.h0 15 8)) 2 h
  refine ⟨hframe, hlink, fun a => (hreg a).trans ?_⟩
  rw [reg_setReg]
  by_cases h3 : a = 0x0103
  · subst h3
    rfl
  · rw [if_neg h3, if_neg h3]

/-- Settles O2: the frame is discarded, and CRCERR and CRCCNT are its only traces. -/
theorem crcErrorDiscarded : Obligations.CrcErrorDiscarded := by
  intro i f s hi hh hc
  have hexec : exec i s = .next ((s.setFlag 0x01 0).addSat 0x0108 1) := by
    rw [exec_of_requestOf hi, request_of_crc_error hh hc]
  refine ⟨_, hexec, rfl, ?_, ?_, fun a ha => ?_, fun _ => rfl, fun _ => rfl⟩
  · rw [reg_addSat, if_neg (by decide), reg_setFlag, if_pos rfl]
    rfl
  · rw [reg_addSat, if_pos rfl, reg_setFlag, if_neg (by decide), sat16_eq_min, toNat_w16_sat]
  · simp only [List.mem_cons, List.not_mem_nil, or_false, not_or] at ha
    rw [reg_addSat, if_neg ha.2, reg_setFlag, if_neg ha.1]

/-- Settles O3: a NAK is all that a failed check leaves. -/
theorem failedCheckAnsweredNak : Obligations.FailedCheckAnsweredNak := by
  intro i f s r hi hh hc ht hr hn
  have hexec : exec i s = .next (s.firstRequest.nak f r) := by rw [exec_of_requestOf hi, request_of_nak hh hc ht hr]
  obtain ⟨hframe, hlink, hreg⟩ := nak_spec (s := s.firstRequest) f r hn
  refine ⟨_, hexec, hframe, hlink, (hreg _).trans rfl, (hreg _).trans rfl, fun a ha => ?_, ?_⟩
  · simp only [List.mem_cons, List.not_mem_nil, or_false, not_or] at ha
    rw [hreg, if_neg ha.1, if_neg ha.2]
    rfl
  · rw [hframe]
    exact ⟨fun _ => rfl, fun _ => rfl⟩

/-- Settles O5: a BUSY is all that a request on a taken tag leaves. -/
theorem outstandingTagAnsweredBusy : Obligations.OutstandingTagAnsweredBusy := by
  intro i f s hi hh hc ht hn
  have hexec : exec i s = .next (s.firstRequest.busy f) := by rw [exec_of_requestOf hi, request_of_tagTaken hh hc ht]
  obtain ⟨hframe, hlink, hreg⟩ := busy_spec (s := s.firstRequest) f hn
  refine ⟨_, hexec, hframe, hlink, (hreg _).trans rfl, fun a ha => ?_, ?_⟩
  · rw [hreg, if_neg (by simpa using ha)]
    rfl
  · rw [hframe]
    exact ⟨fun _ => rfl, fun _ => rfl⟩

/-! RESEND (R70). -/

/-- The response that carries a retained copy again. -/
def copyAnswer (f : Frame) (d : DevFrame) : Resp :=
  { kind := .copy, tag := f.tag, rcode := fld d.h0 15 12, resent := true, h1 := d.h1, payload := d.payload, read := none, after := 0,
    ready := none, shown := false }

theorem resendOp_of_copy {s : State} {f : Frame} {d : DevFrame} (ht : s.outTags.contains f.tag = false)
    (hd : getKey f.tag s.link.retained = some d) : s.resendOp f = s.addReady (copyAnswer f d) (s.now + 15) := by
  rw [State.resendOp, ht, hd]
  rfl

theorem resendOp_of_none {s : State} {f : Frame} (h : s.outTags.contains f.tag = true ∨ getKey f.tag s.link.retained = none) :
    s.resendOp f = s.nak f 5 := by
  unfold State.resendOp
  split
  · rfl
  · next ht => rw [h.resolve_left ht]

theorem request_of_resend {s : State} {f : Frame} (h : s.accepts .resend f) : s.request f = s.firstRequest.resendOp f :=
  request_of_accepted_no_words h nofun nofun

/-- Settles O9: a copy goes out again; without one the answer is NAK NOCOPY. -/
theorem resendAnswers : Obligations.ResendAnswers := by
  intro f s h
  have hexec : exec (.resend f) s = .next (s.firstRequest.resendOp f) := congrArg Host.Outcome.next (request_of_resend h)
  refine ⟨fun d ht hd => ?_, fun hnone hn => ?_⟩
  · have hcopy := resendOp_of_copy (s := s.firstRequest) ht hd
    exact ⟨_, _, hexec.trans (congrArg _ hcopy), rfl, rfl, rfl, rfl, rfl, rfl, rfl, rfl, fun _ => rfl, fun _ => rfl⟩
  · have hnak := resendOp_of_none (s := s.firstRequest) hnone
    exact ⟨_, hexec.trans (congrArg _ hnak), (nak_spec (s := s.firstRequest) f 5 hn).2.1⟩

/-! The limit on notices (R68). -/

theorem nak_of_full {s : State} (f : Frame) (r : Nat) (h : s.notices = 8) :
    (s.nak f r).link = s.link ∧ ((s.nak f r).reg 0x0103).getLsbD 4 = true := by
  have hn : s.nak f r = (s.setReg 0x010B (w16 (r + 256 * f.op + 4096 * f.tag))).setFlag 0x01 4 := notice_of_full _ _ _ _ h
  rw [hn, reg_setFlag, if_pos rfl, BitVec.getLsbD_or]
  exact ⟨rfl, Bool.or_eq_true_iff.2 (.inr rfl)⟩

theorem busy_of_full {s : State} (f : Frame) (h : s.notices = 8) :
    (s.busy f).link = s.link ∧ ((s.busy f).reg 0x0103).getLsbD 4 = true := by
  have hn : s.busy f = s.setFlag 0x01 4 := notice_of_full _ _ _ _ h
  rw [hn, reg_setFlag, if_pos rfl, BitVec.getLsbD_or]
  exact ⟨rfl, Bool.or_eq_true_iff.2 (.inr rfl)⟩

/-- A request that draws a notice draws BUSY or NAK. -/
theorem request_of_drawsNotice {s : State} {f : Frame} (h : s.drawsNotice f) :
    s.request f = s.firstRequest.busy f ∨ ∃ r, s.request f = s.firstRequest.nak f r := by
  obtain ⟨hh, hc, h⟩ := h
  cases ht : s.tagTaken f with
  | true => exact .inl (request_of_tagTaken hh hc ht)
  | false =>
    rcases h with h | h | ⟨h, hroom⟩ | ⟨h, hnone⟩
    · rw [ht] at h
      cases h
    · obtain ⟨r, hr⟩ := Option.isSome_iff_exists.1 h
      exact .inr ⟨r, request_of_nak hh hc ht hr⟩
    · rcases h with h | h <;> exact .inl ((request_of_accepted h).trans (if_pos (by simp [State.noRoom, hroom])))
    · exact .inr ⟨5, (request_of_resend h).trans (resendOp_of_none (s := s.firstRequest) hnone)⟩

/-- Settles O4: every command keeps the limit (`exec_held`), and a notice drawn at the limit is dropped. -/
theorem noticesLimited : Obligations.NoticesLimited := by
  refine ⟨fun i s t hs h => (held_of_exec h).notes hs, fun i f s hi hd hn => ?_⟩
  refine ⟨_, exec_of_requestOf hi s, ?_⟩
  rcases request_of_drawsNotice hd with h | ⟨r, h⟩
  · obtain ⟨hlink, hflag⟩ := busy_of_full (s := s.firstRequest) f hn
    rw [h, hlink]
    exact ⟨rfl, hflag⟩
  · obtain ⟨hlink, hflag⟩ := nak_of_full (s := s.firstRequest) f r hn
    rw [h, hlink]
    exact ⟨rfl, hflag⟩

end Machine
end Sys2Proof
end

section
/-! SUPPORT. READ, WRITE and WRITEA: the words a READ returns, the posted-write buffer, and its head word (R61, R65 to R67). -/

namespace Sys2Proof
namespace Machine

/-! What a read of words leaves (R4, R94, R199). -/

/-- `t` is `s` but for register words, flags, the link, the coefficient window and the timers. -/
def State.readOnly (s t : State) : Prop :=
  t = { s with regs := t.regs, flagged := t.flagged, link := t.link, sv := t.sv, tm := t.tm }

theorem State.readOnly.refl (s : State) : s.readOnly s := rfl

theorem State.readOnly.trans {s t u : State} (h : s.readOnly t) (g : t.readOnly u) : s.readOnly u := Eq.trans g (by rw [h])

theorem State.readOnly.keeps {s t : State} (h : s.readOnly t) :
    t.now = s.now ∧ t.rq = s.rq ∧ t.scan = s.scan ∧ t.ms = s.ms ∧ t.sh = s.sh ∧ t.core = s.core := by
  rw [State.readOnly] at h
  rw [h]
  exact ⟨rfl, rfl, rfl, rfl, rfl, rfl⟩

/-- The words a read changes beside those it reads: the windows' pointers and the flag of a discarded coefficient pair. -/
def readWindows : List Nat := [0x2303, 0x2308, 0x2518, 0x2F08]

theorem readOnly_latch (s : State) (b n : Nat) : s.readOnly (s.latch b n) ∧ ∀ a, (s.latch b n).reg a = s.reg a := by
  unfold State.latch
  dsimp only
  split <;> exact ⟨rfl, fun _ => rfl⟩

theorem readOnly_readHigher (s : State) (a b n : Nat) :
    s.readOnly (s.readHigher a b n).2 ∧ ∀ c, (s.readHigher a b n).2.reg c = s.reg c := by
  unfold State.readHigher
  split
  · dsimp only
    split <;> exact ⟨rfl, fun _ => rfl⟩
  · exact ⟨rfl, fun _ => rfl⟩

theorem readOnly_coefRead (s : State) : s.readOnly s.coefRead.2 ∧ s.regsKept s.coefRead.2 readWindows := by
  unfold State.coefRead
  dsimp only
  split
  · exact ⟨rfl, fun _ _ => rfl⟩
  · exact ⟨rfl, regsKept_mono (regsKept_setReg { s with sv := _ } _ _) (by decide)⟩
  · exact ⟨rfl, regsKept_mono (regsKept_setFlag { s with sv := _ } _ _) (by decide)⟩

theorem readOnly_readEffect (s : State) (a : Nat) :
    s.readOnly (s.readEffect a) ∧ s.regsKept (s.readEffect a) (a :: readWindows) := by
  have hset (b : Nat) (v : Word) (h : b ∈ a :: readWindows) : s.readOnly (s.setReg b v) ∧ s.regsKept (s.setReg b v) (a :: readWindows) :=
    ⟨rfl, regsKept_mono (regsKept_setReg s b v) (by simpa using h)⟩
  have hself : s.readOnly s ∧ s.regsKept s (a :: readWindows) := ⟨rfl, regsKept_refl s _⟩
  unfold State.readEffect
  split
  · exact hset a 0 (by simp)
  split
  · exact hset 0x2518 _ (by simp [readWindows])
  · exact hset 0x2F08 _ (by simp [readWindows])
  split
  · split
    · exact hset a 0 (by simp)
    · exact hself
  · exact hself

theorem readOnly_readWord (s : State) (a : Nat) :
    s.readOnly (s.readWord a).2 ∧ s.regsKept (s.readWord a).2 (a :: readWindows) := by
  unfold State.readWord
  split
  · next b n _ _ =>
    split
    · exact ⟨(readOnly_latch s b n).1, fun c _ => (readOnly_latch s b n).2 c⟩
    · exact ⟨(readOnly_readHigher s a b n).1, fun c _ => (readOnly_readHigher s a b n).2 c⟩
  · split
    · exact ⟨(readOnly_coefRead s).1, regsKept_mono (readOnly_coefRead s).2 (List.subset_cons_self ..)⟩
    · exact readOnly_readEffect s a

theorem readWords_cons (s : State) (a : Nat) (l : List Nat) : s.readWords (a :: l) =
    ((s.readWord a).1 :: ((s.readWord a).2.readWords l).1, ((s.readWord a).2.readWords l).2) := rfl

theorem readWords_length (l : List Nat) : ∀ s : State, (s.readWords l).1.length = l.length := by
  induction l with
  | nil => exact fun _ => rfl
  | cons a l ih => exact fun s => by rw [readWords_cons, List.length_cons, ih, List.length_cons]

theorem readOnly_readWords (l : List Nat) : ∀ s : State,
    s.readOnly (s.readWords l).2 ∧ s.regsKept (s.readWords l).2 (l ++ readWindows) := by
  induction l with
  | nil => exact fun s => ⟨rfl, regsKept_refl s _⟩
  | cons a l ih =>
    intro s
    obtain ⟨hword, hwordRegs⟩ := readOnly_readWord s a
    obtain ⟨hrest, hrestRegs⟩ := ih (s.readWord a).2
    rw [readWords_cons]
    refine ⟨hword.trans hrest, regsKept_trans (regsKept_mono hwordRegs ?_) (regsKept_mono hrestRegs (List.subset_cons_self ..))⟩
    exact List.cons_subset_cons _ (List.subset_append_right ..)

/-! READ (R67). -/

theorem readOp_of_empty {s : State} (f : Frame) (h : s.link.wbuf = []) : s.readOp f =
    (s.readWords (spanAddrs f.h1 f.count f.inc)).2.answer 1 f.tag f.h1 (s.readWords (spanAddrs f.h1 f.count f.inc)).1
      (16 + 2 * f.count) := by
  rw [State.readOp, h]
  rfl

/-- A READ that waits for the posted words before it. -/
def waitingRead (f : Frame) (n : Nat) : Resp :=
  { kind := .answer, tag := f.tag, rcode := 1, resent := false, h1 := f.h1, payload := [],
    read := some { addr := f.h1, count := f.count, inc := f.inc }, after := n, ready := none, shown := false }

theorem readOp_of_posted {s : State} (f : Frame) (h : s.link.wbuf ≠ []) :
    s.readOp f = { s with link := { s.link with resp := s.link.resp ++ [waitingRead f s.link.wbuf.length] } } :=
  if_neg (by simpa using h)

theorem spanAddrs_length (a : Word) (n : Nat) (inc : Bool) : (spanAddrs a n inc).length = n := by simp [spanAddrs]

theorem exec_read {s : State} {f : Frame} (h : s.accepts .read f) : exec (.read f) s = .next ((s.admitted .read f).readOp f) :=
  congrArg Host.Outcome.next (request_of_accepted_no_words h nofun nofun)

theorem readOp_spec {s : State} (f : Frame) (h : s.link.wbuf = []) :
    (s.readWords (spanAddrs f.h1 f.count f.inc)).1.length = f.count ∧
      (s.readOp f).link.resp = s.link.resp ++
        [answerOf f 1 f.h1 (s.readWords (spanAddrs f.h1 f.count f.inc)).1 (s.now + 15 + 2 * f.count)] ∧
      s.regsKept (s.readOp f) (spanAddrs f.h1 f.count f.inc ++ readWindows) ∧ (s.readOp f).rq = s.rq ∧ (s.readOp f).scan = s.scan ∧
      (s.readOp f).ms = s.ms ∧ (s.readOp f).sh = s.sh ∧ s.bytesKept (s.readOp f) := by
  have hresp := (kept_State_readWords (l := spanAddrs f.h1 f.count f.inc) (.refl s)).resp
  obtain ⟨hframe, hregs⟩ := readOnly_readWords (spanAddrs f.h1 f.count f.inc) s
  obtain ⟨hnow, hrq, hscan, hms, hsh, hcore⟩ := hframe.keeps
  have hready : s.now + (16 + 2 * f.count) - 1 = s.now + 15 + 2 * f.count := by omega
  refine ⟨by rw [readWords_length, spanAddrs_length], ?_, ?_⟩
  all_goals rw [readOp_of_empty f h]
  · rw [← hresp, ← hready, ← hnow]
    rfl
  · exact ⟨hregs, hrq, hscan, hms, hsh, fun _ => congrArg (fun x : Shed => memGet x.mem _) hsh, fun _ => congrArg (coreGet · _) hcore⟩

/-- Settles O6: the words are read at once where none is posted before them; else the request waits with its place in the buffer. -/
theorem readAnswered : Obligations.ReadAnswered := by
  intro f s h
  refine ⟨fun hw => ?_, fun hw => ?_⟩
  · obtain ⟨hlen, hresp, hregs, hrq, hscan, hms, hsh, hbytes⟩ := readOp_spec (s := s.admitted .read f) f hw
    exact ⟨_, _, exec_read h, rfl, hlen, hresp, hregs, hrq, hscan, hms, hsh, hbytes⟩
  · have hexec := (exec_read h).trans (congrArg _ (readOp_of_posted (s := s.admitted .read f) f hw))
    exact ⟨_, waitingRead f s.link.wbuf.length, hexec, rfl, rfl, rfl, rfl, rfl, rfl, rfl⟩

/-! WRITE and WRITEA (R65, R66). -/

/-- The words of a write enter the buffer in order, each with its address. -/
theorem postedOf_words (addr : Word) (inc : Bool) (ws : List Word) : (postedOf addr inc ws).map (fun p => (p.addr, p.value)) =
    (List.range ws.length).map (fun k => (w16 (if inc then addr.toNat + k else addr.toNat), ws.getD k 0)) := by
  apply List.ext_getElem
  · simp [postedOf]
  · intro k hk hk'
    have hlt : k < ws.length := by simpa using hk'
    simp only [postedOf, List.getElem_map, List.getElem_zipIdx, List.getElem_range, List.getD_eq_getElem _ _ hlt, Nat.zero_add]
    split <;> rfl

theorem postWords_spec (s : State) (ps : List Posted) (n : Nat) :
    s.postWords ps n = { s with link := (s.postWords ps n).link, agenda := (s.postWords ps n).agenda } ∧
      (s.postWords ps n).link = { s.link with wbuf := s.link.wbuf ++ ps, applyAt := (s.postWords ps n).link.applyAt } ∧
      (s.link.wbuf = [] → (s.postWords ps n).link.applyAt = s.now + n ∧ (s.now + n, Instr.postedWordApply) ∈ (s.postWords ps n).agenda) ∧
      (s.link.wbuf ≠ [] → (s.postWords ps n).link.applyAt = s.link.applyAt ∧ (s.postWords ps n).agenda = s.agenda) := by
  unfold State.postWords
  split
  · next h =>
    have hnil : s.link.wbuf = [] := by simpa using h
    exact ⟨rfl, by rw [hnil]; rfl, fun _ => ⟨rfl, by simp [State.after]⟩, fun hne => absurd hnil hne⟩
  · next h =>
    have hne : s.link.wbuf ≠ [] := by simpa using h
    exact ⟨rfl, rfl, fun hnil => absurd hnil hne, fun _ => ⟨rfl, rfl⟩⟩

/-- The ACK that waits for the last word of a WRITEA. -/
def waitingAck (f : Frame) (n : Nat) : Resp :=
  { kind := .answer, tag := f.tag, rcode := 2, resent := false, h1 := 3, payload := [], read := none, after := n, ready := none,
    shown := false }

theorem writeaOp_eq (s : State) (f : Frame) : ∃ u, u = s.postWords (postedOf f.h1 f.inc (f.payload.take f.count)) 3 ∧
    s.writeaOp f = { u with link := { u.link with resp := u.link.resp ++ [waitingAck f u.link.wbuf.length] } } := ⟨_, rfl, rfl⟩

/-- A BUSY, whether a place is left for it or not. -/
theorem busy_frame (s : State) (f : Frame) : s.busy f = { s with
      regs := (s.busy f).regs, flagged := (s.busy f).flagged, link := { s.link with resp := (s.busy f).link.resp },
      agenda := (s.busy f).agenda } ∧ s.regsKept (s.busy f) [0x0103] := by
  unfold State.busy State.notice
  split
  · exact ⟨rfl, regsKept_setFlag s 0x01 4⟩
  · exact ⟨rfl, regsKept_setFlag s 0x01 3⟩

theorem exec_write_row {s : State} {op : Op} {f : Frame} {i : Instr} (hi : op = .write ∧ i = .write f ∨ op = .writea ∧ i = .writea f)
    (h : s.accepts op f) :
    exec i s = .next (if s.wfree < f.count then s.firstRequest.busy f else (s.admitted op f).act op f) := by
  have hroom : s.noRoom op f = decide (s.wfree < f.count) := by rcases hi with ⟨rfl, -⟩ | ⟨rfl, -⟩ <;> rfl
  have hreq : requestOf i = some f := by rcases hi with ⟨-, rfl⟩ | ⟨-, rfl⟩ <;> rfl
  rw [exec_of_requestOf hreq, request_of_accepted h, hroom]
  simp only [decide_eq_true_eq]

/-- Settles O7: the words enter the buffer behind those posted (`postWords_spec`), or BUSY answers. -/
theorem writeBuffered : Obligations.WriteBuffered := by
  intro op f s i hi h hlen hroom
  have hexec := exec_write_row hi h
  refine ⟨fun hfits => ?_, fun hfull => ?_⟩
  · rw [if_neg (by unfold State.wfree; omega)] at hexec
    have htake : f.payload.take f.count = f.payload := List.take_of_length_le (by omega)
    have hwords := postedOf_words f.h1 f.inc f.payload
    rw [hlen] at hwords
    rcases hi with ⟨rfl, -⟩ | ⟨rfl, -⟩
    · obtain ⟨hframe, hlink, hempty, hposted⟩ := postWords_spec
        { s.firstRequest with link := { s.firstRequest.link with wacc := (s.link.wacc + 1) % 256 } }
        (postedOf f.h1 f.inc f.payload) 3
      have hact : (s.admitted .write f).act .write f = State.postWords
          { s.firstRequest with link := { s.firstRequest.link with wacc := (s.link.wacc + 1) % 256 } }
          (postedOf f.h1 f.inc f.payload) 3 := by rw [← htake]; rfl
      rw [hact] at hexec
      refine ⟨_, postedOf f.h1 f.inc f.payload, hexec, ?_, by rw [hlink]; rfl, hwords, hempty, hposted,
        fun _ => ⟨by rw [hlink], by rw [hlink]; rfl⟩, nofun⟩
      rw [hframe]
      rfl
    · obtain ⟨u, hu, hact⟩ := writeaOp_eq (s.admitted .writea f) f
      obtain ⟨hframe, hlink, hempty, hposted⟩ := postWords_spec (s.admitted .writea f) (postedOf f.h1 f.inc f.payload) 3
      rw [htake] at hu
      rw [← hu] at hframe hlink hempty hposted
      have hwacc : u.link.wacc = s.link.wacc := by rw [hlink]; rfl
      refine ⟨_, postedOf f.h1 f.inc f.payload, hexec.trans (congrArg _ hact), ?_, congrArg Link.wbuf hlink, hwords, hempty, hposted, nofun,
        fun _ => ⟨hwacc, waitingAck f u.link.wbuf.length, ?_, rfl, rfl, rfl, rfl, rfl, rfl, rfl, rfl, rfl⟩⟩
      · rw [hframe]
        rfl
      · rw [hlink]
        rfl
  · rw [if_pos (by unfold State.wfree; omega)] at hexec
    obtain ⟨hframe, hregs⟩ := busy_frame s.firstRequest f
    refine ⟨_, hexec, by rw [hframe]; rfl, by rw [hframe]; rfl, by rw [hframe]; rfl, ?_, hregs, fun hn => ?_⟩
    · rw [hframe]
      rfl
    · obtain ⟨-, hlink, hreg⟩ := busy_spec (s := s.firstRequest) f hn
      exact ⟨by rw [hlink]; rfl, (hreg _).trans rfl⟩

end Machine
end Sys2Proof
end

section
/-! SUPPORT. The link's own events, the posted word that is applied, ABORT and the debug requests (R59, R66, R72, R76, R77). -/

namespace Sys2Proof
namespace Machine

/-! SYNCERR, RESPONSE_READY and ATTN_REASSERT (R59, R67, R77). -/

theorem exec_syncerr {s : State} {w : Word} (hu : s.linkUp = true) (ht : s.link.turn = none) (hw : w ≠ 0x2D4B) :
    exec (.syncerr w) s = .next (s.setFlag 0x01 1) :=
  congrArg Host.Outcome.next (if_pos (by simpa [hu, ht] using hw))

/-- A response as it stands when its ready hc is judged: one that is ready is shown. -/
def Resp.judged (h : Nat) (r : Resp) : Resp := if r.ready.any (fun x => decide (x ≤ h)) then { r with shown := true } else r

theorem exec_responseReady (s : State) : exec .responseReady s =
    .next { s with link := { s.link with resp := s.link.resp.map (Resp.judged s.now) } } := rfl

theorem judged_hidden (h : Nat) (r : Resp) : { r.judged h with shown := false } = { r with shown := false } := by
  unfold Resp.judged
  split <;> rfl

theorem judged_shown (h : Nat) (r : Resp) : (r.judged h).shown = (r.shown || r.ready.any (fun x => decide (x ≤ h))) := by
  unfold Resp.judged
  split <;> simp [*]

theorem exec_attnReassert {s : State} (h : s.link.turn = none) : exec .attnReassert s = .next (s.attnSet (s.attnWanted s.now)) :=
  congrArg Host.Outcome.next (if_pos (by simp [h]))

theorem attnWanted_iff {s : State} (h : Nat) (ht : s.link.turn = none) : s.attnWanted h = true ↔
    (s.reg 0x0101).getLsbD 0 = true ∧ s.linkUp = true ∧ s.hostClocked = true ∧ s.link.attnFrom ≤ h ∧ s.link.noCause = false ∧
      s.attnCause = true := by
  simp [State.attnWanted, ht, wbit, and_assoc]

/-- Settles O13: a flag, the responses judged one by one, and ATTN as its causes call for. -/
theorem linkEvents : Obligations.LinkEvents := by
  refine ⟨fun w s hu ht hw => ?_, fun s => ?_, fun s ht => ?_⟩
  · obtain ⟨hframe, hreg, hregs⟩ := setFlag_spec s 0x01 1
    exact ⟨_, exec_syncerr hu ht hw, hframe, hreg, hregs, fun _ => rfl, fun _ => rfl⟩
  · refine ⟨_, exec_responseReady s, rfl, ?_, fun k r hr => ⟨r.judged s.now, ?_, judged_shown s.now r⟩, fun _ => rfl, fun _ => rfl⟩
    · rw [List.map_map]
      exact List.map_congr_left fun r _ => judged_hidden s.now r
    · rw [List.getElem?_map, hr]
      rfl
  · obtain ⟨hframe, -⟩ := attnSet_spec s (s.attnWanted s.now)
    have hattn : (s.attnSet (s.attnWanted s.now)).link = { s.link with attn := s.attnWanted s.now } := by rw [hframe]
    refine ⟨_, exec_attnReassert ht, by rw [hattn], by rw [hattn]; exact attnWanted_iff s.now ht, ?_, ?_⟩
    · rw [hattn]
      exact hframe
    · rw [hframe]
      exact ⟨fun _ => rfl, fun _ => rfl⟩

/-! The head word of the posted-write buffer (R66, R67, R327). -/

theorem respStep_length (s : State) (r : Resp) : (s.respStep r).link.resp.length = s.link.resp.length + 1 := by
  obtain ⟨u, x, h | h⟩ := respStep_spec s r
  · obtain ⟨hkeep, -, heq⟩ := h
    rw [heq, ← hkeep.resp]
    exact List.length_append
  · obtain ⟨u, x, hkeep, -, ready, heq⟩ := h
    rw [heq, ← hkeep.resp]
    exact List.length_append

theorem respSteps_length (s : State) : s.respSteps.link.resp.length = s.link.resp.length := by
  have fold (l : List Resp) : ∀ u : State, (l.foldl State.respStep u).link.resp.length = u.link.resp.length + l.length := by
    induction l with
    | nil => exact fun _ => rfl
    | cons r l ih => exact fun u => by rw [List.foldl_cons, ih, respStep_length, List.length_cons]; omega
  exact (fold _ _).trans (Nat.zero_add _)

/-- Responses that wait for no posted word stand. -/
theorem respSteps_of_none {s : State} (h : ∀ r ∈ s.link.resp, r.after = 0) : s.respSteps = s := by
  have fold (l : List Resp) : ∀ u : State, (∀ r ∈ l, r.after = 0) →
      l.foldl State.respStep u = { u with link := { u.link with resp := u.link.resp ++ l } } := by
    induction l with
    | nil => exact fun u _ => by rw [List.append_nil]; rfl
    | cons r l ih =>
      intro u hl
      obtain ⟨hr, hl⟩ := List.forall_mem_cons.1 hl
      have hstep : u.respStep r = { u with link := { u.link with resp := u.link.resp ++ [r] } } := if_pos hr
      rw [List.foldl_cons, hstep, ih _ hl, List.append_assoc]
      rfl
  exact fold _ _ h

theorem respSteps_of_ack {s : State} {r : Resp} (hs : s.link.resp = [r]) (ha : r.after = 1) (hr : r.read = none) :
    s.respSteps.link.resp = [{ r with after := 0, ready := some (s.now + 16) }] := by
  rw [State.respSteps, hs, List.foldl_cons, List.foldl_nil, State.respStep, if_neg (by omega), if_neg (by omega), hr]
  rfl

/-- The word has left the buffer; the next one comes 4 hc later (R66). -/
def State.taken (s : State) (rest : List Posted) : State :=
  { s with link := { s.link with wbuf := rest, applyAt := s.now + 4 } }

theorem postedApply_of_ready {s : State} {p : Posted} {rest : List Posted} (hw : s.link.wbuf = p :: rest) (ha : s.link.applyAt ≤ s.now)
    (hs : s.shedHolds p.addr.toNat = false) : s.postedApply = if rest.isEmpty then ((s.taken rest).applyPosted p).respSteps
      else ((s.taken rest).applyPosted p).respSteps.after 4 .postedWordApply := by
  rw [State.postedApply, hw]
  dsimp only
  rw [if_neg (by omega), hs]
  rfl

theorem postedApply_of_held {s : State} {p : Posted} {rest : List Posted} (hw : s.link.wbuf = p :: rest) (ha : s.link.applyAt ≤ s.now)
    (hs : s.shedHolds p.addr.toNat = true) :
    s.postedApply = State.after { s with link := { s.link with applyAt := s.now + 1 } } 1 .postedWordApply := by
  rw [State.postedApply, hw]
  dsimp only
  rw [if_neg (by omega), hs]
  rfl

/-- What the word and the responses it ends leave of the buffer and the clock. -/
theorem taken_applied (s : State) (p : Posted) (rest : List Posted) :
    Keeps (s.taken rest) ((s.taken rest).applyPosted p) ∧
      ((s.taken rest).applyPosted p).respSteps.now = s.now ∧ ((s.taken rest).applyPosted p).respSteps.link.wbuf = rest ∧
      ((s.taken rest).applyPosted p).respSteps.link.resp.length = s.link.resp.length ∧
      s.bytesKept ((s.taken rest).applyPosted p).respSteps := by
  have hkeep : Keeps (s.taken rest) ((s.taken rest).applyPosted p) := kept_State_applyPosted (.refl _)
  have hsteps := steps_respSteps ((s.taken rest).applyPosted p)
  refine ⟨hkeep, hsteps.now.trans hkeep.now, hsteps.wbuf.trans hkeep.wbuf, ?_, fun _ => ?_, fun _ => ?_⟩
  · rw [respSteps_length, hkeep.resp]
    rfl
  · rw [hsteps.mem, hkeep.mem]
    rfl
  · rw [hsteps.core, hkeep.core]
    rfl

/-- Settles O14: the word is applied and the responses behind it move on, or it waits for the Shed. -/
theorem postedWordApplied : Obligations.PostedWordApplied := by
  intro s p rest hw ha
  refine ⟨fun hs => ?_, fun hs => congrArg _ (postedApply_of_held hw ha hs)⟩
  obtain ⟨hkeep, hnow, hwbuf, hlen, hbytes⟩ := taken_applied s p rest
  have hexec : exec .postedWordApply s = .next s.postedApply := rfl
  rw [postedApply_of_ready hw ha hs] at hexec
  refine ⟨_, hexec, ?_, fun hne => ?_, ?_, fun hnone hrest => ?_, fun r hr h1 hread => ?_, ?_⟩
  · split <;> exact hwbuf
  · rw [if_neg (by simpa using hne), State.after_agenda, hnow]
    exact List.mem_append_right _ (.head _)
  · split <;> exact hlen
  · subst hrest
    exact respSteps_of_none (by rw [hkeep.resp]; exact hnone)
  · have hack := respSteps_of_ack (hkeep.resp.trans hr) h1 hread
    rw [hkeep.now] at hack
    split <;> exact hack
  · split <;> exact hbytes

/-! ABORT (R72, R98). -/

theorem exec_abort {s : State} {f : Frame} (h : s.accepts .abort f) : exec (.abort f) s = .next s.firstRequest.abortOp :=
  congrArg Host.Outcome.next (request_of_accepted_no_words h nofun nofun)

theorem abortWord_of_due {s : State} {p : Posted} {rest : List Posted} (hw : s.link.wbuf = p :: rest) (ha : s.link.applyAt = s.now)
    (hs : s.shedHolds p.addr.toNat = false) :
    s.abortWord = State.applyPosted { s with link := { s.link with wbuf := rest } } p := by
  rw [State.abortWord, hw]
  exact if_pos ⟨ha, hs⟩

theorem abortWord_of_not_due {s : State}
    (h : ∀ p rest, s.link.wbuf = p :: rest → s.link.applyAt ≠ s.now ∨ s.shedHolds p.addr.toNat = true) : s.abortWord = s := by
  unfold State.abortWord
  split
  · next p rest hw =>
    refine if_neg fun hdue => ?_
    rcases h p rest hw with h | h
    · exact h hdue.1
    · rw [hdue.2] at h
      cases h
  · rfl

theorem abortWord_bytesKept (s : State) : s.bytesKept s.abortWord := by
  unfold State.abortWord
  split
  · next p rest _ =>
    split
    · exact bytesKept_trans (t := { s with link := { s.link with wbuf := rest } }) ⟨fun _ => rfl, fun _ => rfl⟩
        (bytesKept_of_keeps (kept_State_applyPosted (.refl _)))
    · exact ⟨fun _ => rfl, fun _ => rfl⟩
  · exact ⟨fun _ => rfl, fun _ => rfl⟩

theorem abortOp_spec (s : State) :
    s.abortOp = { s.abortWord with
        regs := s.abortOp.regs, flagged := s.abortOp.flagged, link := s.abortOp.link, agenda := s.abortOp.agenda } ∧
      s.abortOp.link = { s.abortWord.link with resp := [], retained := [], wbuf := [], shadow := [], stage := [], unlocked := [] } ∧
      ∀ a, s.abortOp.reg a = if a = 0x0103 then s.abortWord.reg a ||| 64
        else if a = 0x010A then w16 (sat16 ((s.abortWord.reg 0x010A).toNat + s.abortWord.link.wbuf.length)) else s.abortWord.reg a := by
  refine ⟨rfl, rfl, fun a => ?_⟩
  refine (reg_setFlag _ 0x01 6 a).trans ?_
  rw [reg_addSat]
  by_cases h : a = 0x0103
  · subst h
    rfl
  · rw [if_neg h, if_neg h]
    rfl

/-- Settles O12: what is due on the hc is applied, the rest of the link's requests goes. -/
theorem abortDiscards : Obligations.AbortDiscards := by
  intro f s h
  obtain ⟨hframe, hlink, hreg⟩ := abortOp_spec s.firstRequest
  have hbytes : s.bytesKept s.firstRequest.abortWord := abortWord_bytesKept s.firstRequest
  refine ⟨_, s.firstRequest.abortWord, exec_abort h, fun p rest hw ha hs => abortWord_of_due hw ha hs,
    fun hnot => abortWord_of_not_due hnot, hframe, hlink, ?_, ?_, (hreg _).trans rfl, fun a ha => ?_, ?_⟩
  · rw [State.outTags, hlink]
    rfl
  · rw [hreg, if_neg (by decide), if_pos rfl, sat16_eq_min, toNat_w16_sat]
  · simp only [List.mem_cons, List.not_mem_nil, or_false, not_or] at ha
    rw [hreg, if_neg ha.1, if_neg ha.2]
  · rw [hframe]
    exact hbytes

/-! DBGCTL, DBGRD and DBGWR (R76). -/

theorem exec_debug {s : State} {op : Op} {f : Frame} {i : Instr} (h : s.accepts op f) (hi : requestOf i = some f) (hw : op ≠ .write)
    (ha : op ≠ .writea) : exec i s = .next ((s.admitted op f).act op f) := by
  rw [exec_of_requestOf hi, request_of_accepted_no_words h hw ha]

/-- An answer joins the responses; the last CRC bit, from which its delay runs, fell on the hc before. -/
theorem answer_link {s : State} {d n : Nat} (f : Frame) (rcode : Nat) (h1 : Word) (p : List Word) (h : s.now + d - 1 = n) :
    (s.answer rcode f.tag h1 p d).link = { s.link with resp := s.link.resp ++ [answerOf f rcode h1 p n] } := by
  rw [← h]
  rfl

theorem coreGet_puts (ws : List Word) : ∀ (m : List Host.Cell) (a : Nat), 2 * ws.length ≤ 2 ^ 32 →
    (∀ k, k < ws.length → coreGet (corePuts m a ws) ((a + 2 * k) % 2 ^ 32) = (ws.getD k 0).setWidth 8 ∧
      coreGet (corePuts m a ws) ((a + 2 * k + 1) % 2 ^ 32) = ((ws.getD k 0) >>> 8).setWidth 8) ∧
    ∀ b, (∀ k, k < 2 * ws.length → b ≠ (a + k) % 2 ^ 32) → coreGet (corePuts m a ws) b = coreGet m b := by
  induction ws with
  | nil => exact fun m a _ => ⟨fun k hk => absurd hk (Nat.not_lt_zero k), fun b _ => rfl⟩
  | cons w ws ih =>
    intro m a hlen
    rw [List.length_cons] at hlen
    obtain ⟨hin, hout⟩ := ih (corePut (corePut m (a % 2 ^ 32) (w.setWidth 8)) ((a + 1) % 2 ^ 32) ((w >>> 8).setWidth 8)) (a + 2) (by omega)
    refine ⟨fun k hk => ?_, fun b hb => ?_⟩
    · cases k with
      | zero =>
        have hlow := hout (a % 2 ^ 32) (fun k hk => by omega)
        have hhigh := hout ((a + 1) % 2 ^ 32) (fun k hk => by omega)
        rw [coreGet_put, if_neg (by omega), coreGet_put, if_pos rfl] at hlow
        rw [coreGet_put, if_pos rfl] at hhigh
        exact ⟨hlow, hhigh⟩
      | succ k =>
        have hk' := hin k (by simpa using hk)
        rw [show a + 2 + 2 * k = a + 2 * (k + 1) by omega] at hk'
        exact hk'
    · have hrest := hout b fun k hk => by
        rw [show a + 2 + k = a + (k + 2) by omega]
        exact hb (k + 2) (by rw [List.length_cons]; omega)
      have h0 := hb 0 (by simp)
      have h1 := hb 1 (by simp; omega)
      rw [Nat.add_zero] at h0
      rw [coreGet_put, if_neg h1, coreGet_put, if_neg h0] at hrest
      exact hrest

/-- The two bytes of a word give the word (R76). -/
theorem w16_bytes (w : Word) : w16 ((w.setWidth 8 : Byte).toNat + 256 * ((w >>> 8).setWidth 8 : Byte).toNat) = w := by
  apply BitVec.eq_of_toNat_eq
  have h := w.isLt
  simp only [w16, BitVec.toNat_ofNat, BitVec.toNat_setWidth, BitVec.toNat_ushiftRight, Nat.shiftRight_eq_div_pow]
  omega

theorem coreHalf_puts {s : State} (ws : List Word) (a k : Nat) (hlen : 2 * ws.length ≤ 2 ^ 32) (hk : k < ws.length) :
    State.coreHalf { s with core := corePuts s.core a ws } a k = ws.getD k 0 := by
  obtain ⟨hlow, hhigh⟩ := (coreGet_puts ws s.core a hlen).1 k hk
  have hhalf : State.coreHalf { s with core := corePuts s.core a ws } a k =
      w16 ((coreGet (corePuts s.core a ws) ((a + 2 * k) % 2 ^ 32)).toNat +
        256 * (coreGet (corePuts s.core a ws) ((a + 2 * k + 1) % 2 ^ 32)).toNat) := rfl
  rw [hhalf, hlow, hhigh, w16_bytes]

/-- The checks leave a DBGWR at most 32 half words (Table LT-2). -/
theorem count_of_dbgwr {s : State} {f : Frame} (h : s.accepts .dbgwr f) : f.count ≤ 34 := by
  have hchecks := h.checks
  rw [State.nakFor, h.opcode] at hchecks
  by_contra hcount
  have hbad : Op.countOk .dbgwr f.count = false := by simp [Op.countOk]; omega
  simp [nakReason, hbad] at hchecks

/-- Settles O11: an answer follows the action; the core's words go by `coreGet_puts`. -/
theorem debugRequests : Obligations.DebugRequests := by
  refine ⟨fun f s i halted h hi => ?_, fun f s h => ?_, fun f s h hlen => ?_⟩
  · have hreq : requestOf i = some f := by
      rcases hi with ⟨rfl, -⟩ | ⟨rfl, -⟩ | ⟨rfl, -⟩ | ⟨rfl, -⟩ <;> rfl
    have hexec := exec_debug h hreq nofun nofun
    rcases hi with ⟨rfl, h1, h2, h3, rfl⟩ | ⟨rfl, h1, rfl⟩ | ⟨rfl, h1, rfl⟩ | ⟨rfl, h1, rfl⟩
    · have hact : (s.admitted .dbgctl f).act .dbgctl f = (s.admitted .dbgctl f).dbgAck f :=
        (if_neg h1).trans ((if_neg h2).trans (if_neg h3))
      exact ⟨_, hexec.trans (congrArg _ hact), rfl, rfl, rfl, fun _ => rfl, rfl, fun _ => rfl, fun _ => rfl⟩
    · have hact : (s.admitted .dbgctl f).act .dbgctl f = (s.admitted .dbgctl f).haltOp f := if_pos h1
      exact ⟨_, hexec.trans (congrArg _ hact), rfl, rfl, rfl, nofun, rfl, fun _ => rfl, fun _ => rfl⟩
    · have hact : (s.admitted .dbgctl f).act .dbgctl f = (s.admitted .dbgctl f).runOp f :=
        (if_neg (by rw [h1]; decide)).trans (if_pos h1)
      exact ⟨_, hexec.trans (congrArg _ hact), rfl, rfl, rfl, nofun, rfl, fun _ => rfl, fun _ => rfl⟩
    · have hact : (s.admitted .dbgctl f).act .dbgctl f = (s.admitted .dbgctl f).stepOp f :=
        (if_neg (by rw [h1]; decide)).trans ((if_neg (by rw [h1]; decide)).trans (if_pos h1))
      exact ⟨_, hexec.trans (congrArg _ hact), rfl, rfl, rfl, nofun, rfl, fun _ => rfl, fun _ => rfl⟩
  · have hlink := answer_link (s := s.admitted .dbgrd f) f 1 0 ((List.range (2 * f.h1.toNat)).map (s.coreHalf f.coreAddr))
      (show s.now + (64 + 8 * f.h1.toNat) - 1 = s.now + 63 + 8 * f.h1.toNat by omega)
    exact ⟨_, exec_debug h rfl nofun nofun, rfl, hlink, fun _ => rfl, fun _ => rfl⟩
  · have hcount := count_of_dbgwr h
    have hwords : (f.payload.drop 2).length = f.count - 2 := by rw [List.length_drop, hlen]
    have hlink := answer_link (s := { s.admitted .dbgwr f with core := corePuts s.core f.coreAddr (f.payload.drop 2) }) f 2 11 []
      (show s.now + (64 + 8 * ((f.count - 2) / 2)) - 1 = s.now + 63 + 8 * ((f.count - 2) / 2) by omega)
    refine ⟨_, exec_debug h rfl nofun nofun, rfl, fun k hk => ?_, fun a ha => ?_, hlink⟩
    · rw [show f.payload.getD (k + 2) 0 = (f.payload.drop 2).getD k 0 by simp [List.getD_eq_getElem?_getD, Nat.add_comm]]
      exact coreHalf_puts (s := s) (f.payload.drop 2) f.coreAddr k (by omega) (by omega)
    · exact (coreGet_puts (f.payload.drop 2) s.core f.coreAddr (by omega)).2 a (by rw [hwords]; exact ha)

end Machine
end Sys2Proof
end

section
/-! SUPPORT. TSYNC and REBASE: the time base they set, and the words that a counted hc and forced UPs leave alone (R75, R252, R253). -/

namespace Sys2Proof
namespace Machine

/-! What an hc counts, and what reports take, stands in page RQ and above: every word below is kept. -/

theorem reg_absorbHolder (s : State) (r : Report) {a : Nat} (h : a < 0x2600) : (s.absorbHolder r).2.reg a = s.reg a := by
  unfold State.absorbHolder
  split
  · rw [State.countMerge, reg_setFlag, if_neg (by omega), reg_addSat, if_neg (by omega)]
    rfl
  · rfl

theorem reg_queueLife_below (s : State) (r : Report) {a : Nat} (h : a < 0x2600) : (s.queueLife r).reg a = s.reg a := by
  cases hup : r.up with
  | false => exact reg_queueLife s hup h
  | true =>
    have htaken := reg_absorbHolder s r h
    unfold State.queueLife
    rw [if_pos hup]
    dsimp only
    split
    · exact htaken
    split
    · exact (reg_takeEntry ..).trans htaken
    · exact (reg_waitEntry _ _ h).trans htaken

theorem reg_contactReport_up (s : State) (c : Contact) (reason ts n : Nat) {a : Nat} (h : a < 0x2600) :
    (s.contactReport c (.up reason) ts n).reg a = s.reg a :=
  reg_queueLife_below _ _ h

theorem reg_idleCheck (s : State) (a : Nat) : s.idleCheck.reg a = s.reg a := by
  unfold State.idleCheck
  split
  · split <;> rfl
  · rfl

theorem reg_forceUps (s : State) (sel : Contact → Bool) (reason : Nat) {a : Nat} (h : a < 0x2600) :
    (s.forceUps sel reason).reg a = s.reg a := by
  unfold State.forceUps
  extract_lets cs u
  split
  · rfl
  · refine (reg_idleCheck ..).trans ((reg_foldl _ _ fun x hx v => ?_).trans rfl)
    obtain ⟨c, -, hc⟩ := List.mem_map.1 (List.fst_mem_of_mem_zipIdx hx)
    rw [← hc]
    exact reg_contactReport_up _ _ _ _ _ h

theorem reg_wrapEvents (fuel : Nat) {a : Nat} (h : a < 0x2600) : ∀ (s : State) (t : Nat), (s.wrapEvents fuel t).reg a = s.reg a := by
  induction fuel with
  | zero => exact fun _ _ => rfl
  | succ fuel ih =>
    intro s t
    have hflag : (s.setFlag 0x28 (6 + t)).reg a = s.reg a := by rw [reg_setFlag, if_neg (by omega)]
    unfold State.wrapEvents
    dsimp only
    split
    · split
      · split
        · exact (ih _ _).trans hflag
        · exact hflag
      · exact hflag
    · exact hflag

theorem reg_countClk (s : State) (c : Nat) {a : Nat} (h : a < 0x2600) : (s.countClk c).reg a = s.reg a := by
  refine reg_foldl _ _ fun t _ u => ?_
  split
  · unfold State.countTimer
    dsimp only
    split
    · split
      · exact reg_wrapEvents _ h _ _
      · rfl
    · rfl
  · rfl

theorem reg_tickTimers (s : State) (n : Nat) {a : Nat} (h : a < 0x2600) : (s.tickTimers n).reg a = s.reg a := by
  unfold State.tickTimers
  dsimp only
  split
  · exact reg_countClk s 0 h
  · exact (reg_countClk _ 1 h).trans (reg_countClk s 0 h)

theorem reg_tickTime (s : State) (a : Nat) : s.tickTime.reg a = s.reg a := by
  have hcount : s.accumulate.reg a = s.reg a := by
    unfold State.accumulate
    split <;> rfl
  unfold State.tickTime
  dsimp only
  split <;> exact hcount

theorem reg_lateReports (s : State) {a : Nat} (h : a < 0x2600) : s.lateReports.reg a = s.reg a := by
  refine reg_foldl _ _ fun r _ u => ?_
  unfold State.queueLane
  split
  · rfl
  · exact reg_queueLife_below _ _ h

theorem reg_countHc (s : State) {a : Nat} (h : a < 0x2600) : s.countHc.reg a = s.reg a := by
  unfold State.countHc
  split
  · rfl
  · rw [reg_lateReports _ h, (besideOnly_gaugeTick _).2 a (by simp; omega), reg_tickTimers _ _ h, reg_tickTime]
    rfl

/-! The time base under TSYNC and REBASE (R252, R253). -/

/-- `t` is `s` but for the time base, registers and flags. -/
def State.timeOnly (s t : State) : Prop := t = { s with regs := t.regs, flagged := t.flagged, tb := t.tb }

theorem State.timeOnly.trans {s t u : State} (h : s.timeOnly t) (g : t.timeOnly u) : s.timeOnly u :=
  Eq.trans g (by rw [h])

theorem State.regsOnly.timeOnly {s t : State} (h : s.regsOnly t) : s.timeOnly t := by
  rw [State.regsOnly] at h
  rw [h]
  rfl

/-- A flag of page TIME that stands is not lost where the uncertainty is set. -/
theorem setUnc_flag {s : State} {k : Nat} (v : Nat) (h : (s.reg 0x0303).getLsbD k = true) : ((s.setUnc v).reg 0x0303).getLsbD k = true := by
  have hwords : (s.setWide 0x030E 2 (min v 0xFFFFFFFF)).reg 0x0303 = s.reg 0x0303 := by
    rw [reg_setWide (by decide), if_neg (by decide)]
  rw [← hwords] at h
  unfold State.setUnc
  rw [reg_setFlagIf]
  split
  · rw [BitVec.getLsbD_or]
    exact Bool.or_eq_true_iff.2 (.inl h)
  · exact h

/-- Clearing the uncertainty touches its words, its flag and EST, and no other part of the time base. -/
theorem clearUnc_spec (s : State) :
    s.clearUnc = { s with regs := s.clearUnc.regs, flagged := s.clearUnc.flagged, tb := { s.tb with est := s.clearUnc.tb.est } } ∧
      s.regsKept s.clearUnc [0x0302, 0x0303, 0x030E, 0x030F] ∧
      ∀ k, (s.reg 0x0303).getLsbD k = true → (s.clearUnc.reg 0x0303).getLsbD k = true := by
  unfold State.clearUnc
  split
  · exact ⟨rfl, regsKept_refl s _, fun _ h => h⟩
  · obtain ⟨hframe, -, hkept⟩ := setUnc_spec s 0
    exact ⟨hframe, hkept, fun _ h => setUnc_flag 0 h⟩

/-- A step forward, a slew, or neither (R252). -/
theorem slewTo_spec (s : State) (h : Nat) (o : Int) :
    s.timeOnly (s.slewTo h o) ∧
      (0 < o → (s.slewTo h o).tb.tsc = h % 2 ^ 48 ∧ (s.slewTo h o).tb.slewRem = 0 ∧
        ((s.slewTo h o).reg 0x0303).getLsbD 1 = true) ∧
      (o = 0 → (s.slewTo h o).tb.tsc = s.tb.tsc ∧ (s.slewTo h o).tb.slewRem = 0) ∧
      (o < 0 → (s.slewTo h o).tb.tsc = s.tb.tsc ∧ ((s.slewTo h o).tb.slewRem : Int) = -o ∧
        ((s.slewTo h o).reg 0x0303).getLsbD 0 = true) := by
  rcases lt_trichotomy o 0 with ho | rfl | ho
  · rw [State.slewTo, if_neg (by omega), if_pos ho]
    refine ⟨rfl, fun h => absurd h (by omega), fun h => absurd h (by omega), fun _ => ⟨rfl, Int.toNat_of_nonneg (by omega), ?_⟩⟩
    rw [reg_setFlag, if_pos rfl, BitVec.getLsbD_or]
    exact Bool.or_eq_true_iff.2 (.inr rfl)
  · rw [State.slewTo, if_neg (lt_irrefl 0), if_neg (lt_irrefl 0)]
    exact ⟨rfl, fun h => absurd h (lt_irrefl 0), fun _ => ⟨rfl, rfl⟩, fun h => absurd h (lt_irrefl 0)⟩
  · rw [State.slewTo, if_pos ho]
    refine ⟨rfl, fun _ => ⟨rfl, rfl, ?_⟩, fun h => absurd h (by omega), fun h => absurd h (by omega)⟩
    rw [reg_setFlag, if_pos rfl, BitVec.getLsbD_or]
    exact Bool.or_eq_true_iff.2 (.inr rfl)

/-- TSYNC is a slew, a cleared uncertainty and an anchor, after its offset is noted. -/
theorem timeSync_eq (s : State) (h : Nat) : ∃ w : State, s.regsOnly w ∧
    s.timeSync h = ((w.slewTo h (syncOffset h s.tb.tsc)).clearUnc).writeAnchor := by
  unfold State.timeSync
  extract_lets o ofs
  exact ⟨_, regsOnly_setWide s 0x0316 2 ofs, rfl⟩

/-- The uncertainty and the anchor that follow a slew leave the TSC and the slew as they are set. -/
theorem stamped_spec (s : State) :
    s.timeOnly s.clearUnc.writeAnchor ∧
      s.clearUnc.writeAnchor.tb.tsc = s.tb.tsc ∧ s.clearUnc.writeAnchor.tb.slewRem = s.tb.slewRem ∧
      ∀ k, (s.reg 0x0303).getLsbD k = true → (s.clearUnc.writeAnchor.reg 0x0303).getLsbD k = true := by
  obtain ⟨hclear, -, hflag⟩ := clearUnc_spec s
  generalize s.clearUnc = u at hclear hflag ⊢
  refine ⟨?_, ?_, ?_, hflag⟩
  all_goals rw [hclear]; rfl

theorem timeSync_spec (s : State) (h : Nat) :
    s.timeOnly (s.timeSync h) ∧
      (0 < syncOffset h s.tb.tsc → (s.timeSync h).tb.tsc = h % 2 ^ 48 ∧ (s.timeSync h).tb.slewRem = 0 ∧
        ((s.timeSync h).reg 0x0303).getLsbD 1 = true) ∧
      (syncOffset h s.tb.tsc = 0 → (s.timeSync h).tb.tsc = s.tb.tsc ∧ (s.timeSync h).tb.slewRem = 0) ∧
      (syncOffset h s.tb.tsc < 0 → (s.timeSync h).tb.tsc = s.tb.tsc ∧ ((s.timeSync h).tb.slewRem : Int) = -syncOffset h s.tb.tsc ∧
        ((s.timeSync h).reg 0x0303).getLsbD 0 = true) := by
  obtain ⟨w, hw, heq⟩ := timeSync_eq s h
  rw [heq]
  obtain ⟨hslew, hfwd, hstay, hback⟩ := slewTo_spec w h (syncOffset h s.tb.tsc)
  generalize w.slewTo h (syncOffset h s.tb.tsc) = v at hslew hfwd hstay hback ⊢
  obtain ⟨hframe, htsc, hrem, hflag⟩ := stamped_spec v
  have hwtsc : w.tb.tsc = s.tb.tsc := by rw [hw]
  refine ⟨?_, fun ho => ?_, fun ho => ?_, fun ho => ?_⟩
  · exact (hw.timeOnly.trans hslew).trans hframe
  · obtain ⟨h1, h2, h3⟩ := hfwd ho
    exact ⟨htsc.trans h1, hrem.trans h2, hflag 1 h3⟩
  · obtain ⟨h1, h2⟩ := hstay ho
    exact ⟨htsc.trans (h1.trans hwtsc), hrem.trans h2⟩
  · obtain ⟨h1, h2, h3⟩ := hback ho
    exact ⟨htsc.trans (h1.trans hwtsc), (congrArg Int.ofNat hrem).trans h2, hflag 0 h3⟩

/-- REBASE on the time base: H, no slew, and one anchor (R253). -/
theorem timeRebase_spec (s : State) (h : Nat) :
    (s.timeRebase h).tb.tsc = h % 2 ^ 48 ∧ (s.timeRebase h).tb.slewRem = 0 ∧ (s.timeRebase h).tb.anchors.length = 1 ∧
      s.regsKept (s.timeRebase h) [0x0302, 0x0303, 0x030E, 0x030F] := by
  obtain ⟨hclear, hkept, -⟩ := clearUnc_spec { s with tb := { s.tb with
    tsc := h % 2 ^ 48, slewRem := 0, anchors := [], lost := false, floor := h % 2 ^ 48 } }
  unfold State.timeRebase
  generalize State.clearUnc { s with tb := { s.tb with
    tsc := h % 2 ^ 48, slewRem := 0, anchors := [], lost := false, floor := h % 2 ^ 48 } } = u at hclear hkept ⊢
  refine ⟨?_, ?_, ?_, hkept⟩
  all_goals rw [hclear]; rfl

/-! The requests. -/

theorem admitted_frame (s : State) (op : Op) (f : Frame) :
    s.admitted op f = { s with link := (s.admitted op f).link, agenda := (s.admitted op f).agenda } ∧
      (s.admitted op f).link.resp = s.link.resp := by
  unfold State.admitted
  split <;> exact ⟨rfl, rfl⟩

theorem syncRequest {s : State} {f : Frame} (h : s.accepts .tsync f) :
    exec (.tsync f) s = .next ((s.admitted .tsync f).countHc.tsyncOp f) :=
  congrArg Host.Outcome.next (request_of_accepted_no_words h nofun nofun)

theorem rebaseRequest {s : State} {f : Frame} (h : s.accepts .rebase f) :
    exec (.rebase f) s = .next ((s.admitted .rebase f).countHc.rebaseOp f) :=
  congrArg Host.Outcome.next (request_of_accepted_no_words h nofun nofun)

/-- An answer of 16 hc behind the responses that wait, after what keeps them. -/
theorem ack_resp {s u : State} (op : Op) (f : Frame) (p : List Word) (hr : u.link.resp = s.link.resp) (hn : u.now = s.now) :
    (u.ack op f p 16).link.resp = s.link.resp ++ [answerOf f 2 (w16 op.code) p (s.now + 15)] := by
  have hlink := answer_link (s := u) (d := 16) (n := s.now + 15) f 2 (w16 op.code) p (by omega)
  have hresp := congrArg Link.resp hlink
  rw [← hr]
  exact hresp

/-- The state in which REBASE sets the time: the UPs of reason 4 are out and the epoch has advanced (R253, steps 1 and 2). -/
def State.epochAdvanced (s : State) : State := (s.forceAll 4).setReg 0x000A (w16 ((s.forceAll 4).epochNow % 65535 + 1))

theorem epochAdvanced_spec (s : State) : Keeps s s.epochAdvanced ∧
    s.epochAdvanced.reg 0x000A = w16 ((s.reg 0x000A).toNat % 65535 + 1) := by
  refine ⟨kept_State_setReg (kept_State_forceAll (Keeps.refl s)), ?_⟩
  rw [State.epochAdvanced, reg_setReg, if_pos rfl, State.epochNow, State.forceAll, reg_forceUps _ _ _ (by decide)]

/-- The counters of a new epoch, and the EPOCH report that is owed (R253, steps 4 and 5). -/
def State.countersRestarted (s : State) : State :=
  { s with
    rq := { s.rq with seqNext := 0, downCnt := 0, upCnt := 0, rsent := 0, fscan := 0, fcons := 0, frep := 0, fdisc := 0,
                      cgrant := s.rq.cout, epochDue := true, rebased := true
                      epochOld := if s.fires .epochReport then s.rq.epochOld else s.rq.epochOld ++ [s.rq.rebased] }
    sv := { s.sv with rcnt := 0 }
    ms := { s.ms with epochOwed := true } }

/-- The state that REBASE reaches, but for its answer. -/
def State.rebasedTo (s : State) (h : Nat) : State :=
  State.after (State.setReg (s.epochAdvanced.timeRebase h).countersRestarted 0x0508 0) 64 .epochReport

theorem rebaseOp_eq (s : State) (f : Frame) : s.rebaseOp f =
    (s.rebasedTo (ofWords f.payload)).ack .rebase f (s.tscWords ++ [w16 (s.rebasedTo (ofWords f.payload)).epochNow]) 16 := rfl

theorem keeps_rebasedTo (s : State) (h : Nat) : Keeps s (s.rebasedTo h) :=
  kept_State_after (kept_State_setReg (Keeps.upd (kept_State_timeRebase (epochAdvanced_spec s).1)
    rfl rfl rfl rfl rfl rfl rfl rfl rfl rfl rfl fun h g => ⟨h, g⟩))

theorem rebasedTo_epoch (s : State) (h : Nat) : (s.rebasedTo h).reg 0x000A = w16 ((s.reg 0x000A).toNat % 65535 + 1) := by
  obtain ⟨-, -, -, hkept⟩ := timeRebase_spec s.epochAdvanced h
  rw [← (epochAdvanced_spec s).2, ← hkept 0x000A (by decide), State.rebasedTo, reg_after, reg_setReg, if_neg (by decide)]
  rfl

theorem rebasedTo_syncCount (s : State) (h : Nat) : (s.rebasedTo h).reg 0x0508 = 0 := by
  rw [State.rebasedTo, reg_after, reg_setReg, if_pos rfl]

theorem toNat_next_epoch (n : Nat) : (w16 (n % 65535 + 1)).toNat = n % 65535 + 1 := by
  rw [w16, BitVec.toNat_ofNat]
  omega

theorem rebasedTo_due (s : State) (h : Nat) : (s.now + 64, Instr.epochReport) ∈ (s.rebasedTo h).agenda := by
  rw [← (kept_State_timeRebase (h := h) (epochAdvanced_spec s).1).now]
  exact List.mem_append_right _ (List.mem_singleton.2 rfl)

/-- Settles O10: both requests answer with the count of their reference instant, then act on the time base (`timeSync_spec`,
`rebaseOp_spec`). -/
theorem timeRequests : Obligations.TimeRequests := by
  refine ⟨fun f s h => ?_, fun f s h => ?_⟩
  · obtain ⟨hadmit, hresp⟩ := admitted_frame s .tsync f
    have hcount := kept_State_countHc (Keeps.refl (s.admitted .tsync f))
    have hnow : (s.admitted .tsync f).now = s.now := by rw [hadmit]
    refine ⟨_, syncRequest h, ?_⟩
    generalize (s.admitted .tsync f).countHc = u at hcount ⊢
    have hack := ack_resp (s := s) .tsync f u.tscWords (hcount.resp.trans hresp) (hcount.now.trans hnow)
    obtain ⟨hframe, htime⟩ := timeSync_spec (u.ack .tsync f u.tscWords 16) (ofWords f.payload)
    have hop : u.tsyncOp f = (u.ack .tsync f u.tscWords 16).timeSync (ofWords f.payload) := rfl
    rw [hop]
    refine ⟨?_, htime.1, htime.2.1, htime.2.2, ?_, ?_, ?_, ?_, ?_⟩
    · rw [hframe]
      exact hack
    all_goals rw [hframe]
    · rfl
    · rfl
    · rfl
    · exact fun _ => rfl
    · exact fun _ => rfl
  · obtain ⟨hadmit, hresp⟩ := admitted_frame s .rebase f
    have hcount := kept_State_countHc (Keeps.refl (s.admitted .rebase f))
    have hepoch : (s.admitted .rebase f).countHc.reg 0x000A = s.reg 0x000A := by
      rw [reg_countHc _ (by decide), hadmit]
      rfl
    have hnow : (s.admitted .rebase f).now = s.now := by rw [hadmit]
    have hbytes : s.bytesKept (s.admitted .rebase f) := by
      rw [hadmit]
      exact ⟨fun _ => rfl, fun _ => rfl⟩
    have hcout : (s.admitted .rebase f).rq.cout = s.rq.cout := by rw [hadmit]
    refine ⟨_, rebaseRequest h, ?_⟩
    generalize (s.admitted .rebase f).countHc = u at hcount hepoch ⊢
    have hkeep := hcount.trans (keeps_rebasedTo u (ofWords f.payload))
    have hword := rebasedTo_epoch u (ofWords f.payload)
    rw [hepoch] at hword
    obtain ⟨htsc, hrem, hring, -⟩ := timeRebase_spec u.epochAdvanced (ofWords f.payload)
    have hack := ack_resp (s := s) .rebase f (u.tscWords ++ [w16 (u.rebasedTo (ofWords f.payload)).epochNow])
      (hkeep.resp.trans hresp) (hkeep.now.trans hnow)
    have hcopy : w16 (u.rebasedTo (ofWords f.payload)).epochNow = (u.rebasedTo (ofWords f.payload)).reg 0x000A := BitVec.ofNat_toNat ..
    rw [hcopy] at hack
    rw [rebaseOp_eq, hcopy]
    refine ⟨?_, htsc, hrem, hring, rfl, rfl, rfl, rfl, rfl, rfl, rfl, rfl, rfl, hkeep.cout.trans hcout, rfl, ?_, rfl, ?_, hack, ?_⟩
    · exact (congrArg BitVec.toNat hword).trans (toNat_next_epoch _)
    · exact rebasedTo_syncCount u (ofWords f.payload)
    · have hdue := rebasedTo_due u (ofWords f.payload)
      rw [hcount.now, hnow] at hdue
      exact List.mem_append_left _ hdue
    · obtain ⟨hmem, hcore⟩ := bytesKept_trans hbytes (bytesKept_of_keeps hkeep)
      exact ⟨hmem, hcore⟩

end Machine
end Sys2Proof
end

section
/-! SUPPORT. What the reports of an output change: the queue, its counters of DOWN and UP events, and nothing of the scan, the Sieve
or the contacts (R230, R236 to R241, R244). -/

namespace Sys2Proof
namespace Machine

/-! A report that is queued. -/

/-- `t` is `s` but for registers, flags, timers and the queue, whose counts of DOWN and UP events stand. -/
def State.queueOnly (s t : State) : Prop :=
  t = { s with regs := t.regs, flagged := t.flagged, tm := t.tm, rq := { t.rq with upCnt := s.rq.upCnt, downCnt := s.rq.downCnt } }

theorem State.queueOnly.refl (s : State) : s.queueOnly s := rfl

theorem State.queueOnly.trans {s t u : State} (h : s.queueOnly t) (g : t.queueOnly u) : s.queueOnly u :=
  Eq.trans g (by rw [h])

theorem State.timersOnly.queueOnly {s t : State} (h : s.timersOnly t) : s.queueOnly t :=
  Eq.trans h (by rw [h])

theorem queueOnly_takeEntry (s : State) (r : Report) : s.queueOnly (s.takeEntry r) := by
  unfold State.takeEntry
  split
  · rfl
  · refine State.queueOnly.trans ?_ (timersOnly_timerEvent ..).queueOnly
    rfl

theorem queueOnly_waitEntry (s : State) (r : Report) : s.queueOnly (s.waitEntry r) := by
  unfold State.waitEntry
  extract_lets first _ u
  have hu : s.queueOnly u := by
    refine State.queueOnly.trans ?_ (timersOnly_timerEvent ..).queueOnly
    rfl
  clear_value u
  split
  · exact hu.trans rfl
  · exact hu

theorem queueOnly_absorbHolder (s : State) (r : Report) : s.queueOnly (s.absorbHolder r).2 := by
  unfold State.absorbHolder
  split <;> rfl

theorem queueOnly_queueLife (s : State) (r : Report) : s.queueOnly (s.queueLife r) := by
  have htaken : s.queueOnly (if r.up then s.absorbHolder r else (r, s)).2 := by
    split
    · exact queueOnly_absorbHolder s r
    · exact .refl s
  unfold State.queueLife
  generalize (if r.up then s.absorbHolder r else (r, s)) = p at htaken
  obtain ⟨r, u⟩ := p
  dsimp only at htaken ⊢
  split
  · exact htaken.trans rfl
  split
  · exact htaken.trans (queueOnly_takeEntry ..)
  · exact htaken.trans (queueOnly_waitEntry ..)

theorem queueOnly_queueMove (s : State) (r : Report) : s.queueOnly (s.queueMove r) := by
  unfold State.queueMove
  split
  · rfl
  split
  · exact queueOnly_takeEntry ..
  split
  · rfl
  split <;> rfl

/-! The reports of contacts (R230, R244). -/

/-- `t` is `s` but for registers, flags, timers and the queue. -/
def State.reportsOnly (s t : State) : Prop := t = { s with regs := t.regs, flagged := t.flagged, tm := t.tm, rq := t.rq }

theorem State.reportsOnly.trans {s t u : State} (h : s.reportsOnly t) (g : t.reportsOnly u) : s.reportsOnly u :=
  Eq.trans g (by rw [h])

theorem State.queueOnly.reportsOnly {s t : State} (h : s.queueOnly t) : s.reportsOnly t :=
  Eq.trans h (by rw [h])

theorem State.queueOnly.counts {s t : State} (h : s.queueOnly t) : t.rq.upCnt = s.rq.upCnt ∧ t.rq.downCnt = s.rq.downCnt := by
  rw [State.queueOnly] at h
  rw [h]
  exact ⟨rfl, rfl⟩

/-- A DOWN or an UP counted (R244). -/
def State.eventCounted (s : State) : Event → State
  | .move => s
  | .down => { s with rq := { s.rq with downCnt := (s.rq.downCnt + 1) % 65536 } }
  | .up _ => { s with rq := { s.rq with upCnt := (s.rq.upCnt + 1) % 65536 } }

/-- The event is counted, and its report is queued. -/
theorem queueOnly_contactReport (s : State) (c : Contact) (e : Event) (ts n : Nat) :
    (s.eventCounted e).queueOnly (s.contactReport c e ts n) := by
  unfold State.contactReport
  extract_lets hid body r
  cases e with
  | move => exact queueOnly_queueMove s r
  | down => exact queueOnly_queueLife _ r
  | up reason => exact queueOnly_queueLife _ r

theorem reportsOnly_eventCounted (s : State) (e : Event) : s.reportsOnly (s.eventCounted e) := by
  cases e <;> rfl

/-- An UP counts in UPCNT, a DOWN in DOWNCNT, a MOVE in neither. -/
theorem eventCounted_counts (s : State) (e : Event) :
    (s.eventCounted e).rq.upCnt % 65536 = (s.rq.upCnt + b2n (decide (e.code = 2))) % 65536 ∧
      (s.eventCounted e).rq.downCnt % 65536 = (s.rq.downCnt + b2n (decide (e.code = 0))) % 65536 := by
  cases e with
  | move => exact ⟨rfl, rfl⟩
  | down => exact ⟨rfl, Nat.mod_mod ..⟩
  | up reason => exact ⟨Nat.mod_mod .., rfl⟩

theorem contactReport_spec (s : State) (c : Contact) (e : Event) (ts n : Nat) :
    s.reportsOnly (s.contactReport c e ts n) ∧
      (s.contactReport c e ts n).rq.upCnt % 65536 = (s.rq.upCnt + b2n (decide (e.code = 2))) % 65536 ∧
      (s.contactReport c e ts n).rq.downCnt % 65536 = (s.rq.downCnt + b2n (decide (e.code = 0))) % 65536 := by
  have hqueue := queueOnly_contactReport s c e ts n
  obtain ⟨hup, hdown⟩ := hqueue.counts
  rw [hup, hdown]
  exact ⟨(reportsOnly_eventCounted s e).trans hqueue.reportsOnly, eventCounted_counts s e⟩

/-- One count more, modulo 2^16. -/
theorem mod_countP_cons {α : Type} (q : α → Bool) (x : α) (l : List α) {m n : Nat} (h : m % 65536 = (n + b2n (q x)) % 65536) :
    (m + l.countP q) % 65536 = (n + (x :: l).countP q) % 65536 := by
  rw [List.countP_cons, ← Nat.mod_add_mod, h, Nat.mod_add_mod, Nat.add_assoc, Nat.add_comm (b2n (q x))]
  rfl

/-- Reports in a row, each with a number it may show. -/
theorem contactReport_foldl (ts : Nat) (shown : Nat → Nat) (l : List ((Contact × Event) × Nat)) : ∀ s t : State,
    l.foldl (fun u p => u.contactReport p.1.1 p.1.2 ts (shown p.2)) s = t →
    s.reportsOnly t ∧
      t.rq.upCnt % 65536 = (s.rq.upCnt + l.countP (fun p => decide (p.1.2.code = 2))) % 65536 ∧
      t.rq.downCnt % 65536 = (s.rq.downCnt + l.countP (fun p => decide (p.1.2.code = 0))) % 65536 := by
  induction l with
  | nil =>
    rintro s t rfl
    exact ⟨rfl, rfl, rfl⟩
  | cons p l ih =>
    intro s t ht
    obtain ⟨hframe, hup, hdown⟩ := contactReport_spec s p.1.1 p.1.2 ts (shown p.2)
    obtain ⟨hframe', hup', hdown'⟩ := ih _ t ht
    refine ⟨hframe.trans hframe', ?_, ?_⟩
    · exact hup'.trans (mod_countP_cons (fun p => decide (p.1.2.code = 2)) p l hup)
    · exact hdown'.trans (mod_countP_cons (fun p => decide (p.1.2.code = 0)) p l hdown)

theorem countP_zipIdx {α : Type} (q : α → Bool) (l : List α) : l.zipIdx.countP (fun p => q p.1) = l.countP q := by
  conv_rhs => rw [← List.zipIdx_map_fst 0 l, List.countP_map]
  rfl

theorem contactReports_spec (s : State) (l : List (Contact × Event)) (ts : Nat) :
    s.reportsOnly (s.contactReports l ts) ∧
      (s.contactReports l ts).rq.upCnt % 65536 = (s.rq.upCnt + l.countP (fun p => decide (p.2.code = 2))) % 65536 ∧
      (s.contactReports l ts).rq.downCnt % 65536 = (s.rq.downCnt + l.countP (fun p => decide (p.2.code = 0))) % 65536 := by
  rw [← countP_zipIdx (fun p : Contact × Event => decide (p.2.code = 2)),
    ← countP_zipIdx (fun p : Contact × Event => decide (p.2.code = 0))]
  exact contactReport_foldl ts (fun i => if i = 0 then l.length else 0) l.zipIdx s _ rfl

end Machine
end Sys2Proof
end

section
/-! SUPPORT. One output at the Trellis, cut into its parts: the contacts it continues, the UPs, the candidates and the DOWNs
(R225 to R230). -/

namespace Sys2Proof
namespace Machine

/-! The parts of an output. `debug` says that a debug halt has ended before it, `peaks` are its peaks by index. -/

/-- The peaks of an output by index. -/
def State.numbered (s : State) (o : Output) : List (Nat × Peak) := (s.peaks o).zipIdx.map (fun x => (x.2, x.1))

/-- The open contacts by ascending ID. -/
def State.byId (s : State) : List Contact := s.tr.contacts.mergeSort (fun a b => decide (a.id ≤ b.id))

/-- The contacts that an output may continue: none after a debug halt (R227). -/
def State.tracked (s : State) (debug : Bool) : List Contact := if debug then [] else s.byId

/-- The peak that a match gives the target of index `i`. -/
def hitOf (peaks : List (Nat × Peak)) (ms : List (Nat × Nat)) (i : Nat) : Option Contact :=
  (ms.find? (fun p => p.1 == i)).bind (fun p => (peaks.find? (fun q => q.1 == p.2)).map (·.2.c))

def State.contactMatch (s : State) (debug : Bool) (peaks : List (Nat × Peak)) : List (Nat × Nat) :=
  s.matchUp ((s.tracked debug).map (fun c => (c.id, c))) peaks

/-- A contact that takes over its peak, or counts a miss (R225, R229). -/
def State.goOn (s : State) (c : Contact) : Option Contact → Contact × Bool
  | some p => ((c.take p (s.force.get 0x250C).toNat).follow ((s.force.get 0x250D).toNat / 256) s.tb.hcpos, true)
  | none => ({ c with miss := c.miss + 1 }, false)

def State.continued (s : State) (debug : Bool) (peaks : List (Nat × Peak)) : List (Contact × Bool) :=
  (s.tracked debug).zipIdx.map (fun x => s.goOn x.1 (hitOf peaks (s.contactMatch debug peaks) x.2))

/-- The reason for which a continued contact closes, if it does (R227, R228). -/
def State.verdictOn (s : State) (x : Contact × Bool) : Option Nat :=
  if s.stuckNow x.1 then some 3 else if !x.2 && decide (max 1 (fld (s.force.get 0x250A) 7 4) ≤ x.1.miss) then some 0 else none

def State.closing (s : State) (debug : Bool) (peaks : List (Nat × Peak)) : List (Contact × Event) :=
  (if debug then s.byId.map (fun c => (c, Event.up 5)) else []) ++
    (s.continued debug peaks).filterMap (fun x => (s.verdictOn x).map (fun r => (x.1, Event.up r)))

def State.staying (s : State) (debug : Bool) (peaks : List (Nat × Peak)) : List (Contact × Bool) :=
  (s.continued debug peaks).filter (fun x => (s.verdictOn x).isNone)

/-- The peaks that no contact took and that reach TOUCHTH (R225). -/
def State.strongPeaks (s : State) (debug : Bool) (peaks : List (Nat × Peak)) : List (Nat × Peak) :=
  peaks.filter (fun x => !((s.contactMatch debug peaks).map (·.2)).contains x.1 &&
    decide ((((s.force.get 0x2508).toNat : Nat) : Rat) ≤ x.2.delta))

def State.candMatch (s : State) (strong : List (Nat × Peak)) : List (Nat × Nat) :=
  s.matchUp (s.tr.cands.zipIdx.map (fun x => (x.2, x.1.1))) strong

/-- The candidates of this output with the outputs they have been candidates in: those that go on, then the new ones (R225). -/
def State.candsOn (s : State) (peaks strong : List (Nat × Peak)) : List (Contact × Nat) :=
  (s.tr.cands.zipIdx.filterMap (fun x => (hitOf peaks (s.candMatch strong) x.2).map (fun p =>
    (Contact.take { x.1.1 with palm := false } p (s.force.get 0x250C).toNat, x.1.2 + 1)))) ++
  (strong.filter (fun x => !((s.candMatch strong).map (·.2)).contains x.1)).map (fun x =>
    ({ x.2.c with palm := decide ((s.force.get 0x250C).toNat ≤ x.2.c.area) }, 1))

def State.candDue (s : State) (x : Contact × Nat) : Bool :=
  decide (max 1 (fld (s.force.get 0x250A) 3 0) ≤ x.2) && !(wbit (s.force.get 0x2501) 2 && x.1.wet)

def State.candsDue (s : State) (debug : Bool) (peaks : List (Nat × Peak)) : List (Contact × Nat) :=
  ((s.candsOn peaks (s.strongPeaks debug peaks)).filter s.candDue).mergeSort (fun a b => decide (b.1.amp ≤ a.1.amp))

/-- The state after the footprints of stuck contacts are given up (R228). -/
def State.stuckEnded (s : State) (debug : Bool) (peaks : List (Nat × Peak)) : State :=
  s.stuckClose (((s.closing debug peaks).filter (fun x => decide (x.2 = Event.up 3))).map (·.1))

def State.opening (s : State) (debug : Bool) (peaks : List (Nat × Peak)) : List Contact × List (Contact × Nat) × Nat × Bool :=
  (s.stuckEnded debug peaks).openCands (s.candsDue debug peaks) (20 - ((s.staying debug peaks).map (·.1)).length)
    (((s.staying debug peaks).map (·.1)).map (·.id) ++ (s.closing debug peaks).map (fun x => x.1.id)) (s.stuckEnded debug peaks).tr.lastId

/-- The events of an output in order: UPs, DOWNs, MOVEs (R230). -/
def State.outputEvents (s : State) (debug : Bool) (peaks : List (Nat × Peak)) : List (Contact × Event) :=
  s.closing debug peaks ++
    ((s.opening debug peaks).1.mergeSort (fun a b => decide (a.id ≤ b.id))).map (fun c => (c, Event.down)) ++
    ((s.staying debug peaks).filter (·.2)).map (fun x => (x.1, Event.move))

/-- A debug halt is over (Table TR-3). -/
def State.debugOver (s : State) : State := { s with ms := { s.ms with debugUps := false } }

/-- The contacts and candidates after an output, before its reports. -/
def State.trackedOn (s : State) (o : Output) (debug : Bool) (peaks : List (Nat × Peak)) : State :=
  let t := ((s.stuckEnded debug peaks).stamp o.t32).2
  State.setFlagIf { t with tr := { t.tr with
    contacts := (s.staying debug peaks).map (·.1) ++ (s.opening debug peaks).1
    cands := (s.candsOn peaks (s.strongPeaks debug peaks)).filter (fun x => !s.candDue x || (s.opening debug peaks).2.1.contains x)
    lastTs := ((s.stuckEnded debug peaks).stamp o.t32).1, lastId := (s.opening debug peaks).2.2.1 } }
    (s.opening debug peaks).2.2.2 0x25 0

/-- The state after the reports of an output. -/
def State.outputReported (s : State) (o : Output) (debug : Bool) (peaks : List (Nat × Peak)) : State :=
  (s.trackedOn o debug peaks).contactReports
    ((s.outputEvents debug peaks).map (fun x => (({ x.1 with prim := o.prim } : Contact), x.2)))
    ((s.stuckEnded debug peaks).stamp o.t32).1

theorem trellisProcess_eq (s : State) (o : Output) : s.trellisProcess o =
    (if (((s.debugOver.opening s.ms.debugUps (s.numbered o)).1.mergeSort (fun a b => decide (a.id ≤ b.id))).map
        (fun c => (c, Event.down))).isEmpty
      then s.debugOver.outputReported o s.ms.debugUps (s.numbered o)
      else (s.debugOver.outputReported o s.ms.debugUps (s.numbered o)).noteDown).idleCheck := rfl

end Machine
end Sys2Proof
end

section
/-! SUPPORT. What one output does to the contacts: which go on, which close, which open, and with what IDs (R225 to R228, R230). -/

namespace Sys2Proof
namespace Machine

/-! Matching (R225). -/

/-- Only a listed pair is matched. -/
theorem matchPairs_mem (l : List (Nat × Nat × Nat × Nat)) : ∀ (acc : List (Nat × Nat)) (p : Nat × Nat), p ∈ matchPairs l acc →
    p ∈ acc ∨ ∃ d key, (d, key, p.1, p.2) ∈ l := by
  induction l with
  | nil => exact fun acc p h => .inl h
  | cons x l ih =>
    obtain ⟨d, key, t, k⟩ := x
    intro acc p h
    have hlater (h : p ∈ acc ∨ ∃ d key, (d, key, p.1, p.2) ∈ l) :
        p ∈ acc ∨ ∃ d' key', (d', key', p.1, p.2) ∈ (d, key, t, k) :: l :=
      h.imp_right fun ⟨d', key', hm⟩ => ⟨d', key', List.mem_cons_of_mem _ hm⟩
    rw [matchPairs] at h
    split at h
    · exact hlater (ih acc p h)
    · rcases ih _ p h with h | h
      · rcases List.mem_append.1 h with h | h
        · exact .inl h
        · obtain rfl := List.mem_singleton.1 h
          exact .inr ⟨d, key, List.mem_cons_self⟩
      · exact hlater (.inr h)

/-- A target that is matched lies within TRKDIST of one of the peaks. -/
theorem matchUp_near {s : State} {targets : List (Nat × Contact)} {peaks : List (Nat × Peak)} {p : Nat × Nat}
    (h : p ∈ s.matchUp targets peaks) : ∃ x q, targets[p.1]? = some x ∧ (p.2, q) ∈ peaks ∧
      dist2 x.2 q.c ≤ (s.force.get 0x250B).toNat * (s.force.get 0x250B).toNat := by
  obtain hnil | ⟨d, key, hpair⟩ := matchPairs_mem _ _ _ h
  · cases hnil
  rw [List.mem_mergeSort, List.mem_flatMap] at hpair
  obtain ⟨⟨x, t⟩, hx, hpair⟩ := hpair
  obtain ⟨⟨k, q⟩, hq, hnear⟩ := List.mem_filterMap.1 hpair
  dsimp only at hnear
  split at hnear
  · next hd =>
    obtain rfl : (t, k) = p := congrArg (fun z => z.2.2) (Option.some.inj hnear)
    exact ⟨x, q, List.mem_zipIdx_iff_getElem?.1 hx, hq, hd⟩
  · cases hnear

/-- A target that no peak comes near is not matched. -/
theorem hitOf_matchUp_none {s : State} {targets : List (Nat × Contact)} {peaks ps : List (Nat × Peak)} {x : Nat × Contact} {i : Nat}
    (hx : targets[i]? = some x)
    (h : ∀ p ∈ peaks, (s.force.get 0x250B).toNat ^ 2 < dist2 x.2 p.2.c) : hitOf ps (s.matchUp targets peaks) i = none := by
  have hnone : (s.matchUp targets peaks).find? (fun p => p.1 == i) = none := by
    refine List.find?_eq_none.2 fun p hp hi => ?_
    obtain ⟨y, q, hy, hq, hnear⟩ := matchUp_near hp
    rw [eq_of_beq hi, hx] at hy
    obtain rfl := Option.some.inj hy
    have hfar := h _ hq
    rw [pow_two] at hfar
    exact absurd hnear (Nat.not_le.2 hfar)
  rw [hitOf, hnone]
  rfl

/-! The contacts that go on (R227, R229). -/

@[simp] theorem goOn_id (s : State) (c : Contact) (hit : Option Contact) : (s.goOn c hit).1.id = c.id := by
  cases hit with
  | none => rfl
  | some p =>
    unfold State.goOn Contact.follow
    dsimp only
    split <;> rfl

theorem continued_ids (s : State) (debug : Bool) (peaks : List (Nat × Peak)) :
    (s.continued debug peaks).map (fun y => y.1.id) = (s.tracked debug).map (·.id) := by
  conv_rhs => rw [← List.zipIdx_map_fst 0 (s.tracked debug), List.map_map]
  rw [State.continued, List.map_map]
  exact List.map_congr_left fun x _ => goOn_id ..

theorem mem_byId {s : State} {c : Contact} : c ∈ s.byId ↔ c ∈ s.tr.contacts := List.mem_mergeSort

theorem contact_of_continued {s : State} {debug : Bool} {peaks : List (Nat × Peak)} {y : Contact × Bool}
    (h : y ∈ s.continued debug peaks) : debug = false ∧ ∃ x ∈ s.tr.contacts, x.id = y.1.id := by
  have hid := List.mem_map_of_mem (f := fun y : Contact × Bool => y.1.id) h
  rw [continued_ids] at hid
  cases debug with
  | true => cases hid
  | false =>
    obtain ⟨x, hx, hxid⟩ := List.mem_map.1 hid
    exact ⟨rfl, x, mem_byId.1 hx, hxid⟩

/-- A continued contact stays or closes, by its verdict. -/
theorem mem_staying {s : State} {debug : Bool} {peaks : List (Nat × Peak)} {y : Contact × Bool} :
    y ∈ s.staying debug peaks ↔ y ∈ s.continued debug peaks ∧ s.verdictOn y = none := by
  simp [State.staying]

/-- Every contact either stays, by its ID, or closes. -/
theorem contact_stays_or_closes {s : State} (debug : Bool) (peaks : List (Nat × Peak)) {c : Contact} (h : c ∈ s.tr.contacts) :
    c.id ∈ ((s.staying debug peaks).map (·.1)).map (·.id) ∨ c.id ∈ (s.closing debug peaks).map (fun x => x.1.id) := by
  cases debug with
  | true =>
    refine .inr (List.mem_map.2 ⟨(c, .up 5), List.mem_append_left _ ?_, rfl⟩)
    exact List.mem_map_of_mem (mem_byId.2 h)
  | false =>
    have hid : c.id ∈ (s.continued false peaks).map (fun y => y.1.id) := by
      rw [continued_ids]
      exact List.mem_map_of_mem (mem_byId.2 h)
    obtain ⟨y, hy, hyid⟩ := List.mem_map.1 hid
    rw [← hyid]
    cases hv : s.verdictOn y with
    | none => exact .inl (List.mem_map_of_mem (f := Contact.id) (List.mem_map_of_mem (mem_staying.2 ⟨hy, hv⟩)))
    | some r =>
      refine .inr (List.mem_map.2 ⟨(y.1, .up r), List.mem_append_right _ (List.mem_filterMap.2 ⟨y, hy, ?_⟩), rfl⟩)
      rw [hv]
      rfl

/-! The candidates (R225). -/

/-- A candidate that is due has been one in as many outputs as DEB's first field says. -/
theorem candsDue_age {s : State} {debug : Bool} {peaks : List (Nat × Peak)} {x : Contact × Nat} (h : x ∈ s.candsDue debug peaks) :
    (s.force.get 0x250A).toNat % 16 ≤ 1 ∨ ∃ y ∈ s.tr.cands, (s.force.get 0x250A).toNat % 16 ≤ y.2 + 1 := by
  rw [State.candsDue, List.mem_mergeSort, List.mem_filter, State.candsOn, List.mem_append] at h
  obtain ⟨hx, hdue⟩ := h
  have hage : (s.force.get 0x250A).toNat % 16 ≤ x.2 := by
    have hfld : fld (s.force.get 0x250A) 3 0 = (s.force.get 0x250A).toNat % 16 := by simp [fld]
    rw [State.candDue, hfld, Bool.and_eq_true, decide_eq_true_eq] at hdue
    omega
  rcases hx with hx | hx
  · obtain ⟨⟨y, i⟩, hy, hsome⟩ := List.mem_filterMap.1 hx
    obtain ⟨p, -, rfl⟩ := Option.map_eq_some_iff.1 hsome
    exact .inr ⟨y, List.fst_mem_of_mem_zipIdx hy, hage⟩
  · obtain ⟨y, -, rfl⟩ := List.mem_map.1 hx
    exact .inl hage

/-! The contacts that open (R225, R226). -/

theorem freeId_spec {s : State} {taken : List Nat} {last id : Nat} (h : s.freeId taken last = some id) :
    id ∉ taken ∧ s.idHeld id = false := by
  have hfound := List.find?_some h
  simpa using hfound

/-- A contact as it opens from the candidates `l`: its ID is new, and its reference stands where it is (R226, R228). -/
def State.opens (s : State) (l : List (Contact × Nat)) (taken : List Nat) (c : Contact) : Prop :=
  c.id ∉ taken ∧ s.idHeld c.id = false ∧ c.refX = c.x ∧ c.refY = c.y ∧ c.refAt = s.tb.hcpos ∧ l ≠ []

theorem State.opens.mono {s : State} {l : List (Contact × Nat)} {taken taken' : List Nat} {c : Contact} (x : Contact × Nat)
    (h : s.opens l taken' c) (ht : taken ⊆ taken') : s.opens (x :: l) taken c :=
  ⟨fun hc => h.1 (ht hc), h.2.1, h.2.2.1, h.2.2.2.1, h.2.2.2.2.1, nofun⟩

theorem openCands_spec (s : State) (l : List (Contact × Nat)) : ∀ (places : Nat) (taken : List Nat) (last : Nat),
    (s.openCands l places taken last).1.length ≤ places ∧ ∀ c ∈ (s.openCands l places taken last).1, s.opens l taken c := by
  induction l with
  | nil => exact fun places taken last => ⟨Nat.zero_le _, nofun⟩
  | cons x l ih =>
    intro places taken last
    cases places with
    | zero =>
      obtain ⟨hlen, hopen⟩ := ih 0 taken last
      exact ⟨hlen, fun c hc => (hopen c hc).mono x fun _ h => h⟩
    | succ places =>
      rw [State.openCands]
      cases hid : s.freeId taken last with
      | none =>
        obtain ⟨hlen, hopen⟩ := ih 0 taken last
        exact ⟨Nat.le_succ_of_le (Nat.le_trans hlen (Nat.zero_le _)), fun c hc => (hopen c hc).mono x fun _ h => h⟩
      | some id =>
        obtain ⟨hlen, hopen⟩ := ih places (id :: taken) id
        obtain ⟨hnew, hfree⟩ := freeId_spec hid
        refine ⟨Nat.succ_le_succ hlen, fun c hc => ?_⟩
        rcases List.mem_cons.1 hc with rfl | hc
        · exact ⟨hnew, hfree, rfl, rfl, rfl, nofun⟩
        · exact (hopen c hc).mono x (List.subset_cons_self ..)

theorem stuckClose_frame (s : State) (cs : List Contact) : s.stuckClose cs = { s with
    regs := (s.stuckClose cs).regs, flagged := (s.stuckClose cs).flagged
    tr := { s.tr with reacq := s.tr.reacq ++ cs.map stuckReacq } } :=
  (setFlagIf_frame ..).trans rfl

/-- What opens at an output: at most 20 contacts then stand, and each new one has an ID that no contact had before it. -/
theorem opening_spec (s : State) (debug : Bool) (peaks : List (Nat × Peak)) :
    (s.opening debug peaks).1.length ≤ 20 - (s.staying debug peaks).length ∧
      ∀ c ∈ (s.opening debug peaks).1, (∀ x ∈ s.tr.contacts, x.id ≠ c.id) ∧
        c.id ∉ ((s.staying debug peaks).map (·.1)).map (·.id) ∧ c.id ∉ (s.closing debug peaks).map (fun x => x.1.id) ∧
        s.idHeld c.id = false ∧ c.refX = c.x ∧ c.refY = c.y ∧ c.refAt = s.tb.hcpos ∧
        ((s.force.get 0x250A).toNat % 16 ≤ 1 ∨ ∃ x ∈ s.tr.cands, (s.force.get 0x250A).toNat % 16 ≤ x.2 + 1) := by
  obtain ⟨hlen, hopen⟩ := openCands_spec (s.stuckEnded debug peaks) (s.candsDue debug peaks)
    (20 - ((s.staying debug peaks).map (·.1)).length)
    (((s.staying debug peaks).map (·.1)).map (·.id) ++ (s.closing debug peaks).map (fun x => x.1.id))
    (s.stuckEnded debug peaks).tr.lastId
  refine ⟨hlen.trans_eq (congrArg (20 - ·) (List.length_map _)), fun c hc => ?_⟩
  obtain ⟨hnew, hheld, hx, hy, hat, hdue⟩ := hopen c hc
  rw [List.mem_append, not_or] at hnew
  obtain ⟨hstay, hclose⟩ := hnew
  obtain ⟨y, hy'⟩ := List.exists_mem_of_ne_nil _ hdue
  refine ⟨fun x hxc hid => ?_, hstay, hclose, ?_, hx, hy, ?_, candsDue_age hy'⟩
  · rcases contact_stays_or_closes debug peaks hxc with h | h
    · exact hstay (hid ▸ h)
    · exact hclose (hid ▸ h)
  · rw [← hheld, State.stuckEnded, stuckClose_frame]
    rfl
  · rw [hat, State.stuckEnded, stuckClose_frame]

/-! How many close and how many open. -/

/-- The contacts after an output. -/
def State.contactsAfter (s : State) (debug : Bool) (peaks : List (Nat × Peak)) : List Contact :=
  (s.staying debug peaks).map (·.1) ++ (s.opening debug peaks).1

theorem contactsAfter_length {s : State} (debug : Bool) (peaks : List (Nat × Peak)) (h : s.tr.contacts.length ≤ 20) :
    (s.contactsAfter debug peaks).length ≤ 20 := by
  obtain ⟨hlen, -⟩ := opening_spec s debug peaks
  have hstay : (s.staying debug peaks).length ≤ s.tr.contacts.length := by
    refine (List.length_filter_le ..).trans ?_
    rw [State.continued, List.length_map, List.length_zipIdx, State.tracked]
    split
    · exact Nat.zero_le _
    · exact (List.length_mergeSort ..).le
  rw [State.contactsAfter, List.length_append, List.length_map]
  omega

/-- A contact that no contact preceded has opened. -/
theorem opened_of_new {s : State} {debug : Bool} {peaks : List (Nat × Peak)} {c : Contact} (hc : c ∈ s.contactsAfter debug peaks)
    (hnew : ∀ x ∈ s.tr.contacts, x.id ≠ c.id) : c ∈ (s.opening debug peaks).1 := by
  rcases List.mem_append.1 hc with hc | hc
  · obtain ⟨y, hy, rfl⟩ := List.mem_map.1 hc
    obtain ⟨-, x, hx, hid⟩ := contact_of_continued (mem_staying.1 hy).1
    exact absurd hid (hnew x hx)
  · exact hc

/-- After a debug halt every contact is a new one (R227). -/
theorem new_of_debug {s : State} {peaks : List (Nat × Peak)} {c : Contact} (hc : c ∈ s.contactsAfter true peaks) :
    ∀ x ∈ s.tr.contacts, x.id ≠ c.id := by
  rcases List.mem_append.1 hc with hc | hc
  · obtain ⟨y, hy, -⟩ := List.mem_map.1 hc
    exact absurd (contact_of_continued (mem_staying.1 hy).1).1 nofun
  · exact ((opening_spec s true peaks).2 c hc).1

theorem opened_count (s : State) (debug : Bool) (peaks : List (Nat × Peak)) :
    ((s.contactsAfter debug peaks).filter (fun c => !(s.tr.contacts.map (·.id)).contains c.id)).length =
      (s.opening debug peaks).1.length := by
  rw [State.contactsAfter, List.filter_append, List.filter_eq_nil_iff.2, List.filter_eq_self.2, List.nil_append]
  · intro c hc
    have hnew := ((opening_spec s debug peaks).2 c hc).1
    simpa using hnew
  · intro c hc
    obtain ⟨y, hy, rfl⟩ := List.mem_map.1 hc
    obtain ⟨-, x, hx, hid⟩ := contact_of_continued (mem_staying.1 hy).1
    simpa using ⟨x, hx, hid⟩

/-- A continued contact is gone after the output exactly where it closes. -/
theorem gone_iff_closes {s : State} {debug : Bool} {peaks : List (Nat × Peak)} {y : Contact × Bool}
    (hids : (s.tr.contacts.map (·.id)).Nodup) (hy : y ∈ s.continued debug peaks) :
    y.1.id ∉ (s.contactsAfter debug peaks).map (·.id) ↔ (s.verdictOn y).isSome = true := by
  obtain ⟨rfl, x, hx, hid⟩ := contact_of_continued hy
  have hids' : ((s.continued false peaks).map (fun y => y.1.id)).Nodup := by
    rw [continued_ids]
    exact ((List.mergeSort_perm ..).map _).nodup_iff.2 hids
  cases hv : s.verdictOn y with
  | none =>
    refine iff_of_false (fun h => h ?_) nofun
    exact List.mem_map_of_mem (List.mem_append_left _ (List.mem_map_of_mem (mem_staying.2 ⟨hy, hv⟩)))
  | some r =>
    refine iff_of_true (fun h => ?_) rfl
    obtain ⟨c, hc, hcid⟩ := List.mem_map.1 h
    rcases List.mem_append.1 hc with hc | hc
    · obtain ⟨z, hz, rfl⟩ := List.mem_map.1 hc
      obtain ⟨hz, hzv⟩ := mem_staying.1 hz
      obtain rfl : z = y := List.inj_on_of_nodup_map hids' hz hy hcid
      rw [hv] at hzv
      cases hzv
    · exact ((opening_spec s false peaks).2 c hc).1 x hx (hid.trans hcid.symm)

theorem closed_count {s : State} (debug : Bool) (peaks : List (Nat × Peak)) (hids : (s.tr.contacts.map (·.id)).Nodup) :
    (s.tr.contacts.filter (fun c => !((s.contactsAfter debug peaks).map (·.id)).contains c.id)).length =
      (s.closing debug peaks).length := by
  rw [← List.countP_eq_length_filter, ← (List.mergeSort_perm s.tr.contacts (fun a b => decide (a.id ≤ b.id))).countP_eq]
  cases debug with
  | true =>
    have hall : ∀ c ∈ s.byId, (!((s.contactsAfter true peaks).map (·.id)).contains c.id) = true := by
      intro c hc
      have hnew : ∀ x ∈ s.contactsAfter true peaks, x.id ≠ c.id := fun x hx hid => new_of_debug hx c (mem_byId.1 hc) hid.symm
      simpa using hnew
    rw [← State.byId, List.countP_eq_length.2 hall, State.closing, State.continued, State.tracked]
    simp
  | false =>
    have hmap : s.byId.countP (fun c => !((s.contactsAfter false peaks).map (·.id)).contains c.id) =
        (s.continued false peaks).countP (fun y => !((s.contactsAfter false peaks).map (·.id)).contains y.1.id) := by
      have hcount := congrArg (List.countP (fun i => !((s.contactsAfter false peaks).map (·.id)).contains i))
        (continued_ids s false peaks)
      rw [List.countP_map, List.countP_map] at hcount
      exact hcount.symm
    rw [← State.byId, hmap, State.closing, if_neg Bool.false_ne_true, List.nil_append, List.length_filterMap_eq_countP]
    refine List.countP_congr fun y hy => ?_
    rw [Option.isSome_map, ← gone_iff_closes hids hy]
    simp

/-! A contact that no peak continues (R227). -/

theorem missed_mem {s : State} {peaks : List (Nat × Peak)} {c : Contact} (hc : c ∈ s.tr.contacts)
    (hfar : ∀ p ∈ peaks, (s.force.get 0x250B).toNat ^ 2 < dist2 c p.2.c) :
    ({ c with miss := c.miss + 1 }, false) ∈ s.continued false peaks := by
  obtain ⟨i, hi⟩ := List.mem_iff_getElem?.1 (mem_byId.2 hc)
  have hnone : hitOf peaks (s.contactMatch false peaks) i = none :=
    hitOf_matchUp_none (x := (c.id, c)) (by rw [List.getElem?_map]; exact congrArg (Option.map _) hi) hfar
  refine List.mem_map.2 ⟨(c, i), List.mem_zipIdx_iff_getElem?.2 hi, ?_⟩
  rw [hnone]
  rfl

/-- Such a contact stays while its misses are fewer than DEB's second field. -/
theorem missed_verdict {s : State} {c : Contact} (hs : s.stuckNow c = false) :
    s.verdictOn ({ c with miss := c.miss + 1 }, false) =
      if max 1 ((s.force.get 0x250A).toNat / 16 % 16) ≤ c.miss + 1 then some 0 else none := by
  have hstuck : s.stuckNow { c with miss := c.miss + 1 } = false := hs
  rw [State.verdictOn, hstuck, if_neg Bool.false_ne_true]
  exact if_congr (by simp [fld]) rfl rfl

end Machine
end Sys2Proof
end

section
/-! SUPPORT. The records of a slot as they arrive leave those still under way alone (R187). -/

namespace Sys2Proof
namespace Machine

theorem scan_foldl {α : Type} {f : State → α → State} (h : ∀ s a, (f s a).scan = s.scan) (l : List α) (s : State) :
    (l.foldl f s).scan = s.scan :=
  List.foldlRecOn (motive := fun t : State => t.scan = s.scan) l f rfl fun _ ht a _ => (h _ a).trans ht

/-! The Cloche, the health values, the resampler and the Trellis work on their own parts of the state. -/

theorem scan_fillFree (l : List (Option Nat)) : ∀ s : State, (s.fillFree l).2.scan = s.scan := by
  induction l with
  | nil => exact fun _ => rfl
  | cons x l ih =>
    intro s
    cases x with
    | some v => exact ih s
    | none => exact ih s.draw

theorem scan_chargerUpdate (s : State) : s.chargerUpdate.scan = s.scan := by
  unfold State.chargerUpdate
  extract_lets known best u lvl chg
  have hu : u.scan = s.scan := by
    clear_value best
    cases best <;> rfl
  simp [apply_ite State.scan, hu]

theorem scan_clocheInjected (s : State) (i : Nat) (els : List ElecRecs) : (s.clocheInjected i els).scan = s.scan := by
  refine (scan_chargerUpdate _).trans ?_
  split
  · split
    · rfl
    · exact scan_foldl (fun u q => by split <;> rfl) _ s
  · rfl

theorem scan_setMaps (b v : Nat → Nat) (l : List Nat) (s : State) : (l.foldl (fun s n => s.setMap (b n) (v n)) s).scan = s.scan :=
  scan_foldl (fun _ _ => State.setMap_scan ..) l s

theorem scan_clocheFrame (s : State) (c : FrameCtx) : (s.clocheFrame c).scan = s.scan := by
  unfold State.clocheFrame
  dsimp only
  generalize hu : State.chargerUpdate _ = u
  have h : u.scan = s.scan := by
    rw [← hu, scan_chargerUpdate, scan_setMaps, scan_setMaps]
    exact (scan_fillFree ..).trans (scan_fillFree ..)
  simp [apply_ite State.scan, h]

theorem scan_healthCheck (s : State) (v : Health) : (s.healthCheck v).scan = s.scan := by
  unfold State.healthCheck
  split
  · rfl
  · dsimp only
    split <;> simp

theorem scan_declare (s : State) (lane cause : Nat) (forming : Bool) (frame : Nat) : (s.declare lane cause forming frame).scan = s.scan := by
  simp [State.declare, apply_ite State.scan]

theorem scan_formEnd (s : State) (frame : Nat) : (s.formEnd frame).scan = s.scan := by
  unfold State.formEnd
  dsimp only
  split
  · rfl
  · exact (scan_foldl (fun _ _ => scan_declare ..) _ _).trans (scan_foldl (fun _ _ => State.setReg_scan ..) _ _)

theorem scan_takeTarget (s : State) (h : List HistFrame) (t0 t : Int) : (s.takeTarget h t0 t).scan = s.scan := by
  unfold State.takeTarget
  split_ifs <;> rfl

theorem scan_freeRun (h : List HistFrame) (upTo : Int) (fuel : Nat) : ∀ s : State, (s.freeRun h upTo fuel).scan = s.scan := by
  induction fuel with
  | zero => exact fun _ => rfl
  | succ fuel ih =>
    intro s
    unfold State.freeRun
    split
    · dsimp only
      split
      · exact (ih _).trans (scan_takeTarget ..)
      · rfl
    · rfl

theorem scan_resolveTargets (f : HistFrame) (ts : List Int) : ∀ s : State, (s.resolveTargets f ts).scan = s.scan := by
  induction ts with
  | nil => exact fun _ => rfl
  | cons t ts ih =>
    intro s
    unfold State.resolveTargets
    split
    · exact ih s
    · dsimp only
      split
      · split <;> exact ih _
      · exact ih _

theorem scan_resamplerEnter (s : State) (starts : List Nat) (gdly : Nat) (cells : List (List Cell)) :
    (s.resamplerEnter starts gdly cells).scan = s.scan := by
  unfold State.resamplerEnter
  extract_lets no f hist _ _ early _ u _ v w n x
  have hv : v.scan = s.scan := by
    dsimp only [v]
    split
    · split
      · exact scan_foldl (fun _ _ => scan_takeTarget ..) _ _
      · exact scan_takeTarget ..
    · rfl
  have hw : w.scan = v.scan := by
    dsimp only [w]
    split
    · exact scan_freeRun ..
    · rfl
  have hx : x.scan = s.scan := (scan_resolveTargets ..).trans (hw.trans hv)
  clear_value x
  split <;> exact hx

theorem scan_baseForm (s : State) (re : Bool) (no : Nat) : (s.baseForm re no).scan = s.scan := by
  simp [State.baseForm, apply_ite State.scan]

theorem scan_calFrame (s : State) (c : FrameCtx) : (s.calFrame c).scan = s.scan := by
  have hpoint (u : State) (pt : Nat) (m : CalMeas) (ok : Bool) : (u.pointEnd pt m ok).scan = u.scan := by cases ok <;> rfl
  unfold State.calFrame
  split
  · rfl
  · extract_lets _ _ _ _ _ _ _ m _ u
    have hu : u.scan = s.scan := rfl
    clear_value m u
    split
    · split <;> exact hu
    · split_ifs
      · exact (hpoint ..).trans hu
      · exact (hpoint ..).trans hu
      · exact hu

theorem scan_peekLoad (s : State) (c : FrameCtx) : (s.peekLoad c).scan = s.scan := by
  unfold State.peekLoad
  dsimp only
  split
  · simp
  · rfl

/-! The entry of a frame changes the frames that gather records, and no other part of the scan. -/

theorem scan_normalEntry (s : State) (c : FrameCtx) : (s.normalEntry c).scan = s.scan := by
  have hframe (u : State) (cells : List (List Cell)) : (u.trellisFrame c.no cells c.selfVals).scan = u.scan :=
    (State.setFlagIf_scan ..).trans (State.setFlagIf_scan ..)
  refine (scan_calFrame ..).trans ((scan_clocheFrame ..).trans ((hframe ..).trans ?_))
  split
  · exact scan_resamplerEnter ..
  · rfl

theorem scan_baseEntry (s : State) (c : FrameCtx) : (s.baseEntry c).scan = s.scan := by
  unfold State.baseEntry
  extract_lets u v
  have hv : v.scan = s.scan := by
    dsimp only [v]
    split_ifs
    · exact scan_baseForm ..
    · exact scan_baseForm ..
    · rfl
  exact (scan_clocheFrame v c).trans hv

theorem flight_frameEntry (s : State) (c : FrameCtx) : (s.frameEntry c).scan.flight = s.scan.flight := by
  unfold State.frameEntry
  extract_lets _ u v w
  have hv : v.scan = u.scan := by
    dsimp only [v, State.impulsePassed]
    split <;> rfl
  have hw : w.scan = u.scan := (scan_peekLoad ..).trans hv
  have hu : u.scan.flight = s.scan.flight := rfl
  rw [← hu]
  clear_value w v
  split
  · rfl
  split
  · rfl
  split
  · exact congrArg Scan.flight hv
  split
  · exact congrArg Scan.flight ((scan_normalEntry ..).trans hw)
  · exact congrArg Scan.flight ((scan_baseEntry ..).trans hw)

theorem flight_frameCheck (s : State) (c : FrameCtx) : (s.frameCheck c).scan.flight = s.scan.flight := by
  unfold State.frameCheck
  dsimp only
  split
  · rfl
  · refine List.foldlRecOn (motive := fun t : State => t.scan.flight = s.scan.flight) _ _ rfl fun u hu f _ => ?_
    have hdeclared := (congrArg Scan.flight (scan_declare u f.1 f.2.2 false c.no)).trans hu
    split <;> exact hdeclared

theorem flight_healthSlot (s : State) (c : FrameCtx) (e : Nat) (hs : List Health) :
    (s.healthSlot c e hs).scan.flight = s.scan.flight := by
  unfold State.healthSlot
  extract_lets u _ v
  have hu : u.scan = s.scan := by
    dsimp only [u]
    split <;> rfl
  have hv : v.scan = s.scan := by
    refine Eq.trans ?_ hu
    dsimp only [v]
    split
    · split <;> rfl
    · exact scan_foldl scan_healthCheck hs u
  clear_value v
  split
  · exact congrArg Scan.flight hv
  split
  · refine congrArg Scan.flight (Eq.trans ?_ hv)
    split
    · exact scan_formEnd ..
    · rfl
  · exact (flight_frameCheck ..).trans (congrArg Scan.flight hv)

theorem flight_recordsIn (s : State) (r : SlotRecs) : (s.recordsIn r).scan.flight = s.scan.flight := by
  unfold State.recordsIn
  split
  · split
    · rfl
    · exact congrArg Scan.flight (scan_clocheInjected ..)
  · rfl
  · split
    · rfl
    · extract_lets _ u
      split
      · rfl
      · extract_lets v
        have h : v.scan.flight = s.scan.flight := by
          dsimp only [v]
          split
          · exact flight_healthSlot ..
          · rfl
        clear_value v
        split
        · split
          · exact (flight_frameEntry ..).trans h
          · exact h
        · exact h

end Machine
end Sys2Proof
end

section
/-! SUPPORT. Records, outputs that become ready, and the outputs at the Trellis (R76, R187, R194, R195, R225 to R230, R244). -/

namespace Sys2Proof
namespace Machine

/-! What an output at the Trellis leaves alone. -/

theorem regsOnly_stamp (s : State) (t32 : Int) : s.regsOnly (s.stamp t32).2 := by
  unfold State.stamp
  split
  · rfl
  split
  · exact regsOnly_setFlagIf ..
  · rfl

/-- `t` is `s` but for registers, flags and the Trellis. -/
def State.trellisOnly (s t : State) : Prop := t = { s with regs := t.regs, flagged := t.flagged, tr := t.tr }

theorem State.trellisOnly.trans {s t u : State} (h : s.trellisOnly t) (g : t.trellisOnly u) : s.trellisOnly u :=
  Eq.trans g (by rw [h])

theorem State.regsOnly.trellisOnly {s t : State} (h : s.regsOnly t) : s.trellisOnly t :=
  Eq.trans h (by rw [h])

theorem trellisOnly_stuckClose (s : State) (cs : List Contact) : s.trellisOnly (s.stuckClose cs) :=
  (stuckClose_frame s cs).trans (by rw [stuckClose_frame])

theorem trackedOn_spec (s : State) (o : Output) (debug : Bool) (peaks : List (Nat × Peak)) :
    s.trellisOnly (s.trackedOn o debug peaks) ∧ (s.trackedOn o debug peaks).tr.contacts = s.contactsAfter debug peaks := by
  have hstuck := trellisOnly_stuckClose s (((s.closing debug peaks).filter (fun x => decide (x.2 = Event.up 3))).map (·.1))
  have hstamp := (regsOnly_stamp (s.stuckEnded debug peaks) o.t32).trellisOnly
  unfold State.trackedOn
  generalize ((s.stuckEnded debug peaks).stamp o.t32).2 = t at hstamp
  refine ⟨((hstuck.trans hstamp).trans ?_).trans (regsOnly_setFlagIf ..).trellisOnly, ?_⟩
  · rfl
  · rw [setFlagIf_frame]
    rfl

/-- `t` is `s` but for the agenda, the idle time and a change of mode that is due of itself. -/
def State.modeDueOnly (s t : State) : Prop :=
  t = { s with agenda := t.agenda, ms := { s.ms with auto := t.ms.auto, idleAt := t.ms.idleAt } }

theorem State.modeDueOnly.trans {s t u : State} (h : s.modeDueOnly t) (g : t.modeDueOnly u) : s.modeDueOnly u :=
  Eq.trans g (by rw [h])

theorem modeDueOnly_idleCheck (s : State) : s.modeDueOnly s.idleCheck := by
  unfold State.idleCheck
  split
  · split <;> rfl
  · rfl

/-- After its reports, an output at the Trellis only makes a mode change or the idle time due. -/
theorem trellisProcess_modeDueOnly (s : State) (o : Output) :
    (s.debugOver.outputReported o s.ms.debugUps (s.numbered o)).modeDueOnly (s.trellisProcess o) := by
  rw [trellisProcess_eq]
  refine State.modeDueOnly.trans ?_ (modeDueOnly_idleCheck _)
  split <;> rfl

/-- Of the events of an output, the UPs are those that close a contact, the DOWNs those that open one. -/
theorem outputEvents_counts (s : State) (o : Output) (debug : Bool) (peaks : List (Nat × Peak)) :
    ((s.outputEvents debug peaks).map (fun x => (({ x.1 with prim := o.prim } : Contact), x.2))).countP
        (fun x => decide (x.2.code = 2)) = (s.closing debug peaks).length ∧
      ((s.outputEvents debug peaks).map (fun x => (({ x.1 with prim := o.prim } : Contact), x.2))).countP
        (fun x => decide (x.2.code = 0)) = (s.opening debug peaks).1.length := by
  have hups : ∀ x ∈ s.closing debug peaks, x.2.code = 2 := by
    intro x hx
    rcases List.mem_append.1 hx with hx | hx
    · split at hx
      · obtain ⟨c, -, rfl⟩ := List.mem_map.1 hx
        rfl
      · cases hx
    · obtain ⟨y, -, hy⟩ := List.mem_filterMap.1 hx
      obtain ⟨r, -, rfl⟩ := Option.map_eq_some_iff.1 hy
      rfl
  have hfirst : (s.closing debug peaks).countP (fun x => decide (x.2.code = 2)) = (s.closing debug peaks).length :=
    List.countP_eq_length.2 fun x hx => decide_eq_true (hups x hx)
  have hnone : (s.closing debug peaks).countP (fun x => decide (x.2.code = 0)) = 0 :=
    List.countP_eq_zero.2 fun x hx => by simp [hups x hx]
  simp only [State.outputEvents, List.countP_map, List.countP_append, Function.comp_def]
  rw [hfirst, hnone]
  simp [Event.code]

/-- The state in which the reports of an output are formed, and what they count. -/
theorem outputReported_spec (s : State) (o : Output) (debug : Bool) (peaks : List (Nat × Peak)) :
    (s.trackedOn o debug peaks).reportsOnly (s.outputReported o debug peaks) ∧
      (s.outputReported o debug peaks).rq.upCnt % 65536 = (s.rq.upCnt + (s.closing debug peaks).length) % 65536 ∧
      (s.outputReported o debug peaks).rq.downCnt % 65536 = (s.rq.downCnt + (s.opening debug peaks).1.length) % 65536 := by
  obtain ⟨hframe, hup, hdown⟩ := contactReports_spec (s.trackedOn o debug peaks)
    ((s.outputEvents debug peaks).map (fun x => (({ x.1 with prim := o.prim } : Contact), x.2)))
    ((s.stuckEnded debug peaks).stamp o.t32).1
  obtain ⟨hups, hdowns⟩ := outputEvents_counts s o debug peaks
  have hrq : (s.trackedOn o debug peaks).rq = s.rq := by rw [(trackedOn_spec s o debug peaks).1]
  rw [hups, hrq] at hup
  rw [hdowns, hrq] at hdown
  exact ⟨hframe, hup, hdown⟩

theorem trellisProcess_frame (s : State) (o : Output) : s.trellisProcess o = { s with
    regs := (s.trellisProcess o).regs, flagged := (s.trellisProcess o).flagged, agenda := (s.trellisProcess o).agenda
    tm := (s.trellisProcess o).tm, rq := (s.trellisProcess o).rq, tr := (s.trellisProcess o).tr
    ms := { s.ms with auto := (s.trellisProcess o).ms.auto, idleAt := (s.trellisProcess o).ms.idleAt, debugUps := false } } := by
  have hdue := trellisProcess_modeDueOnly s o
  obtain ⟨hreports, -, -⟩ := outputReported_spec s.debugOver o s.ms.debugUps (s.numbered o)
  obtain ⟨htracked, -⟩ := trackedOn_spec s.debugOver o s.ms.debugUps (s.numbered o)
  generalize s.debugOver.outputReported o s.ms.debugUps (s.numbered o) = v at hdue hreports
  generalize s.debugOver.trackedOn o s.ms.debugUps (s.numbered o) = w at hreports htracked
  generalize s.trellisProcess o = t at hdue ⊢
  rw [State.modeDueOnly] at hdue
  rw [State.reportsOnly] at hreports
  rw [hdue, hreports, htracked]
  rfl

theorem trellisProcess_contacts (s : State) (o : Output) :
    (s.trellisProcess o).tr.contacts = s.debugOver.contactsAfter s.ms.debugUps (s.numbered o) := by
  rw [trellisProcess_modeDueOnly s o, (outputReported_spec s.debugOver o s.ms.debugUps (s.numbered o)).1]
  exact (trackedOn_spec s.debugOver o s.ms.debugUps (s.numbered o)).2

theorem trellisProcess_counts (s : State) (o : Output) :
    (s.trellisProcess o).rq.upCnt % 65536 =
        (s.rq.upCnt + (s.debugOver.closing s.ms.debugUps (s.numbered o)).length) % 65536 ∧
      (s.trellisProcess o).rq.downCnt % 65536 =
        (s.rq.downCnt + (s.debugOver.opening s.ms.debugUps (s.numbered o)).1.length) % 65536 := by
  obtain ⟨-, hup, hdown⟩ := outputReported_spec s.debugOver o s.ms.debugUps (s.numbered o)
  rw [trellisProcess_modeDueOnly s o]
  exact ⟨hup, hdown⟩

/-! The outputs that wait for the Trellis (R76, R195, R230, R241). -/

/-- An output whose ready hc has come, and that has not been counted. -/
def State.uncounted (s : State) (o : Output) : Bool := decide (o.ready ≤ s.now) && !o.seen

def State.noteReady (s : State) (o : Output) : Output := if s.uncounted o then { o with seen := true } else o

theorem outputsReady_eq (s : State) : s.outputsReady = (s.sv.outs.filter s.uncounted).foldl State.outputSeen
    { s with sv := { s.sv with outs := s.sv.outs.map s.noteReady } } := rfl

theorem noteReady_of_counted {s : State} {l : List Output} (h : ∀ o ∈ l, s.uncounted o = false) :
    l.filter s.uncounted = [] ∧ l.map s.noteReady = l := by
  refine ⟨List.filter_eq_nil_iff.2 fun o ho => by simp [h o ho], (List.map_congr_left fun o ho => ?_).trans (List.map_id l)⟩
  rw [State.noteReady, h o ho]
  rfl

theorem outputsReady_of_none {s : State} (h : ∀ o ∈ s.sv.outs, o.ready ≤ s.now → o.seen = true) : s.outputsReady = s := by
  obtain ⟨hnew, hsame⟩ := noteReady_of_counted (s := s) (l := s.sv.outs) fun o ho => by
    simpa [State.uncounted] using h o ho
  rw [outputsReady_eq, hnew, hsame]
  rfl

theorem outputsReady_of_first {s : State} {o : Output} {l : List Output} (hs : s.sv.outs = o :: l) (hr : o.ready ≤ s.now)
    (hn : o.seen = false) (hl : ∀ p ∈ l, s.now < p.ready) :
    s.outputsReady = State.outputSeen { s with sv := { s.sv with outs := { o with seen := true } :: l } } o := by
  have hfirst : s.uncounted o = true := by simp [State.uncounted, hr, hn]
  obtain ⟨hnew, hsame⟩ := noteReady_of_counted (s := s) (l := l) fun p hp => by simp [State.uncounted, hl p hp]
  have hhead : s.noteReady o = { o with seen := true } := if_pos hfirst
  rw [outputsReady_eq, hs, List.filter_cons_of_pos hfirst, hnew, List.map_cons, hhead, hsame]
  rfl

theorem trellisNext_of_nil {s : State} (h : s.sv.outs = []) : s.trellisNext = s := by
  rw [State.trellisNext, h]

theorem trellisNext_of_cons {s : State} {o : Output} {l : List Output} (h : s.sv.outs = o :: l) : s.trellisNext =
    if !(o.seen && decide (o.ready + 4096 ≤ s.now)) then s
    else if !s.rq.waiting.isEmpty then s.after 1 .trellisOutput
    else if s.ms.halted then { s with sv := { s.sv with outs := l } }
    else State.trellisProcess { s with sv := { s.sv with outs := l } } o := by
  rw [State.trellisNext, h]

/-! Records (R187). -/

/-- Records whose hc has come. -/
def State.arrives (s : State) (r : SlotRecs) : Bool := decide (r.due ≤ s.now)

theorem recordsDue_eq (s : State) : s.recordsDue = (s.scan.flight.filter s.arrives).foldl State.recordsIn
    { s with scan := { s.scan with flight := s.scan.flight.filter (fun r => !s.arrives r) } } := rfl

theorem arrives_of_later {s : State} {l : List SlotRecs} (h : ∀ r ∈ l, s.now < r.due) :
    l.filter s.arrives = [] ∧ l.filter (fun r => !s.arrives r) = l :=
  ⟨List.filter_eq_nil_iff.2 fun r hr => by simpa [State.arrives] using h r hr,
    List.filter_eq_self.2 fun r hr => by simpa [State.arrives] using h r hr⟩

theorem recordsDue_of_none {s : State} (h : ∀ r ∈ s.scan.flight, s.now < r.due) : s.recordsDue = s := by
  obtain ⟨hdue, hrest⟩ := arrives_of_later h
  rw [recordsDue_eq, hdue, hrest]
  rfl

theorem recordsDue_of_first {s : State} {r : SlotRecs} {rest : List SlotRecs} (hs : s.scan.flight = r :: rest) (hr : r.due ≤ s.now)
    (hl : ∀ q ∈ rest, s.now < q.due) : s.recordsDue = State.recordsIn { s with scan := { s.scan with flight := rest } } r := by
  obtain ⟨hdue, hrest⟩ := arrives_of_later hl
  have hfirst : s.arrives r = true := decide_eq_true hr
  rw [recordsDue_eq, hs, List.filter_cons_of_pos hfirst, hdue, List.filter_cons_of_neg (by simp [hfirst]), hrest]
  rfl

/-- The frames with one slot's records joined to their frame. -/
def State.joined (s : State) (r : SlotRecs) : List FrameCtx :=
  s.scan.frames.map (fun (c : FrameCtx) => if c.no = r.frame then { c with got := c.got ++ [r] } else c)

theorem joined_no (s : State) (r : SlotRecs) : (s.joined r).map (·.no) = s.scan.frames.map (·.no) := by
  rw [State.joined, List.map_map]
  refine List.map_congr_left fun c _ => ?_
  dsimp only [Function.comp]
  split <;> rfl

/-- Records of a slot that was cut short, or of a calibration slot, join no frame. -/
theorem recordsIn_of_apart {s : State} {r : SlotRecs} (h : r.cut = true ∨ ∃ k, r.kind = .cal k) : s.recordsIn r = s := by
  unfold State.recordsIn
  rcases h with h | ⟨k, h⟩
  · split <;> simp [h]
  · rw [h]

theorem recordsIn_of_join {s : State} {r : SlotRecs} (hk : r.kind = .regular 6) (hc : r.cut = false) :
    s.recordsIn r = { s with scan := { s.scan with frames := s.joined r } } := by
  unfold State.recordsIn
  rw [hk, hc]
  dsimp only
  rw [if_neg Bool.false_ne_true]
  split <;> rfl

theorem joined_find {s : State} {r : SlotRecs} (h : ∃ c ∈ s.scan.frames, c.no = r.frame) :
    ∃ c, (s.joined r).find? (fun (c : FrameCtx) => decide (c.no = r.frame)) = some c := by
  obtain ⟨c, hc, hno⟩ := h
  have hmem : c.no ∈ (s.joined r).map (·.no) := by
    rw [joined_no]
    exact List.mem_map_of_mem hc
  obtain ⟨d, hd, hdno⟩ := List.mem_map.1 hmem
  exact Option.isSome_iff_exists.1 (List.find?_isSome.2 ⟨d, hd, decide_eq_true (hdno.trans hno)⟩)

theorem joined_replaced {s : State} {r : SlotRecs} (h : ∀ c ∈ s.scan.frames, c.no = r.frame → c.replaced = true) {c : FrameCtx}
    (hc : c ∈ s.joined r) (hno : c.no = r.frame) : c.replaced = true := by
  obtain ⟨d, hd, rfl⟩ := List.mem_map.1 hc
  split at hno
  · next heq =>
    rw [if_pos heq]
    exact h d hd heq
  · next hne => exact absurd hno hne

/-- The records of LS end a replaced frame (R244, R304). -/
theorem recordsIn_of_replaced {s : State} {r : SlotRecs} (hk : r.kind = .regular 7) (hc : r.cut = false)
    (hrep : ∀ c ∈ s.scan.frames, c.no = r.frame → c.replaced = true) (hex : ∃ c ∈ s.scan.frames, c.no = r.frame)
    (he : s.ms.entering = false) (hd : s.ms.due ≠ some 3) :
    s.recordsIn r = { s with
      scan := { s.scan with frames := (s.joined r).filter (fun (x : FrameCtx) => decide (x.no ≠ r.frame)) }
      rq := { s.rq with fscan := inc32 s.rq.fscan, frep := inc32 s.rq.frep } } := by
  obtain ⟨c, hfind⟩ := joined_find hex
  have hno : c.no = r.frame := by simpa using List.find?_some hfind
  have hreplaced := joined_replaced hrep (List.mem_of_find?_eq_some hfind) hno
  have hentry : s.recordsIn r = State.frameEntry { s with scan := { s.scan with frames := s.joined r } } c := by
    unfold State.recordsIn
    rw [hk, hc]
    dsimp only
    rw [if_neg Bool.false_ne_true]
    rw [State.joined] at hfind
    simp [hfind]
    rfl
  rw [hentry, State.frameEntry, hno, if_pos hreplaced]
  simp [he, hd]
  rfl

/-- The records' clauses: they arrive at their hc, and each kind does its part (R187, R244). -/
theorem exec_recordsReady {s : State} {r : SlotRecs} {rest : List SlotRecs} (hs : s.scan.flight = r :: rest) (hr : r.due ≤ s.now)
    (hl : ∀ q ∈ rest, s.now < q.due) :
    exec .recordsReady s = .next (State.recordsIn { s with scan := { s.scan with flight := rest } } r) :=
  congrArg Host.Outcome.next (recordsDue_of_first hs hr hl)

/-! The Trellis at an output that it takes. -/

/-- Peaks by index are the peaks. -/
theorem far_of_numbered {s : State} {o : Output} {c : Contact} (h : ∀ p ∈ s.peaks o, (s.force.get 0x250B).toNat ^ 2 < dist2 c p.c) :
    ∀ p ∈ s.numbered o, (s.force.get 0x250B).toNat ^ 2 < dist2 c p.2.c := by
  intro p hp
  obtain ⟨⟨q, k⟩, hq, rfl⟩ := List.mem_map.1 hp
  exact h q (List.fst_mem_of_mem_zipIdx hq)

/-- A contact that opens at an output (R226, R228). -/
theorem trellisProcess_opened {s : State} {o : Output} {c : Contact} (hc : c ∈ (s.trellisProcess o).tr.contacts)
    (hnew : ∀ x ∈ s.tr.contacts, x.id ≠ c.id) :
    s.idHeld c.id = false ∧ c.refX = c.x ∧ c.refY = c.y ∧ c.refAt = s.tb.hcpos ∧
      ((s.force.get 0x250A).toNat % 16 ≤ 1 ∨ ∃ x ∈ s.tr.cands, (s.force.get 0x250A).toNat % 16 ≤ x.2 + 1) := by
  rw [trellisProcess_contacts] at hc
  obtain ⟨-, -, -, hspec⟩ := (opening_spec s.debugOver s.ms.debugUps (s.numbered o)).2 c (opened_of_new hc hnew)
  exact hspec

/-- A contact that no peak comes near counts a miss, and closes at its last one (R227). -/
theorem trellisProcess_missed {s : State} {o : Output} {c : Contact} (hd : s.ms.debugUps = false)
    (hids : (s.tr.contacts.map (·.id)).Nodup) (hc : c ∈ s.tr.contacts) (hs : s.stuckNow c = false)
    (hfar : ∀ p ∈ s.peaks o, (s.force.get 0x250B).toNat ^ 2 < dist2 c p.c) :
    (c.miss + 1 < max 1 ((s.force.get 0x250A).toNat / 16 % 16) → { c with miss := c.miss + 1 } ∈ (s.trellisProcess o).tr.contacts) ∧
      (max 1 ((s.force.get 0x250A).toNat / 16 % 16) ≤ c.miss + 1 → ∀ x ∈ (s.trellisProcess o).tr.contacts, x.id ≠ c.id) := by
  have hmissed := missed_mem (s := s.debugOver) hc (far_of_numbered hfar)
  have hverdict := missed_verdict (s := s.debugOver) (c := c) hs
  rw [trellisProcess_contacts, hd]
  refine ⟨fun hfew => ?_, fun hlast x hx hid => ?_⟩
  · refine List.mem_append_left _ (List.mem_map_of_mem (f := Prod.fst) (mem_staying.2 ⟨hmissed, hverdict.trans (if_neg ?_)⟩))
    exact Nat.not_le.2 hfew
  · refine (gone_iff_closes (s := s.debugOver) hids hmissed).2 ?_ (List.mem_map.2 ⟨x, hx, hid⟩)
    rw [hverdict]
    exact Option.isSome_iff_exists.2 ⟨0, if_pos hlast⟩

theorem trellisProcess_closed {s : State} {o : Output} (hids : (s.tr.contacts.map (·.id)).Nodup) :
    (s.trellisProcess o).rq.upCnt % 65536 = (s.rq.upCnt +
        (s.tr.contacts.filter (fun c => !((s.trellisProcess o).tr.contacts.map (·.id)).contains c.id)).length) % 65536 ∧
      (s.trellisProcess o).rq.downCnt % 65536 = (s.rq.downCnt +
        ((s.trellisProcess o).tr.contacts.filter (fun c => !(s.tr.contacts.map (·.id)).contains c.id)).length) % 65536 := by
  obtain ⟨hup, hdown⟩ := trellisProcess_counts s o
  have hclosed := closed_count (s := s.debugOver) s.ms.debugUps (s.numbered o) hids
  have hopened := opened_count s.debugOver s.ms.debugUps (s.numbered o)
  rw [← trellisProcess_contacts] at hclosed hopened
  rw [← hclosed] at hup
  rw [← hopened] at hdown
  exact ⟨hup, hdown⟩

/-- Settles O45: records and outputs case by case; at the Trellis the contacts are those of `contactsAfter`, and the counts those of
`closing` and `opening`. -/
theorem recordsAndOutputs : Obligations.RecordsAndOutputs := by
  refine ⟨fun s h => congrArg Host.Outcome.next (recordsDue_of_none h), fun s r rest hs hr hl => ?_,
    fun s h => congrArg Host.Outcome.next (outputsReady_of_none h), fun s o l hs hr hn hl => ?_,
    fun s h => congrArg Host.Outcome.next (trellisNext_of_nil h), fun s o l hs => ?_⟩
  · refine ⟨_, exec_recordsReady hs hr hl, flight_recordsIn .., fun hk => ?_, recordsIn_of_apart, fun hk hc hrep hex he hd => ?_⟩
    · cases hc : r.cut with
      | true =>
        rw [recordsIn_of_apart (.inl hc)]
        exact ⟨rfl, rfl⟩
      | false =>
        rw [recordsIn_of_join hk hc]
        exact ⟨rfl, joined_no ..⟩
    · rw [recordsIn_of_replaced (s := { s with scan := { s.scan with flight := rest } }) hk hc hrep hex he hd]
      exact ⟨rfl, fun c hc => of_decide_eq_true (List.mem_filter.1 hc).2, rfl⟩
  · refine ⟨_, congrArg Host.Outcome.next (outputsReady_of_first hs hr hn hl), rfl, rfl, ?_, ?_⟩
    · exact (reg_setReg ..).trans (if_pos rfl)
    · exact regsKept_setReg s 0x220E _
  · have hnext : exec .trellisOutput s = .next s.trellisNext := rfl
    rw [hnext, trellisNext_of_cons hs]
    refine ⟨fun h => ?_, fun hseen hready hw => ?_, fun hseen hready hw hh => ?_, fun hseen hready hw hh => ?_⟩
    · rw [if_pos]
      rcases h with h | h <;> simp [h]
    · rw [if_neg (by simp [hseen, hready]), if_pos (by simpa using hw)]
      rfl
    · rw [if_neg (by simp [hseen, hready]), if_neg (by simp [hw]), if_pos hh]
    · rw [if_neg (by simp [hseen, hready]), if_neg (by simp [hw]), if_neg (by simp [hh])]
      obtain ⟨u, hu⟩ : ∃ u : State, u = { s with sv := { s.sv with outs := l } } := ⟨_, rfl⟩
      have htr : u.tr = s.tr := by rw [hu]
      have hforce : u.force = s.force := by rw [hu]
      have hms : u.ms = s.ms := by rw [hu]
      have hrq : u.rq = s.rq := by rw [hu]
      have htb : u.tb = s.tb := by rw [hu]
      have hheld (id : Nat) : u.idHeld id = s.idHeld id := by rw [hu]; rfl
      have hstuck (c : Contact) : u.stuckNow c = s.stuckNow c := by rw [hu]; rfl
      have hpeaks : u.peaks o = s.peaks o := by rw [hu]; rfl
      have hframe := trellisProcess_frame u o
      have hbytes := bytesKept_of_keeps (kept_State_trellisProcess (o := o) (Keeps.refl u))
      rw [← hu]
      refine ⟨_, rfl, ?_, ?_, ?_, ?_, ?_, fun hlen => ?_, fun c hc hnew => ?_, fun hd c hc => ?_, fun hd hids c hc hs hfar => ?_,
        fun hids => ?_, bytesKept_trans ?_ hbytes⟩
      · rw [hframe, hu]
      · rw [hframe, hu]
      · rw [hframe, hu]
      · rw [hframe, hu]
      · rw [hframe]
      · rw [trellisProcess_contacts]
        exact contactsAfter_length _ _ (by rw [State.debugOver, htr]; exact hlen)
      · rw [← htr] at hnew ⊢
        rw [← hheld, ← htb, ← hforce]
        exact trellisProcess_opened hc hnew
      · rw [trellisProcess_contacts, hms, hd] at hc
        rw [← htr]
        exact new_of_debug (s := u.debugOver) hc
      · rw [← hforce]
        rw [← htr] at hids hc
        rw [← hforce, ← hpeaks] at hfar
        exact trellisProcess_missed (hms ▸ hd) hids hc ((hstuck c).trans hs) hfar
      · rw [← htr] at hids ⊢
        rw [← hrq]
        exact trellisProcess_closed hids
      · rw [hu]
        exact ⟨fun _ => rfl, fun _ => rfl⟩

end Machine
end Sys2Proof
end

section
/-! SUPPORT. Common words: a write to ISET and to LOCK (R88, R91, R92). -/

namespace Sys2Proof
namespace Machine

/-! A host access that takes effect at once, and the common words of a page (R82, R84). -/

theorem hostWrite_of_takes {s : State} {a : Word} (h : s.takes a.toNat) (v : Word) : s.hostWrite a v = s.writeWord a.toNat v := by
  simp [State.hostWrite, h.up, h.ready]

/-- No wide value has a word below offset 8 (Table RI-2). -/
theorem wideAt_of_common {a : Nat} (h : offOf a < 8) : wideAt a = none := by
  unfold wideAt
  split
  · exact if_neg (by simp only [Bool.and_eq_true, decide_eq_true_eq]; omega)
  · unfold offOf at h
    rw [List.find?_eq_none]
    simp only [wideTable, List.forall_mem_cons, Bool.and_eq_true, decide_eq_true_eq, List.not_mem_nil, IsEmpty.forall_iff,
      implies_true, and_true]
    omega

theorem hostWrite_common {s : State} {a : Word} (h : s.takes a.toNat) (ho : offOf a.toNat < 8) (v : Word) :
    s.hostWrite a v = s.writePlain a.toNat v := by
  rw [hostWrite_of_takes h, writeWord_of_plain v h.mapped (wideAt_of_common ho)]

theorem pageOf_pageAddr (p : Byte) {o : Nat} (h : o < 256) : pageOf (pageAddr p o) = p.toNat := by
  unfold pageOf pageAddr
  omega

theorem offOf_pageAddr (p : Byte) {o : Nat} (h : o < 256) : offOf (pageAddr p o) = o := by
  unfold offOf pageAddr
  omega

theorem toNat_pageWord (p : Byte) {o : Nat} (h : o < 256) : (pageWord p o).toNat = pageAddr p o := by
  have hp := p.isLt
  simp only [pageWord, pageAddr, w16, BitVec.toNat_ofNat]
  omega

/-- A write to a common word of page `p`. -/
theorem hostWrite_pageWord {s : State} {p : Byte} {o : Nat} (ho : o < 8) (h : s.takes (pageAddr p o)) (v : Word) :
    s.hostWrite (pageWord p o) v = s.writePlain (pageAddr p o) v := by
  have ha := toNat_pageWord p (show o < 256 by omega)
  rw [hostWrite_common (ha ▸ h) (by rw [ha, offOf_pageAddr p (by omega)]; exact ho), ha]

/-! ISET (R88). -/

theorem writePlain_iset {s : State} {a : Nat} (v : Word) (h : offOf a = 5) :
    s.writePlain a v = s.setFlags (pageOf a) (v &&& w16 (flagMask (pageOf a))) := by
  simp [State.writePlain, h]

theorem readWord_iset {s : State} {a : Nat} (h : offOf a = 5) : (s.readWord a).1 = 0 := by
  have hne : a ≠ 0x2309 := by
    rintro rfl
    exact absurd h (by decide)
  rw [readWord_of_plain (wideAt_of_common (by omega)) hne]
  simp [State.liveWord, h]

/-- Settles O15: the one effect of a write to ISET is `State.setFlags`. -/
theorem isetForcesFlags : Obligations.IsetForcesFlags := by
  intro p bits s ht
  have ho := offOf_pageAddr p (show 5 < 256 by decide)
  have hwrite : s.hostWrite (pageWord p 5) bits = s.setFlags p.toNat (bits &&& w16 (flagMask p.toNat)) := by
    rw [hostWrite_pageWord (by decide) ht, writePlain_iset bits ho, pageOf_pageAddr p (by decide)]
  exact ⟨readWord_iset ho, _, congrArg Host.Outcome.next hwrite, rfl, (reg_setFlags ..).trans (if_pos rfl), regsKept_setReg _ _ _,
    fun _ => rfl, fun _ => rfl⟩

/-! LOCK (R91, R92). -/

theorem writePlain_lock {s : State} {a : Nat} (v : Word) (h : offOf a = 6) : s.writePlain a v = s.lockWrite (pageOf a) v := by
  simp [State.writePlain, h]

theorem lockWrite_of_no_key {s : State} {p : Nat} (v : Word) (h : keyedPage p = false) : s.lockWrite p v = s := by
  simp [State.lockWrite, h]

/-- `s` with another list of unlocked pages. -/
def State.withUnlocked (s : State) (l : List Nat) : State := { s with link := { s.link with unlocked := l } }

/-- `s` with page `p` locked. -/
def State.closed (s : State) (p : Nat) : State := s.withUnlocked (s.link.unlocked.filter (fun q => q != p))

theorem lockWrite_key {s : State} {p : Nat} (h : keyedPage p = true) :
    s.lockWrite p (pageKey p) = s.withUnlocked (p :: s.link.unlocked.filter (fun q => q != p)) := by
  unfold State.lockWrite
  rw [if_neg (by simp [h]), if_pos rfl]
  rfl

theorem lockWrite_of_ne_key {s : State} {p : Nat} {v : Word} (h : keyedPage p = true) (hv : v ≠ pageKey p) :
    s.lockWrite p v =
      if v = 0 then s.closed p else (s.closed p).setReg (p * 256 + 6) (s.reg (p * 256 + 6) ||| 4) := by
  unfold State.lockWrite
  rw [if_neg (by simp [h]), if_neg hv]
  rfl

/-- Only page `p` opens or closes (R91). -/
theorem unlocked_withUnlocked_key (s : State) (p q : Nat) :
    (s.withUnlocked (p :: s.link.unlocked.filter (fun x => x != p))).unlocked q = if q = p then true else s.unlocked q := by
  by_cases h : q = p <;> simp [State.unlocked, State.withUnlocked, h]

theorem unlocked_closed (s : State) (p q : Nat) : (s.closed p).unlocked q = if q = p then false else s.unlocked q := by
  by_cases h : q = p <;> simp [State.unlocked, State.closed, State.withUnlocked, h]

/-- What a write to the LOCK word of a page with protected words does: it opens or closes the page, and BADKEY sets on a value
that is neither the key nor 0 (R91). -/
theorem lockWrite_spec (s : State) {p : Nat} (v : Word) (h : keyedPage p = true) :
    s.lockWrite p v = { s with regs := (s.lockWrite p v).regs, flagged := (s.lockWrite p v).flagged,
                               link := { s.link with unlocked := (s.lockWrite p v).link.unlocked } } ∧
      ((s.lockWrite p v).unlocked p = true ↔ v = pageKey p) ∧ (∀ q, q ≠ p → (s.lockWrite p v).unlocked q = s.unlocked q) ∧
      (s.lockWrite p v).reg (p * 256 + 6) =
        (if v = pageKey p ∨ v = 0 then s.reg (p * 256 + 6) else s.reg (p * 256 + 6) ||| 4) ∧
      s.regsKept (s.lockWrite p v) [p * 256 + 6] := by
  by_cases hv : v = pageKey p
  · rw [hv, lockWrite_key h, if_pos (.inl rfl)]
    exact ⟨rfl, by simp [unlocked_withUnlocked_key], fun q hq => by rw [unlocked_withUnlocked_key, if_neg hq], rfl, fun _ _ => rfl⟩
  · have hself : ¬ ((s.closed p).unlocked p = true) := by simp [unlocked_closed]
    have hother (q : Nat) (hq : q ≠ p) : (s.closed p).unlocked q = s.unlocked q := by rw [unlocked_closed, if_neg hq]
    rw [lockWrite_of_ne_key h hv]
    by_cases hz : v = 0
    · rw [if_pos hz, if_pos (.inr hz)]
      exact ⟨rfl, iff_of_false hself hv, hother, rfl, fun _ _ => rfl⟩
    · rw [if_neg hz, if_neg (not_or.2 ⟨hv, hz⟩)]
      exact ⟨rfl, iff_of_false hself hv, hother, (reg_setReg ..).trans (if_pos rfl), regsKept_setReg (s.closed p) _ _⟩

/-- Settles O16: a page with a key goes by `lockWrite_spec`, any other ignores the write. -/
theorem lockUnlocks : Obligations.LockUnlocks := by
  intro p v s ht
  have hwrite : s.hostWrite (pageWord p 6) v = s.lockWrite p.toNat v := by
    rw [hostWrite_pageWord (by decide) ht, writePlain_lock v (offOf_pageAddr p (by decide)), pageOf_pageAddr p (by decide)]
  refine ⟨_, congrArg Host.Outcome.next hwrite, lockWrite_spec s v, lockWrite_of_no_key v, ?_⟩
  rw [← hwrite]
  exact hostWrite_bytesKept ..

end Machine
end Sys2Proof
end

section
/-! SUPPORT. Reads of wide values by way of the shadow, and the table windows HIDD.DATA and UCDATA (R94, R223, R234, R235, R273). -/

namespace Sys2Proof
namespace Machine

/-! The shadows, one to a page (R94). -/

theorem find_page_filter_self (l : List Shadow) (p : Nat) : (l.filter (fun x => x.page != p)).find? (fun x => x.page == p) = none := by
  simp

theorem find_page_filter_of_ne (l : List Shadow) {p q : Nat} (h : p ≠ q) :
    (l.filter (fun x => x.page != q)).find? (fun x => x.page == p) = l.find? (fun x => x.page == p) := by
  rw [List.find?_filter]
  congr 1
  funext x
  by_cases hx : x.page = p <;> simp [hx, h]

/-! A latching read (R94, R273). -/

/-- The shadow that a latching read of the `n` words from `base` on takes. -/
def State.shadowOf (s : State) (base n : Nat) : Shadow :=
  { page := pageOf base, base := base, words := (List.range (n - 1)).map (fun i => s.liveWord (base + 1 + i)) }

/-- `s` with that shadow in the place of its page's. -/
def State.shadowTaken (s : State) (base n : Nat) : State :=
  { s with link := { s.link with shadow := s.shadowOf base n :: s.link.shadow.filter (fun x => x.page != pageOf base) } }

theorem shadow_shadowTaken (s : State) (base n : Nat) :
    (s.shadowTaken base n).link.shadow.find? (fun x => x.page == pageOf base) = some (s.shadowOf base n) ∧
      ∀ p, p ≠ pageOf base → (s.shadowTaken base n).link.shadow.find? (fun x => x.page == p) = s.link.shadow.find? (fun x => x.page == p) := by
  refine ⟨List.find?_cons_of_pos (by simp [State.shadowOf]), fun p hp => ?_⟩
  exact (List.find?_cons_of_neg (by simpa [State.shadowOf] using hp.symm)).trans (find_page_filter_of_ne _ hp)

theorem latch_of_cap (s : State) {k : Nat} (n : Nat) (hk : k < 6) : s.latch (0x2818 + 16 * k) n =
    (s.shadowTaken (0x2818 + 16 * k) n).setTimer k { s.timer k with capn := false } := by
  have hcap : pageOf (0x2818 + 16 * k) = 0x28 ∧ offOf (0x2818 + 16 * k) % 16 = 8 := by unfold pageOf offOf; omega
  have hnum : (offOf (0x2818 + 16 * k) - 0x10) / 16 = k := by unfold offOf; omega
  unfold State.latch
  dsimp only
  rw [if_pos hcap, hnum]
  rfl

theorem latch_of_not_cap (s : State) {base : Nat} (n : Nat) (h : ¬ (pageOf base = 0x28 ∧ offOf base % 16 = 8)) :
    s.latch base n = s.shadowTaken base n := by
  unfold State.latch
  dsimp only
  rw [if_neg h]
  rfl

/-- The wide values of page TMR at offset 8 of a block are the timers' CAP (Table TG-6). -/
theorem cap_of_wideAt {base n : Nat} {res : Bool} (hw : wideAt base = some (base, n, res)) (hp : pageOf base = 0x28)
    (ho : offOf base % 16 = 8) : ∃ k, k < 6 ∧ base = 0x2818 + 16 * k := by
  simp only [wideAt, hp, beq_self_eq_true, if_true] at hw
  split at hw
  · next hc =>
    simp only [Bool.and_eq_true, decide_eq_true_eq] at hc
    obtain ⟨⟨⟨hlo, hk⟩, -⟩, -⟩ := hc
    unfold pageOf at hp
    unfold offOf at hlo hk ho
    exact ⟨_, hk, by omega⟩
  · simp at hw

theorem latch_spec (s : State) {base n : Nat} {res : Bool} (hw : wideAt base = some (base, n, res)) :
    s.latch base n = { s.shadowTaken base n with tm := (s.latch base n).tm } ∧
      (∀ k, k < 6 → base = 0x2818 + 16 * k → ((s.latch base n).timer k).capn = false) ∧
      ((∀ k, k < 6 → base ≠ 0x2818 + 16 * k) → (s.latch base n).tm = s.tm) := by
  by_cases h : pageOf base = 0x28 ∧ offOf base % 16 = 8
  · obtain ⟨k, hk, rfl⟩ := cap_of_wideAt hw h.1 h.2
    rw [latch_of_cap s n hk]
    refine ⟨rfl, fun m _ hm => ?_, fun hne => absurd rfl (hne k hk)⟩
    obtain rfl : k = m := by omega
    rw [timer_setTimer, if_pos ⟨rfl, hk⟩]
  · rw [latch_of_not_cap s n h]
    refine ⟨rfl, fun k hk hb => absurd ?_ h, fun _ => rfl⟩
    unfold pageOf offOf
    omega

/-! A read of a wide value's word. -/

theorem readWord_of_lowest {s : State} {a base n : Nat} {res : Bool} (hw : wideAt a = some (base, n, res)) (ha : a = base) :
    s.readWord a = (s.liveWord a, s.latch base n) := by
  simp only [State.readWord, hw, if_pos ha]

theorem readWord_of_higher {s : State} {a base n : Nat} {res : Bool} (hw : wideAt a = some (base, n, res)) (ha : a ≠ base) :
    s.readWord a = s.readHigher a base n := by
  simp only [State.readWord, hw, if_neg ha]

theorem wideLow_of_wideAt {a base n : Nat} {res : Bool} (hw : wideAt a = some (base, n, res)) : wideLow a = decide (a = base) := by
  simp only [wideLow, hw]

theorem wideHigh_of_wideAt {a base n : Nat} {res : Bool} (hw : wideAt a = some (base, n, res)) : wideHigh a = decide (a ≠ base) := by
  simp only [wideHigh, hw]

/-- A higher word comes from the shadow of its own value, whose highest word releases it; else it is live (R94). -/
theorem readHigher_spec (s : State) (a base n : Nat) :
    (s.readHigher a base n).2 = { s with link := { s.link with shadow := (s.readHigher a base n).2.link.shadow } } ∧
      (∀ sh, s.link.shadow.find? (fun x => x.page == pageOf base && x.base == base) = some sh →
        (s.readHigher a base n).1 = sh.words.getD (a - base - 1) 0 ∧
        (a + 1 = base + n → (s.readHigher a base n).2.link.shadow.find? (fun x => x.page == pageOf base) = none) ∧
        (a + 1 ≠ base + n → (s.readHigher a base n).2.link.shadow = s.link.shadow)) ∧
      (s.link.shadow.find? (fun x => x.page == pageOf base && x.base == base) = none →
        (s.readHigher a base n).1 = s.liveWord a ∧ (s.readHigher a base n).2.link.shadow = s.link.shadow) := by
  unfold State.readHigher
  split
  · next sh hsh =>
    refine ⟨by dsimp only; split <;> rfl, fun sh' h => ?_, fun h => by simp [h] at hsh⟩
    obtain rfl : sh = sh' := Option.some.inj (hsh.symm.trans h)
    refine ⟨rfl, fun hlast => ?_, fun hmore => ?_⟩
    · rw [if_pos hlast]
      exact find_page_filter_self _ _
    · rw [if_neg hmore]
  · next hnone => exact ⟨rfl, fun sh h => by simp [h] at hnone, fun _ => ⟨rfl, rfl⟩⟩

/-- Settles O19: the lowest word goes by `latch_spec`, a higher one by `readHigher_spec`. -/
theorem wideValueReads : Obligations.WideValueReads := by
  refine ⟨fun a base n res s ht hw ha => ?_, fun a base n res s ht hw ha => ?_⟩
  · have hexec : exec (.wideValueLatchRead a) s = .next (s.hostRead a) :=
      congrArg Host.Outcome.next (if_pos (by rw [wideLow_of_wideAt hw, ha, decide_eq_true rfl]))
    obtain ⟨hframe, hcap, htm⟩ := latch_spec s (ha ▸ hw)
    obtain ⟨hown, hother⟩ := shadow_shadowTaken s base n
    refine ⟨_, hexec, ?_⟩
    rw [hostRead_of_takes ht, readWord_of_lowest hw ha, ha]
    have hlink : (s.latch base n).link = (s.shadowTaken base n).link := by rw [hframe]
    refine ⟨rfl, ?_, fun p hp => ?_, ?_, hcap, htm⟩
    · exact (congrArg (fun l : Link => l.shadow.find? _) hlink).trans hown
    · exact (congrArg (fun l : Link => l.shadow.find? _) hlink).trans (hother p hp)
    · rw [hframe]
      rfl
  · have hexec : exec (.wideValueHighRead a) s = .next (s.hostRead a) :=
      congrArg Host.Outcome.next (if_pos (by rw [wideHigh_of_wideAt hw, decide_eq_true ha]))
    obtain ⟨hframe, hshadow, hlive⟩ := readHigher_spec s a.toNat base n
    refine ⟨_, hexec, ?_⟩
    rw [hostRead_of_takes ht, readWord_of_higher hw ha]
    exact ⟨by rw [hframe], hshadow, hlive⟩

/-! The table windows (R223, R234, R235). -/

theorem readEffect_hidData (s : State) : s.readEffect 0x2F0A = s.setReg 0x2F08 ((s.reg 0x2F08 + 2) &&& 0xFE) := rfl

theorem readEffect_curve (s : State) : s.readEffect 0x2519 = s.setReg 0x2518 (curveNext (s.reg 0x2518)) := rfl

/-- A window has been read: the word read is `w`, and the pointer at `a` has moved to `v`. -/
def State.windowRead (s : State) (a : Nat) (v w : Word) : State :=
  { s.setReg a v with link := { s.link with rdata := w } }

theorem windowRead_spec (s : State) (a : Nat) (v w : Word) :
    (s.windowRead a v w).link.rdata = w ∧ (s.windowRead a v w).reg a = v ∧
      s.windowRead a v w = { s with
        regs := (s.windowRead a v w).regs, flagged := (s.windowRead a v w).flagged
        link := { s.link with rdata := (s.windowRead a v w).link.rdata } } ∧
      s.regsKept (s.windowRead a v w) [a] :=
  ⟨rfl, (reg_setReg s a a v).trans (if_pos rfl), rfl, regsKept_setReg s a v⟩

theorem hostRead_of_effect {s : State} {a : Word} {p : Nat} {v : Word} (h : s.takes a.toNat) (hw : wideAt a.toNat = none)
    (hne : a.toNat ≠ 0x2309) (he : s.readEffect a.toNat = s.setReg p v) :
    s.hostRead a = s.windowRead p v (s.liveWord a.toNat) := by
  rw [hostRead_of_takes h, readWord_of_plain hw hne, he]
  rfl

theorem hostRead_hidData {s : State} (h : s.takes 0x2F0A) :
    s.hostRead 0x2F0A = s.windowRead 0x2F08 ((s.reg 0x2F08 + 2) &&& 0xFE) (s.hidData (s.reg 0x2F08).toNat) :=
  hostRead_of_effect h (by decide) (by decide) (readEffect_hidData s)

theorem hostRead_curve {s : State} (h : s.takes 0x2519) :
    s.hostRead 0x2519 = s.windowRead 0x2518 (curveNext (s.reg 0x2518)) s.curveWord :=
  hostRead_of_effect h (by decide) (by decide) (readEffect_curve s)

theorem hostWrite_curve {s : State} (h : s.takes 0x2519) (v : Word) :
    s.hostWrite 0x2519 v = if s.unlocked 0x25 then s.curveWrite v else s.deny 0x25 := by
  have hplain : s.hostWrite 0x2519 v = s.writePlain 0x2519 v := by
    rw [hostWrite_of_takes (a := 0x2519) h]
    exact writeWord_of_plain v h.mapped (by decide)
  rw [hplain]
  split
  · next hu => exact writePlain_open v (.inr (by decide)) (fun _ => hu)
  · next hu => exact writePlain_denied v (.inr (by decide)) (by decide) (Bool.eq_false_iff.2 hu)

theorem curveWrite_spec (s : State) (v : Word) :
    (s.curveWrite v).tr = { s.tr with ucurve := s.tr.ucurve.set (fld (s.reg 0x2518) 6 0) v } ∧
      (s.curveWrite v).reg 0x2518 = curveNext (s.reg 0x2518) ∧
      s.curveWrite v = { s with regs := (s.curveWrite v).regs, flagged := (s.curveWrite v).flagged, tr := (s.curveWrite v).tr } ∧
      s.regsKept (s.curveWrite v) [0x2518] :=
  ⟨rfl, (reg_setReg ..).trans (if_pos rfl), rfl, regsKept_setReg { s with tr := _ } _ _⟩

/-- Settles O22: each window's read moves its pointer, and a write to UCDATA goes by the page's lock. -/
theorem tableWindows : Obligations.TableWindows := by
  refine ⟨fun s ht => ⟨_, congrArg Host.Outcome.next (hostRead_hidData ht), windowRead_spec ..⟩, fun v s ht =>
    ⟨⟨_, congrArg Host.Outcome.next (hostRead_curve ht), windowRead_spec ..⟩, fun hu => ?_, fun hu => ?_⟩⟩
  · have hwrite := hostWrite_curve ht v
    rw [if_pos hu] at hwrite
    exact ⟨_, congrArg Host.Outcome.next hwrite, curveWrite_spec s v⟩
  · have hwrite := hostWrite_curve ht v
    rw [if_neg (by simp [hu])] at hwrite
    exact ⟨_, congrArg Host.Outcome.next hwrite, rfl, reg_deny s 0x25, regsKept_deny s 0x25⟩

end Machine
end Sys2Proof
end

section
/-! SUPPORT. The events of a timer: WRAP, the installation of a capture, START and STOP in Measure mode (R95, R99, R270, R272, R274). -/

namespace Sys2Proof
namespace Machine

/-! One event at one timer. -/

/-- The timer is where its next count event wraps, reloads or returns to 0 (R270). -/
def Timer.wrapsNext (t : Timer) : Prop :=
  t.mode = 1 ∧ t.count = t.p ∨ t.mode = 2 ∧ t.count = 0 ∨ t.mode = 3 ∧ t.down = true ∧ t.count ≤ 1

/-- A WRAP event returns COUNT and takes the buffered PERIOD (R270). -/
theorem step_of_wrapsNext {t : Timer} (h : t.wrapsNext) :
    t.step.2 = true ∧ t.step.1.period = t.perBuf ∧ t.step.1.ctrl = t.ctrl ∧
      (t.mode = 1 ∨ t.mode = 3 → t.step.1.count = 0) ∧
      (t.mode = 2 → t.step.1.count = if t.perBuf = 0 then 1 else t.perBuf) ∧
      (t.mode = 3 → t.step.1.down = false) := by
  unfold Timer.step
  rcases h with ⟨hm, hc⟩ | ⟨hm, hc⟩ | ⟨hm, hd, hc⟩
  · simp [hm, hc]
  · simp [hm, hc, Timer.p]
  · simp [hm, hd, hc]

theorem event_ctrl (t : Timer) (c : Nat) : (t.event c).ctrl = t.ctrl := by
  simp only [Timer.event, apply_ite Timer.ctrl, ite_self]

/-- The first CSRC event of an armed Measure timer starts it at 0, or at a COUNT committed on its hc (R99, R274). -/
theorem event_start {t : Timer} {c : Nat} (h0 : 1 ≤ c) (h8 : c ≤ 8) (hm : t.mode = 4) (ha : t.armed = true)
    (hc : t.counting = false) (hs : t.csrc = c) :
    t.event c = { t with counting := true, count := if t.stay then t.count else 0, stay := true } := by
  unfold Timer.event
  rw [if_neg (by omega), if_neg (by omega), if_pos ⟨hm, ha⟩, hc, if_neg Bool.false_ne_true, if_pos hs]

/-- A STOP event of an armed Measure timer ends the count with its hc (R274). -/
theorem event_stop {t : Timer} {c : Nat} (h0 : 1 ≤ c) (h8 : c ≤ 8) (hm : t.mode = 4) (ha : t.armed = true)
    (hc : t.counting = true) (hs : t.stop = c) : t.event c = { t with armed := false, req := .measured } := by
  unfold Timer.event
  rw [if_neg (by omega), if_neg (by omega), if_pos ⟨hm, ha⟩, if_pos hc, if_pos hs]

/-- A STOP event before any start is out of order (R274). -/
theorem event_stop_first {t : Timer} {c : Nat} (h0 : 1 ≤ c) (h8 : c ≤ 8) (hm : t.mode = 4) (ha : t.armed = true)
    (hc : t.counting = false) (hs : t.stop = c) (hne : t.csrc ≠ c) : t.event c = { t with armed := false, req := .order } := by
  unfold Timer.event
  rw [if_neg (by omega), if_neg (by omega), if_pos ⟨hm, ha⟩, hc, if_neg Bool.false_ne_true, if_neg hne, if_pos hs]

/-! WRAP (R270). -/

theorem wrapOp_of_none {s : State} {n : Nat} (h : 6 ≤ n ∨ s.timerFrozen n = true ∨ (s.timer n).fresh = true ∨
    (s.timer n).stay = true ∨ (s.timer n).step.2 = false) : s.wrapOp n = s := by
  refine if_neg ?_
  simp only [State.timerRuns, Bool.and_eq_true, Bool.not_eq_true', Bool.or_eq_false_iff, decide_eq_true_eq]
  rintro ⟨⟨⟨hn, hf⟩, hfresh, hstay⟩, hstep⟩
  simp [hf, hfresh, hstay, hstep] at h
  omega

/-- Where the next timer does not count wraps, a WRAP event sets its flag, and the next timer may take it as a capture. -/
theorem wrapEvents_of_clk_ne {s : State} {n : Nat} (k : Nat) (h : (s.timer ((n + 1) % 6)).clk ≠ 5) :
    s.wrapEvents (k + 1) n = if s.timerRuns ((n + 1) % 6) then
        (s.setFlag 0x28 (6 + n)).setTimer ((n + 1) % 6) ((s.timer ((n + 1) % 6)).event 5)
      else s.setFlag 0x28 (6 + n) := by
  have hclk : ¬ ((s.timer ((n + 1) % 6)).event 5).clk = 5 := by rwa [Timer.clk, event_ctrl]
  exact if_congr Iff.rfl (if_neg hclk) rfl

theorem wrapEvents_spec {s : State} {n : Nat} (k : Nat) (h : (s.timer ((n + 1) % 6)).clk ≠ 5) :
    s.wrapEvents (k + 1) n = { s with regs := (s.wrapEvents (k + 1) n).regs, flagged := (s.wrapEvents (k + 1) n).flagged,
                                      tm := (s.wrapEvents (k + 1) n).tm } ∧
      (s.wrapEvents (k + 1) n).reg 0x2803 = s.reg 0x2803 ||| w16 (2 ^ (6 + n)) ∧
      s.regsKept (s.wrapEvents (k + 1) n) [0x2803] ∧
      ∀ m, m ≠ (n + 1) % 6 → (s.wrapEvents (k + 1) n).timer m = s.timer m := by
  have hflag := setFlag_spec s 0x28 (6 + n)
  rw [wrapEvents_of_clk_ne k h]
  split
  · exact ⟨rfl, hflag.2.1, hflag.2.2, fun m hm => (timer_setTimer ..).trans (if_neg fun e => hm e.1)⟩
  · exact ⟨rfl, hflag.2.1, hflag.2.2, fun _ _ => rfl⟩

theorem wrapOp_of_wrapsNext {s : State} {n : Nat} (hn : n < 6) (hf : s.timerFrozen n = false) (hfresh : (s.timer n).fresh = false)
    (hstay : (s.timer n).stay = false) (h : (s.timer n).wrapsNext) :
    s.wrapOp n = (s.setTimer n (s.timer n).step.1).wrapEvents 6 n :=
  if_pos (by simp [hn, State.timerRuns, hf, hfresh, hstay, (step_of_wrapsNext h).1])

/-! The installation of a capture (R95, R272). -/

theorem captureOp_of_none {s : State} {n : Nat} (h : (s.timer n).latch = none) : s.captureOp n = s := by
  simp only [State.captureOp, h]

theorem captureOp_of_some {s : State} {n v : Nat} {o r : Bool} (h : (s.timer n).latch = some (v, o, r)) :
    s.captureOp n = s.installCap n v o r := by
  simp only [State.captureOp, h]

theorem timer_staleIf (s : State) (b m : Nat) (c : Bool) : (s.staleIf b c).timer m = s.timer m := by
  rw [State.timer, State.staleIf_tm, State.timer]

theorem reg_staleIf (s : State) (b a : Nat) (c : Bool) : (s.staleIf b c).reg a =
    if (c = true ∧ s.shadowed b = true) ∧ a = pageOf b * 256 + 2 then s.reg a ||| 0x8000 else s.reg a := by
  unfold State.staleIf
  by_cases h : c = true ∧ s.shadowed b = true
  · rw [if_pos (by simpa using h), reg_setReg]
    by_cases ha : a = pageOf b * 256 + 2
    · rw [if_pos ha, if_pos ⟨h, ha⟩, ha]
    · rw [if_neg ha, if_neg fun e => ha e.2]
  · rw [if_neg (by simpa using h), if_neg (fun e => h e.1)]

theorem regsOnly_staleIf (s : State) (b : Nat) (c : Bool) : s.regsOnly (s.staleIf b c) := by
  unfold State.staleIf
  split <;> rfl

/-- What an installation leaves of the timer whose CAP it is. -/
def Timer.installed (x : Timer) (v : Nat) (o r : Bool) : Timer :=
  { x with cap := v, capn := true, ovr := x.ovr || x.capn, order := o, res := r, latch := none }

theorem installCap_spec (s : State) {n : Nat} (v : Nat) (o r : Bool) (hn : n < 6) :
    s.installCap n v o r = { s with regs := (s.installCap n v o r).regs, flagged := (s.installCap n v o r).flagged,
                                    tm := (s.installCap n v o r).tm } ∧
      (∀ m, m ≠ n → (s.installCap n v o r).timer m = s.timer m) ∧
      (s.installCap n v o r).timer n = (s.timer n).installed v o r ∧
      (s.installCap n v o r).reg 0x2803 = s.reg 0x2803 ||| w16 (2 ^ n) ∧
      (s.installCap n v o r).reg 0x2802 =
        (if (s.timer n).cap ≠ v ∧ s.shadowed (0x2818 + 16 * n) = true then s.reg 0x2802 ||| 0x8000 else s.reg 0x2802) ∧
      s.regsKept (s.installCap n v o r) [0x2802, 0x2803] := by
  obtain ⟨u, hu⟩ : ∃ u, u = s.setTimer n ((s.timer n).installed v o r) := ⟨_, rfl⟩
  have heq : s.installCap n v o r =
      (u.staleIf (0x2818 + 16 * n) (decide ((s.timer n).cap ≠ v))).setFlag 0x28 n := by rw [hu]; rfl
  have hpage : pageOf (0x2818 + 16 * n) * 256 + 2 = 0x2802 := by unfold pageOf; omega
  have hstale := regsOnly_staleIf u (0x2818 + 16 * n) (decide ((s.timer n).cap ≠ v))
  have hreg (a : Nat) := reg_staleIf u (0x2818 + 16 * n) a (decide ((s.timer n).cap ≠ v))
  have htimer (m : Nat) : (s.installCap n v o r).timer m = u.timer m := by
    rw [heq]
    exact timer_staleIf ..
  have hshadow : u.shadowed (0x2818 + 16 * n) = s.shadowed (0x2818 + 16 * n) := by rw [hu]; rfl
  have hureg (a : Nat) : u.reg a = s.reg a := by rw [hu]; rfl
  simp only [hpage, hshadow, hureg, decide_eq_true_eq] at hreg
  refine ⟨?_, fun m hm => ?_, ?_, ?_, ?_, fun a ha => ?_⟩
  · rw [heq, (setFlag_spec ..).1, hstale, hu]
    rfl
  · rw [htimer, hu, timer_setTimer, if_neg fun e => hm e.1]
  · rw [htimer, hu, timer_setTimer, if_pos ⟨rfl, hn⟩]
  · rw [heq, reg_setFlag, if_pos rfl, hreg, if_neg (by simp)]
  · rw [heq, reg_setFlag, if_neg (by decide), hreg]
    exact if_congr (and_iff_left rfl) rfl rfl
  · simp only [List.mem_cons, List.not_mem_nil, or_false, not_or] at ha
    rw [heq, reg_setFlag, if_neg ha.2, hreg, if_neg fun e => ha.1 e.2]

/-! START and STOP in Measure mode (R274). -/

theorem measureStart_of_none {u : State} {n : Nat} (h : 6 ≤ n ∨ u.timerFrozen n = true ∨ (u.timer n).mode ≠ 4 ∨
    (u.timer n).counting = true ∨ ((u.timer n).armed = false ∧ (u.timer n).req ≠ .order)) : u.measureStart n = u := by
  refine if_neg ?_
  simp only [State.timerRuns, Bool.and_eq_true, Bool.not_eq_true', Bool.or_eq_true, decide_eq_true_eq]
  rintro ⟨⟨⟨⟨hn, hf⟩, hm⟩, harmed⟩, hc⟩
  rcases h with h | h | h | h | ⟨h, h'⟩
  · omega
  · simp [hf] at h
  · exact h hm
  · simp [hc] at h
  · simp [h, h'] at harmed

theorem measureStart_of_armed {u : State} {n : Nat} (hn : n < 6) (hf : u.timerFrozen n = false) (hm : (u.timer n).mode = 4)
    (ha : (u.timer n).armed = true) (hc : (u.timer n).counting = false) :
    u.measureStart n = u.setTimer n ((u.timer n).event (u.timer n).csrc) :=
  if_pos (by simp [hn, State.timerRuns, hf, hm, ha, hc])

theorem measureStop_of_none {u : State} {n : Nat} (h : 6 ≤ n ∨ u.timerFrozen n = true ∨ (u.timer n).mode ≠ 4 ∨
    (u.timer n).armed = false) : u.measureStop n = u := by
  refine if_neg ?_
  simp only [State.timerRuns, Bool.and_eq_true, Bool.not_eq_true', decide_eq_true_eq]
  rintro ⟨⟨⟨hn, hf⟩, hm⟩, ha⟩
  rcases h with h | h | h | h
  · omega
  · simp [hf] at h
  · exact h hm
  · simp [ha] at h

theorem measureStop_of_armed {u : State} {n : Nat} (hn : n < 6) (hf : u.timerFrozen n = false) (hm : (u.timer n).mode = 4)
    (ha : (u.timer n).armed = true) : u.measureStop n = u.setTimer n ((u.timer n).event (u.timer n).stop) :=
  if_pos (by simp [hn, State.timerRuns, hf, hm, ha])

/-- Settles O54: a WRAP event is `step_of_wrapsNext` and its flag, a capture `installCap_spec`, and START and STOP are
`Timer.event` at one timer. -/
theorem timerEvents : Obligations.TimerEvents := by
  refine ⟨fun n s h => congrArg Host.Outcome.next (wrapOp_of_none h), fun n s hn hf hfresh hstay hclk hwrap => ?wrap,
    fun n s h => congrArg Host.Outcome.next (captureOp_of_none h), fun n v o r s hn hl =>
      ⟨_, congrArg Host.Outcome.next (captureOp_of_some hl), installCap_spec s v o r hn⟩,
    fun n s u hu => ?start, fun n s u hu => ?stop⟩
  case wrap =>
    obtain ⟨-, hstep⟩ := step_of_wrapsNext hwrap
    obtain ⟨-, hself, hothers⟩ := setTimer_spec s (s.timer n).step.1 hn
    have hnext : n ≠ (n + 1) % 6 := by omega
    obtain ⟨hframe, hflag, hkept, htimers⟩ := wrapEvents_spec (s := s.setTimer n (s.timer n).step.1) (n := n) 5
      (by rwa [hothers _ hnext.symm])
    refine ⟨_, congrArg Host.Outcome.next (wrapOp_of_wrapsNext hn hf hfresh hstay hwrap), hframe, hflag, hkept, ?_⟩
    rw [htimers n hnext, hself]
    obtain ⟨hper, hctrl, hzero, hload, hdown⟩ := hstep
    exact ⟨hper, hctrl, hzero, hload, hdown, fun m hm hm' => (htimers m hm').trans (hothers m hm)⟩
  case start =>
    refine ⟨fun h => congrArg Host.Outcome.next (by rw [hu, measureStart_of_none h]), fun hn hf hm ha hc h1 h8 => ?_⟩
    have hop := measureStart_of_armed hn hf hm ha hc
    rw [event_start h1 h8 hm ha hc rfl] at hop
    obtain ⟨hframe, hself, hothers⟩ := setTimer_spec u
      { u.timer n with counting := true, count := if (u.timer n).stay then (u.timer n).count else 0, stay := true } hn
    refine ⟨_, congrArg Host.Outcome.next (by rw [hu, hop]), hframe, ?_⟩
    rw [hself]
    exact ⟨rfl, rfl, ha, rfl, hothers⟩
  case stop =>
    refine ⟨fun h => congrArg Host.Outcome.next (by rw [hu, measureStop_of_none h]), fun hn hf hm ha h1 h8 => ?_⟩
    obtain ⟨hframe, hself, hothers⟩ := setTimer_spec u ((u.timer n).event (u.timer n).stop) hn
    refine ⟨_, congrArg Host.Outcome.next (by rw [hu, measureStop_of_armed hn hf hm ha]), hframe, hothers, ?_⟩
    rw [hself]
    cases hc : (u.timer n).counting with
    | true =>
      rw [event_stop h1 h8 hm ha hc rfl]
      exact ⟨rfl, fun _ => ⟨rfl, rfl, rfl, rfl⟩, nofun, nofun⟩
    | false =>
      by_cases hs : (u.timer n).csrc = (u.timer n).stop
      · rw [event_start h1 h8 hm ha hc hs]
        exact ⟨rfl, nofun, fun _ hne => absurd hs hne, fun _ _ => ⟨rfl, rfl⟩⟩
      · rw [event_stop_first h1 h8 hm ha hc rfl hs]
        exact ⟨rfl, nofun, fun _ _ => ⟨rfl, rfl⟩, fun _ he => absurd he hs⟩

end Machine
end Sys2Proof
end

section
/-! SUPPORT. States that no run reaches and two statements do not exclude: a stage filed under a page that is not its value's (R97),
and a third bank in force (R318, R326). -/

namespace Sys2Proof
namespace Machine

/-- A part in ACTIVE whose link decodes requests. -/
def decoding : State :=
  { State.reset with
    pw := { State.reset.pw with phase := .on }
    clk := { State.reset.clk with seen := true }
    ms := { State.reset.ms with mode := .active, step := 0 }
    link := { State.reset.link with answering := true } }

/-! The commit of RPER empties the stage of page SIEVE, by the page its stages name (R97, Table SV-6). -/

theorem hostWrite_rper {s : State} (h : s.takes 0x220A) (v : Word) : s.hostWrite 0x220A v = s.commitWord 0x220A v := by
  rw [hostWrite_of_takes (a := 0x220A) h]
  rfl

theorem exec_commit_rper {s : State} (h : s.takes 0x220A) (v : Word) :
    exec (.wideValueCommit 0x220A v) s = .next (s.commitWord 0x220A v) :=
  congrArg Host.Outcome.next ((if_pos (by decide)).trans (hostWrite_rper h v))

theorem stage_commitWord_rper (s : State) (v : Word) :
    (s.commitWord 0x220A v).link.stage = s.link.stage.filter (fun x => x.page != 0x22) :=
  congrArg Link.stage (State.setWide_link ..)

/-- A stage of RPER that names page ADC as its own. -/
def strayStage : Stage := { page := 0x21, base := 0x220A, words := [(1, 7)] }

/-- A part that holds it. -/
def strayStaged : State := { decoding with link := { decoding.link with stage := [strayStage] } }

theorem strayStaged_takes : strayStaged.takes 0x220A := ⟨by decide +kernel, by decide +kernel, by decide +kernel⟩

/-- The commit leaves the stray stage, and with it a staged word of RPER. -/
theorem staged_commitWord_strayStaged (v : Word) : (strayStaged.commitWord 0x220A v).staged 0x220A 1 = some 7 := by
  have hstage : (strayStaged.commitWord 0x220A v).link.stage = [strayStage] := stage_commitWord_rper strayStaged v
  rw [State.staged, hstage]
  rfl

/-- Refutes O18: a stage is found by its value's address but emptied by the page it names, and nothing in the statement ties the
two. No run files a stage under another page (`State.stageWord`). -/
theorem not_wideValueCommits : ¬ Obligations.WideValueCommits := by
  intro h
  obtain ⟨t, ht, -, hempty, -⟩ := h.2.1 0 strayStaged strayStaged_takes
  rw [exec_commit_rper strayStaged_takes] at ht
  obtain rfl : strayStaged.commitWord 0x220A 0 = t := Host.Outcome.next.inj ht
  rw [staged_commitWord_strayStaged] at hempty
  exact absurd hempty (Option.some_ne_none 7)

/-! FORGET with a valid bank in force (R326). -/

theorem hostWrite_shedCmd {s : State} (h : s.takes 0x2B08) (hu : s.unlocked 0x2B = true) (v : Word) :
    s.hostWrite 0x2B08 v = s.shedCommand v :=
  written_eq_writeBlock (a := 0x2B08) v h (fun _ => hu) (by decide)

theorem exec_forget {s : State} (h : s.takes 0x2B08) (hu : s.unlocked 0x2B = true) : exec .forget s = .next s.shedForget :=
  congrArg Host.Outcome.next (hostWrite_shedCmd h hu 2)

theorem inForce_shedAdd (s : State) (js : List Job) : (s.shedAdd js).sh.inForce = s.sh.inForce := by
  unfold State.shedAdd
  dsimp only
  split
  · rw [(shedStart_keeps _).1]
  · rfl

/-- FORGET does not complete at once where the bank in force is valid. -/
theorem inForce_shedForget_of_valid {s : State} {b : Nat} (hb : s.sh.inForce = some b) (hok : s.sh.bankOk b = true) :
    s.shedForget.sh.inForce = some b := by
  unfold State.shedForget
  dsimp only
  rw [if_neg (by simp [hb, hok]), inForce_shedAdd]
  exact hb

/-- A valid header with SEQ 7 and WEAR 1, over a payload of no bytes (Table SH-2). -/
def emptyImage : List Byte := headerBytes 0xA5A5 7 1 0 1 (crc32 ((headerBytes 0xA5A5 7 1 0 1 0).take 28)).toNat

/-- A part with page SHED unlocked, whose bank in force lies behind the two that the Shed has. -/
def thirdBank : State :=
  { decoding with
    link := { decoding.link with unlocked := [0x2B] }
    sh := { decoding.sh with inForce := some 2, mem := memSetAll [] (bankBase 2) emptyImage } }

theorem thirdBank_takes : thirdBank.takes 0x2B08 := ⟨by decide +kernel, by decide +kernel, by decide +kernel⟩

theorem thirdBank_ok : thirdBank.sh.bankOk 2 = true ∧ thirdBank.sh.bankOk 0 = false ∧ thirdBank.sh.bankOk 1 = false := by
  decide +kernel

/-- Refutes O38: nothing in the statement bounds the bank in force. Where a third bank is in force and valid, FORGET programs that
bank's header, though neither bank 0 nor bank 1 is valid, and so does not complete at once. No run puts such a bank in force. -/
theorem not_saveAndForget : ¬ Obligations.SaveAndForget := by
  intro h
  obtain ⟨hthird, h0, h1⟩ := thirdBank_ok
  obtain ⟨-, -, hforget⟩ := h thirdBank thirdBank_takes
  obtain ⟨t, ht, hnone, -⟩ := hforget (by decide)
  rw [exec_forget thirdBank_takes (by decide)] at ht
  obtain rfl : thirdBank.shedForget = t := Host.Outcome.next.inj ht
  have hforce := (hnone h0 h1).1
  rw [inForce_shedForget_of_valid rfl hthird] at hforce
  exact absurd hforce (Option.some_ne_none 2)

end Machine
end Sys2Proof
end

section
/-! SUPPORT. Events that cannot reset the part in its state, and a shutdown that finds a page program (R121, R328). -/

namespace Sys2Proof
namespace Machine

/-- Settles O34: each event that cannot reset the part leaves it as it is, and a shutdown that finds a page program is only noted. -/
theorem resetsHeldBack : Obligations.ResetsHeldBack := by
  refine ⟨fun i s h => ?_, fun s hon hjobs => ?_⟩
  · rcases h with ⟨rfl, h⟩ | ⟨rfl, h⟩ | ⟨rfl, h⟩ | ⟨rfl, h⟩ | ⟨rfl, h⟩ | ⟨rfl, h⟩
    · exact congrArg Host.Outcome.next (if_pos h)
    · exact congrArg Host.Outcome.next (if_pos h)
    · exact congrArg Host.Outcome.next (if_neg (by simp [h]))
    · exact congrArg Host.Outcome.next (if_neg (by simp [h]))
    · exact congrArg Host.Outcome.next (if_neg (by simp [h]))
    · exact congrArg Host.Outcome.next (if_neg (by rcases h with h | h <;> simp [h]))
  · have hop : s.thermalOp = if s.shedByHc then
        State.after { s with pw := { s.pw with deferred := true } } (s.hcOf 3000) .thermalDeferralExpiry
      else { s with pw := { s.pw with deferred := true } } :=
      (if_neg (by simp [hon])).trans (if_pos (by simp [hon, hjobs]))
    refine ⟨_, congrArg Host.Outcome.next hop, ?_⟩
    split <;> exact ⟨rfl, rfl⟩

end Machine
end Sys2Proof
end

section
/-! SUPPORT. SYS.CMD: a command that is rejected, and what an accepted one starts (R115 to R121, R286 to R294, R310, R315, R352). -/

namespace Sys2Proof
namespace Machine

/-! A command that is rejected (R115, R352). -/

theorem exec_of_sysCmdOf {i : Instr} {c arg : Nat} (h : sysCmdOf i = some (c, arg)) (s : State) : exec i s = .next (s.sysCmd c arg) := by
  cases i <;> cases h <;> rfl

/-- The commands of SYS.CMD that a row names are defined, and fit the word with their arguments (Table RI-26). -/
theorem sysCmdOf_range {i : Instr} {c arg : Nat} (h : sysCmdOf i = some (c, arg)) : cmdDefined c = true ∧ c < 256 ∧ arg < 256 := by
  cases i <;> cases h
  case reset a => exact ⟨rfl, by decide, a.isLt⟩
  case calpoint a => exact ⟨rfl, by decide, a.isLt⟩
  case faillane a => exact ⟨rfl, by decide, a.isLt⟩
  all_goals decide

theorem hostWrite_sysCmd {s : State} (h : s.takes 0x0008) (v : Word) : s.hostWrite 0x0008 v = s.command v :=
  written_eq_writeBlock (a := 0x0008) v h (fun hp => absurd hp (by decide)) (by decide)

theorem fld_cmdWord {c arg : Nat} (hc : c < 256) (ha : arg < 256) : fld (w16 (c + 256 * arg)) 7 0 = c ∧ fld (w16 (c + 256 * arg)) 15 8 = arg := by
  simp only [fld, w16, BitVec.toNat_ofNat]
  omega

/-- The CMDSTAT of a command that is rejected (R115). -/
def State.cmdRejected (s : State) (c : Nat) (cmd state arg : Bool) : State :=
  State.cmdReject { s with ms := { s.ms with code := c } } cmd state arg

theorem cmdRejected_spec (s : State) (c : Nat) (cmd state arg : Bool) :
    (s.cmdRejected c cmd state arg).ms = { s.ms with code := c, done := false, badcmd := cmd, badstate := state, badarg := arg } ∧
      (s.cmdRejected c cmd state arg).reg 0x0003 = s.reg 0x0003 ||| 4 ∧ s.regsKept (s.cmdRejected c cmd state arg) [0x0003] :=
  ⟨rfl, reg_setFlag _ 0x00 2 0x0003, regsKept_setFlag _ 0x00 2⟩

/-- A command that is accepted: its code shows and the reasons are cleared (R115). -/
def State.cmdTaken (s : State) (c : Nat) : State :=
  { s with ms := { s.ms with code := c, done := false, badcmd := false, badstate := false, badarg := false } }

theorem command_busy {s : State} (v : Word) (hb : s.ms.busy = true) : s.command v = s.cmdRejected (fld v 7 0) false true false :=
  if_pos hb

theorem command_undefined {s : State} {v : Word} (hb : s.ms.busy = false) (hd : cmdDefined (fld v 7 0) = false) :
    s.command v = s.cmdRejected (fld v 7 0) true false false :=
  (if_neg (by simp [hb])).trans (if_pos (by simp [hd]))

/-- The state that a defined command finds where none is BUSY decides before its argument (log entry 44). -/
theorem command_defined {s : State} {v : Word} (hb : s.ms.busy = false) (hd : cmdDefined (fld v 7 0) = true) :
    s.command v = if s.cmdAllowed (fld v 7 0) then
        if cmdBadArg (fld v 7 0) (fld v 15 8) then s.cmdRejected (fld v 7 0) false false true
        else (s.cmdTaken (fld v 7 0)).cmdStart (fld v 7 0) (fld v 15 8)
      else s.cmdRejected (fld v 7 0) false true false := by
  have hallowed : State.cmdAllowed { s with ms := { s.ms with code := fld v 7 0 } } (fld v 7 0) = s.cmdAllowed (fld v 7 0) := rfl
  unfold State.command
  dsimp only
  rw [if_neg (by simp [hb]), if_neg (by simp [hd]), hallowed]
  cases s.cmdAllowed (fld v 7 0) <;> rfl

/-- A row that names a command, where the word takes effect: rejected, or started. -/
theorem exec_sysCmd {i : Instr} {c arg : Nat} {s : State} (hi : sysCmdOf i = some (c, arg)) (ht : s.takes 0x0008) :
    exec i s = .next (if s.ms.busy || !s.cmdAllowed c then s.cmdRejected c false true false
      else if cmdBadArg c arg then s.cmdRejected c false false true else (s.cmdTaken c).cmdStart c arg) := by
  obtain ⟨hdef, hc, ha⟩ := sysCmdOf_range hi
  obtain ⟨hcode, harg⟩ := fld_cmdWord hc ha
  rw [exec_of_sysCmdOf hi, State.sysCmd, hostWrite_sysCmd ht]
  cases hb : s.ms.busy with
  | true => rw [command_busy _ hb, hcode]; rfl
  | false =>
    rw [command_defined hb (by rw [hcode]; exact hdef), hcode, harg]
    cases s.cmdAllowed c <;> rfl

/-- Settles O39: a command that is not started is rejected with one reason, that of its state before that of its argument. -/
theorem commandRejected : Obligations.CommandRejected := by
  refine ⟨fun i c arg s hi ht h => ?_, fun v s ht hb hd => ?_⟩
  · have hop : exec i s = .next (s.cmdRejected c false (s.ms.busy || !s.cmdAllowed c) (!(s.ms.busy || !s.cmdAllowed c))) := by
      rw [exec_sysCmd hi ht]
      cases hstate : s.ms.busy || !s.cmdAllowed c with
      | true => rfl
      | false =>
        have harg : cmdBadArg c arg = true := by simp_all
        rw [harg]
        rfl
    obtain ⟨hms, hreg, hkept⟩ := cmdRejected_spec s c false (s.ms.busy || !s.cmdAllowed c) (!(s.ms.busy || !s.cmdAllowed c))
    exact ⟨_, hop, rfl, hms, hreg, hkept⟩
  · obtain ⟨hms, hreg, hkept⟩ := cmdRejected_spec s (fld v 7 0) true false false
    have hop : exec (.registerWrite 0x0008 v) s = .next (s.cmdRejected (fld v 7 0) true false false) :=
      congrArg Host.Outcome.next ((hostWrite_sysCmd ht v).trans (command_undefined hb hd))
    exact ⟨_, hop, rfl, hms, hreg, hkept⟩

/-! A command that is accepted (R115 to R121, R286 to R294, R310, R315). -/

theorem cmdStart_go {c : Nat} (h0 : 1 ≤ c) (h4 : c ≤ 4) (s : State) (arg : Nat) : s.cmdStart c arg =
    if decide (s.ms.mode = Mode.startup) || s.exiting then { s with ms := { s.ms with held := some c } } else s.goMode c := by
  interval_cases c <;> rfl

theorem goMode_of_there {s : State} {c : Nat} (h : s.ms.mode.code = c) (h3 : c ≠ 3) : s.goMode c = s.cmdDone := if_pos ⟨h, h3⟩

theorem goMode_of_other {s : State} {c : Nat} (h : s.ms.mode.code ≠ c) :
    s.goMode c = { s with ms := { s.ms with busy := true, due := some c } } := by
  have hservice : ¬ (c = 4 ∧ s.ms.mode = .service) := by
    rintro ⟨rfl, hs⟩
    exact h (by rw [hs]; rfl)
  exact (if_neg fun hc => h hc.1).trans (if_neg hservice)

theorem cmdAllowed_mode_ne {s : State} (h : s.cmdAllowed 3 = true) : s.ms.mode.code ≠ 3 := by
  unfold State.cmdAllowed at h
  cases hm : s.ms.mode <;> simp_all [Mode.code]

theorem fillInts_frame (l : List (Option Int)) : ∀ s : State, (s.fillInts l).2 = { s with free := (s.fillInts l).2.free } := by
  induction l with
  | nil => exact fun _ => rfl
  | cons x l ih =>
    intro s
    cases x with
    | some v => exact ih s
    | none => exact (ih s.draw).trans rfl

/-- The values of CALSOLVE only draw free values (log entry 3). -/
theorem solveWords_frame (s : State) : s.solveWords.2 = { s with free := s.solveWords.2.free } := by
  obtain ⟨l, m, h⟩ : ∃ l m, s.solveWords.2 = ((s.fillInts l).2.fillInts m).2 := ⟨_, _, rfl⟩
  rw [h, fillInts_frame m, fillInts_frame l]

/-- CALSOLVE keeps its words for the next frame boundary, and may set the two flags of limited values (R290). -/
theorem solveStart_spec (s : State) : s.solveStart = { s with
      regs := s.solveStart.regs, flagged := s.solveStart.flagged, free := s.solveStart.free
      ca := { s.ca with solve := s.solveStart.ca.solve } } ∧
    s.solveStart.ca.solve.isSome = true ∧ s.regsKept s.solveStart [0x2C03] := by
  obtain ⟨ws, g, o, u, hu, h⟩ : ∃ (ws : List (Nat × Word)) (g o : Bool) (u : State),
      u = (s.solveWords.2.setFlagIf g 0x2C 1).setFlagIf o 0x2C 2 ∧ s.solveStart = { u with ca := { u.ca with solve := some ws } } :=
    ⟨_, _, _, _, rfl, rfl⟩
  have hframe : u = { s with regs := u.regs, flagged := u.flagged, free := u.free } := by
    rw [hu, setFlagIf_frame, setFlagIf_frame, solveWords_frame]
  have hreg (a : Nat) (ha : a ≠ 0x2C03) : u.reg a = s.reg a := by
    rw [hu, reg_setFlagIf, if_neg (by simp [ha]), reg_setFlagIf, if_neg (by simp [ha]), solveWords_frame]
    rfl
  clear hu
  rw [h]
  refine ⟨?_, rfl, fun a ha => hreg a (by simpa using ha)⟩
  rw [hframe]

theorem cmdDone_spec (s : State) :
    s.cmdDone = { s with regs := s.cmdDone.regs, flagged := s.cmdDone.flagged,
                         ms := { s.ms with busy := false, done := true, calBusy := false } } ∧
      s.cmdDone.reg 0x0003 = s.reg 0x0003 ||| 2 ∧ s.regsKept s.cmdDone [0x0003] :=
  ⟨rfl, reg_setFlag _ 0x00 1 0x0003, regsKept_setFlag _ 0x00 1⟩

theorem exec_accepted {i : Instr} {c arg : Nat} {s : State} (hi : sysCmdOf i = some (c, arg)) (ht : s.takes 0x0008)
    (hb : s.ms.busy = false) (hallowed : s.cmdAllowed c = true) (harg : cmdBadArg c arg = false) :
    exec i s = .next ((s.cmdTaken c).cmdStart c arg) := by
  rw [exec_sysCmd hi ht, hb, hallowed, harg]
  rfl

/-- The three ways a GO_ command can go (R115, Table MS-5). -/
theorem cmdStart_go_cases {s : State} {c : Nat} (h0 : 1 ≤ c) (h4 : c ≤ 4) (h3 : c = 3 → s.ms.mode.code ≠ 3) (arg : Nat) :
    (s.ms.mode = .startup ∨ s.exiting = true) ∧ s.cmdStart c arg = { s with ms := { s.ms with held := some c } } ∨
      s.ms.mode ≠ .startup ∧ s.exiting = false ∧ s.ms.mode.code = c ∧ s.cmdStart c arg = s.cmdDone ∨
      s.ms.mode ≠ .startup ∧ s.exiting = false ∧ s.ms.mode.code ≠ c ∧
        s.cmdStart c arg = { s with ms := { s.ms with busy := true, due := some c } } := by
  rw [cmdStart_go h0 h4]
  by_cases hheld : s.ms.mode = .startup ∨ s.exiting = true
  · exact .inl ⟨hheld, if_pos (by simpa using hheld)⟩
  · rw [if_neg (by simpa using hheld)]
    simp only [not_or, Bool.not_eq_true] at hheld
    by_cases hc : s.ms.mode.code = c
    · exact .inr (.inl ⟨hheld.1, hheld.2, hc, goMode_of_there hc fun h => h3 h (hc.trans h)⟩)
    · exact .inr (.inr ⟨hheld.1, hheld.2, hc, goMode_of_other hc⟩)

/-- A calibration command begins: BUSY, and the test DAC does not inject while it runs (R312). -/
def State.calStarted (s : State) : State :=
  { s with ms := { s.ms with busy := true, calBusy := true }, dg := { s.dg with dacOff := true } }

theorem cmdStart_calsolve (s : State) (arg : Nat) : s.cmdStart 0x12 arg = s.calStarted.solveStart := rfl

theorem cmdStart_faillane_failed {s : State} {l : Nat} (h : s.dg.failed.contains l = true) : s.cmdStart 0x19 l = s.cmdDone := if_pos h

theorem cmdStart_faillane {s : State} {l : Nat} (h : s.dg.failed.contains l = false) : s.cmdStart 0x19 l =
    { s with ms := { s.ms with busy := true }, dg := { s.dg with forced := s.dg.forced ++ [l] } } :=
  if_neg (by rw [h]; exact Bool.false_ne_true)

/-- Settles O40, by the three ways a GO_ command can go, and the other commands one by one. -/
theorem commandAccepted : Obligations.CommandAccepted := by
  intro i c arg s hi ht hb hallowed harg
  refine ⟨_, exec_accepted hi ht hb hallowed harg, ?_⟩
  by_cases hgo : c ≤ 4
  case pos =>
    have hlow : 1 ≤ c := by
      refine Nat.one_le_iff_ne_zero.2 ?_
      rintro rfl
      exact absurd (sysCmdOf_range hi).1 (by decide)
    have hcodes : c ≠ 0x0F ∧ c ≠ 0x05 ∧ c ≠ 0x13 ∧ c ≠ 0x18 ∧ c ≠ 0x10 ∧ c ≠ 0x11 ∧ c ≠ 0x12 ∧ c ≠ 0x14 ∧ c ≠ 0x19 := by omega
    have hthree : c = 3 → s.ms.mode.code ≠ 3 := by
      rintro rfl
      exact cmdAllowed_mode_ne hallowed
    clear ht hi harg
    rcases cmdStart_go_cases (s := s.cmdTaken c) hlow hgo hthree arg with
      ⟨(hheld : s.ms.mode = .startup ∨ s.exiting = true), hstart⟩ |
        ⟨(hmode : s.ms.mode ≠ .startup), (hexit : s.exiting = false), (hc : s.ms.mode.code = c), hstart⟩ |
        ⟨(hmode : s.ms.mode ≠ .startup), (hexit : s.exiting = false), (hc : s.ms.mode.code ≠ c), hstart⟩
    · have hnot : s.ms.mode ≠ .startup → s.exiting = false → False := fun h hx => by simp [h, hx] at hheld
      rw [hstart]
      simp only [State.cmdTaken, hb, ne_eq, hcodes, not_false_eq_true, imp_self, hgo, State.regsKept,
        List.not_mem_nil, reg_mk, get_regs, implies_true, and_self, Bool.false_eq_true, BitVec.ofNat_eq_ofNat,
        List.mem_cons, or_false, and_true, true_and, false_and, imp_false, forall_const, Decidable.not_not, or_self,
        IsEmpty.forall_iff, List.contains_eq_mem, decide_eq_false_iff_not, decide_eq_true_eq]
      exact ⟨fun h hx => (hnot h hx).elim, fun h hx => (hnot h hx).elim⟩
    · obtain ⟨-, hflag, hkept⟩ := cmdDone_spec (s.cmdTaken c)
      rw [hstart]
      simp only [ne_eq, hcodes, not_false_eq_true, forall_const, hgo, hmode, hexit, Bool.false_eq_true, or_self,
        IsEmpty.forall_iff, hc, hflag, BitVec.ofNat_eq_ofNat, not_true_eq_false, List.contains_eq_mem,
        decide_eq_false_iff_not, decide_eq_true_eq, and_self, and_true, true_and]
      exact ⟨rfl, rfl, rfl, rfl, rfl, rfl, rfl, rfl, rfl, rfl, rfl, hkept⟩
    · rw [hstart]
      simp [hcodes, hmode, hexit, hc, hgo, State.cmdTaken, State.regsKept]
  case neg =>
    clear ht
    cases i <;> cases hi
    case calsolve =>
      obtain ⟨hframe, hsome, hkept⟩ := solveStart_spec (s.cmdTaken 0x12).calStarted
      rw [cmdStart_calsolve]
      generalize (s.cmdTaken 0x12).calStarted.solveStart = t at hframe hsome hkept ⊢
      simp only [ne_eq, not_true_eq_false, IsEmpty.forall_iff, Nat.reduceLeDiff, BitVec.ofNat_eq_ofNat,
        Nat.reduceEqDiff, or_self, Nat.succ_ne_self, or_false, or_true, forall_const, hsome, true_and, List.contains_eq_mem,
        decide_eq_false_iff_not, decide_eq_true_eq, and_self, and_true]
      refine ⟨?_, ?_, ?_, ?_, ?_, ?_, ?_, ?_, ?_, ?_, hkept⟩
      all_goals rw [hframe]; rfl
    case faillane l =>
      cases hf : s.dg.failed.contains l.toNat with
      | false =>
        rw [cmdStart_faillane (s := s.cmdTaken 0x19) hf]
        simp [State.cmdTaken, State.regsKept]
      | true =>
        obtain ⟨-, -, hkept⟩ := cmdDone_spec (s.cmdTaken 0x19)
        rw [cmdStart_faillane_failed (s := s.cmdTaken 0x19) hf]
        simp only [ne_eq, Nat.reduceEqDiff, not_false_eq_true, forall_const, Nat.reduceLeDiff, IsEmpty.forall_iff,
          BitVec.ofNat_eq_ofNat, or_self, Nat.succ_ne_self, Bool.true_eq_false, true_and]
        exact ⟨rfl, rfl, rfl, rfl, rfl, rfl, rfl, rfl, rfl, rfl, hkept⟩
    case goActive | goWatch | goDormant | goService => exact absurd (by decide) hgo
    case reset | selfcal | caltrace | opentest | calzero | calpoint | caltick =>
      simp [State.cmdStart, State.cmdTaken, State.regsKept]

end Machine
end Sys2Proof
end

section
/-! SUPPORT. References: they settle, fall back, leave their window and enter it (R113, R114, R120, R163). -/

namespace Sys2Proof
namespace Machine

/-! The start of a slot (R9, R46, R149). -/

theorem slotBegin_frame (s : State) (pos : Nat) : s.slotBegin pos = { s with
    scan := { s.scan with edges := 0, marked := false, pauseCount := 0, chatIgn := false, tailAt := none
                          paused := s.scan.blkEff && !s.scan.stuckIgn, frames := (s.slotBegin pos).scan.frames }
    clk := { s.clk with stops := 0, cum := 0, tripped := false } } := by
  unfold State.slotBegin
  dsimp only
  split
  · split <;> rfl
  · rfl

/-- A slot that starts on this hc. -/
theorem startSlot_now (s : State) (k : SlotKind) : s.startSlot k 0 = { s with
    scan := { s.scan with slot := some k, h := 0, lead := 0, rest := false, edges := 0, marked := false, pauseCount := 0
                          chatIgn := false, tailAt := none, paused := s.scan.blkEff && !s.scan.stuckIgn
                          frames := (s.startSlot k 0).scan.frames }
    clk := { s.clk with stops := 0, cum := 0, tripped := false } } := by
  unfold State.startSlot
  rw [if_pos rfl, slotBegin_frame]

/-! A GO_ command that proceeds (R115). -/

theorem goMode_frame (s : State) (c : Nat) : s.goMode c = { s with
    regs := (s.goMode c).regs, flagged := (s.goMode c).flagged
    ms := { s.ms with busy := (s.goMode c).ms.busy, done := (s.goMode c).ms.done, calBusy := (s.goMode c).ms.calBusy
                      due := (s.goMode c).ms.due } } := by
  unfold State.goMode
  split
  · rfl
  · split <;> rfl

theorem proceedHeld_frame (s : State) : s.proceedHeld = { s with
    regs := s.proceedHeld.regs, flagged := s.proceedHeld.flagged
    ms := { s.ms with busy := s.proceedHeld.ms.busy, done := s.proceedHeld.ms.done, calBusy := s.proceedHeld.ms.calBusy
                      due := s.proceedHeld.ms.due, held := s.proceedHeld.ms.held } } := by
  unfold State.proceedHeld
  split
  · rfl
  · rw [goMode_frame]

/-! Step 4 ends (R108, R111). -/

/-- What a reference that has settled shows, and nothing after it changes. -/
def State.refPart (s : State) : Bool × RefWait × Nat := (s.ms.refRdy, s.ms.refWait, s.ms.refUse)

theorem setMode_service_ms (s : State) : (s.setMode .service).ms = { s.ms with mode := .service } := by
  unfold State.setMode
  simp only [ne_eq, not_true_eq_false, decide_false, Bool.and_false, Bool.false_eq_true, if_false]
  rfl

/-- The state in which start-up ends, before its mode shows (R111). -/
def State.bootLeft (s : State) : State :=
  { s with ms := { s.ms with step := 0, syncDue := true, calBusy := false }, scan := { s.scan with after := .none }, rq := { s.rq with epochDue := true } }

theorem bootEnd_service (s : State) : (s.bootEnd .service).ms.mode = .service ∧ (s.bootEnd .service).ms.step = 0 ∧
    (s.bootEnd .service).refPart = s.refPart := by
  have hend : s.bootEnd .service = ((s.bootLeft.setMode .service).after 64 .epochReport).proceedHeld := rfl
  have hms : ((s.bootLeft.setMode .service).after 64 .epochReport).ms = { s.bootLeft.ms with mode := .service } := setMode_service_ms _
  rw [hend, proceedHeld_frame]
  have hrefs := congrArg (fun m : ModeCtl => (m.refRdy, m.refWait, m.refUse)) hms
  exact ⟨congrArg ModeCtl.mode hms, congrArg ModeCtl.step hms, hrefs⟩

theorem step4End_refPart (s : State) : s.step4End.refPart = s.refPart := by
  unfold State.step4End
  split
  · exact (bootEnd_service _).2.2
  split
  · rw [startSlot_now]
    rfl
  · unfold State.bootStep6
    split <;> rfl

theorem step4End_of_service {s : State} (h : (s.reg 0x0208).getLsbD 1 = true ∨ s.ms.held = some 4) :
    s.step4End.ms.mode = .service ∧ s.step4End.ms.step = 0 := by
  unfold State.step4End
  rw [if_pos (by simpa [wbit] using h)]
  obtain ⟨hmode, hstep, -⟩ := bootEnd_service { s with scan := { s.scan with nextAt := some s.now } }
  exact ⟨hmode, hstep⟩

/-! A reference settles (R113, R114, R120). -/

/-- The reference is ready, and nothing waits for it. -/
def State.refReady (s : State) : State := { s with ms := { s.ms with refRdy := true, refWait := .none } }

theorem refSettled_of_none {s : State} (h : s.ms.refWait = .none ∨ (s.ms.refUse = 1 ∧ s.ms.refIn = false)) : s.refSettled = s := if_pos h

theorem refSettled_of_startup {s : State} (h : s.ms.refWait = .startup) (hin : s.ms.refUse ≠ 1 ∨ s.ms.refIn = true) :
    s.refSettled = s.refReady.step4End := by
  unfold State.refSettled
  rw [if_neg (by rw [h]; rcases hin with hin | hin <;> simp [hin])]
  simp only [h]
  rfl

theorem refSettled_of_exit {s : State} (h : s.ms.refWait = .exit) (hin : s.ms.refUse ≠ 1 ∨ s.ms.refIn = true) :
    s.refSettled.refPart = (true, .none, s.ms.refUse) ∧ s.refSettled.ms.exit = .reentry ∧ s.refSettled.scan.reLeft = 2 ∧
      s.refSettled.scan.nextAt = some s.now ∧ s.refSettled.regs = s.regs := by
  unfold State.refSettled
  rw [if_neg (by rw [h]; rcases hin with hin | hin <;> simp [hin])]
  simp only [h]
  exact ⟨rfl, rfl, trivial, rfl, rfl⟩

theorem refSettled_of_scan {s : State} (h : s.ms.refWait = .scan) (hin : s.ms.refUse ≠ 1 ∨ s.ms.refIn = true) :
    s.refSettled.refPart = (true, .none, s.ms.refUse) ∧ s.refSettled.ms.syncDue = true ∧
      s.refSettled.scan.nextAt = some s.now ∧ s.refSettled.regs = s.regs := by
  unfold State.refSettled
  rw [if_neg (by rw [h]; rcases hin with hin | hin <;> simp [hin])]
  simp only [h]
  exact ⟨rfl, rfl, rfl, rfl⟩

/-! A wait for a reference (R113, R114, R163). -/

/-- The internal reference, or the external one in its window, settles. -/
theorem refStart_settles {s : State} {src : Nat} (w : RefWait) (h : src ≠ 1 ∨ s.ms.refIn = true) :
    (s.now + s.hcOf (settleTime src (decide (w = .exit))), Instr.refRdy) ∈ (s.refStart w src).agenda := by
  unfold State.refStart
  dsimp only
  rw [if_neg (by rcases h with h | h <;> simp [h])]
  exact List.mem_append_right _ (.head _)

theorem refFallback_of_wait {s : State} (hw : s.ms.refWait ≠ .none) (hu : s.ms.refUse = 1) (hi : s.ms.refIn = false) :
    s.refFallback = (s.setFlag 0x02 0).refStart s.ms.refWait 0 := if_pos (by simp [hw, hu, hi])

theorem refFallback_of_none {s : State} (h : s.ms.refWait = .none ∨ s.ms.refUse ≠ 1 ∨ s.ms.refIn = true) : s.refFallback = s :=
  if_neg (by rcases h with h | h | h <;> simp [h])

theorem refFallback_spec {s : State} (hw : s.ms.refWait ≠ .none) (hu : s.ms.refUse = 1) (hi : s.ms.refIn = false) :
    s.refFallback = { s with regs := s.refFallback.regs, flagged := s.refFallback.flagged, agenda := s.refFallback.agenda
                             ms := { s.ms with refUse := 0, refRdy := false } } ∧
      s.refFallback.reg 0x0203 = s.reg 0x0203 ||| 1 ∧ s.regsKept s.refFallback [0x0203] ∧
      (s.now + s.hcOf (if s.ms.refWait = .exit then 500 else 2000), Instr.refRdy) ∈ s.refFallback.agenda := by
  have hflag : s.regsKept (s.setFlag 0x02 0) [0x0203] := regsKept_setFlag s 0x02 0
  have hevent := refStart_settles (s := s.setFlag 0x02 0) (src := 0) s.ms.refWait (.inl (by decide))
  rw [settleTime] at hevent
  simp only [decide_eq_true_eq] at hevent
  rw [refFallback_of_wait hw hu hi]
  generalize ht : (s.setFlag 0x02 0).refStart s.ms.refWait 0 = t at hevent ⊢
  have hframe := refStart_frame (s.setFlag 0x02 0) s.ms.refWait 0
  rw [ht] at hframe
  refine ⟨?_, ?_, fun a ha => ?_, hevent⟩
  · rw [hframe]
    rfl
  · rw [hframe]
    exact reg_setFlag s 0x02 0 0x0203
  · rw [hframe]
    exact hflag a ha

/-! REFX leaves its window, or enters it (R113, R163). -/

/-- REFX is in its window, or is not. -/
def State.refWindow (s : State) (isIn : Bool) : State := { s with ms := { s.ms with refIn := isIn } }

theorem refLeaves_eq (s : State) : s.refLeaves =
    if decide (s.ms.refUse = 1) && s.hostClocked && decide (s.ms.refWait = RefWait.none) then
      State.setFlag { s with ms := { s.ms with refIn := false, refBad := true } } 0x21 3
    else s.refWindow false := rfl

theorem refLeaves_in_use {s : State} (hu : s.ms.refUse = 1) (hc : s.hostClocked = true) (hw : s.ms.refWait = .none) :
    s.refLeaves = State.setFlag { s with ms := { s.ms with refIn := false, refBad := true } } 0x21 3 :=
  (refLeaves_eq s).trans (if_pos (by simp [hu, hc, hw]))

theorem refLeaves_not_in_use {s : State} (h : s.ms.refUse ≠ 1 ∨ s.hostClocked = false ∨ s.ms.refWait ≠ .none) :
    s.refLeaves = s.refWindow false :=
  (refLeaves_eq s).trans (if_neg (by rcases h with h | h | h <;> simp [h]))

theorem refEnters_of_wait {s : State} (hw : s.ms.refWait ≠ .none) (hu : s.ms.refUse = 1) (hi : s.ms.refIn = false) :
    s.refEnters = (s.refWindow true).refStart s.ms.refWait 1 := if_pos (by simp [hw, hu, hi])

theorem refEnters_of_none {s : State} (h : s.ms.refWait = .none ∨ s.ms.refUse ≠ 1 ∨ s.ms.refIn = true) :
    s.refEnters = s.refWindow true := if_neg (by rcases h with h | h | h <;> simp [h])

/-- Settles O41: one case for each thing that waits for the reference, and for REFX in its window or outside it. -/
theorem referenceEvents : Obligations.ReferenceEvents := by
  refine ⟨fun s hf => ⟨fun h => ?_, fun hw hin => ?_⟩, fun s hf => ⟨fun ⟨hw, hu, hi⟩ => ?_, fun h => ?_⟩, fun s => ?_, fun s => ?_⟩
  · exact congrArg Host.Outcome.next ((if_pos hf).trans (refSettled_of_none h))
  · refine ⟨_, congrArg Host.Outcome.next (if_pos hf), ?_⟩
    cases hwait : s.ms.refWait with
    | none => exact absurd hwait hw
    | startup =>
      rw [refSettled_of_startup hwait hin]
      have hpart := step4End_refPart s.refReady
      simp only [State.refPart, Prod.mk.injEq] at hpart
      obtain ⟨hrdy, hnone, huse⟩ := hpart
      exact ⟨hrdy, hnone, huse, nofun, nofun, fun _ h => step4End_of_service (s := s.refReady) h⟩
    | exit =>
      obtain ⟨hpart, hexit, hleft, hnext, hregs⟩ := refSettled_of_exit hwait hin
      simp only [State.refPart, Prod.mk.injEq] at hpart
      obtain ⟨hrdy, hnone, huse⟩ := hpart
      exact ⟨hrdy, hnone, huse, fun _ => ⟨hexit, hleft, hnext, hregs⟩, nofun, nofun⟩
    | scan =>
      obtain ⟨hpart, hsync, hnext, hregs⟩ := refSettled_of_scan hwait hin
      simp only [State.refPart, Prod.mk.injEq] at hpart
      obtain ⟨hrdy, hnone, huse⟩ := hpart
      exact ⟨hrdy, hnone, huse, nofun, fun _ => ⟨hsync, hnext, hregs⟩, nofun⟩
  · obtain ⟨hframe, hflag, hkept, hevent⟩ := refFallback_spec hw hu hi
    refine ⟨_, congrArg Host.Outcome.next (if_pos hf), hframe.trans ?_, congrArg State.ms hframe, hflag, hkept, hevent⟩
    rw [hframe]
  · exact congrArg Host.Outcome.next ((if_pos hf).trans (refFallback_of_none h))
  · refine ⟨s.refLeaves, rfl, ?_⟩
    by_cases h : s.ms.refUse = 1 ∧ s.hostClocked = true ∧ s.ms.refWait = .none
    · obtain ⟨hu, hc, hw⟩ := h
      rw [refLeaves_in_use hu hc hw]
      refine ⟨rfl, rfl, fun _ _ _ => ⟨rfl, reg_setFlag _ 0x21 3 0x2103⟩, fun h => ?_, regsKept_setFlag _ 0x21 3⟩
      simp [hu, hc, hw] at h
    · rw [refLeaves_not_in_use (by simpa [Classical.not_and_iff_not_or_not, imp_iff_not_or] using h)]
      exact ⟨rfl, rfl, fun hu hc hw => absurd ⟨hu, hc, hw⟩ h, fun _ => ⟨rfl, rfl⟩, fun _ _ => rfl⟩
  · refine ⟨s.refEnters, rfl, ?_⟩
    by_cases h : s.ms.refWait ≠ .none ∧ s.ms.refUse = 1 ∧ s.ms.refIn = false
    · obtain ⟨hw, hu, hi⟩ := h
      have hevent := refStart_settles (s := s.refWindow true) (src := 1) s.ms.refWait (.inr rfl)
      rw [refEnters_of_wait hw hu hi]
      generalize ht : (s.refWindow true).refStart s.ms.refWait 1 = t at hevent ⊢
      have hframe := refStart_frame (s.refWindow true) s.ms.refWait 1
      rw [ht] at hframe
      refine ⟨by rw [hframe]; rfl, by rw [hframe]; rfl, fun _ _ _ => ⟨by rw [hframe], hevent⟩, fun h => ?_⟩
      simp [hw, hu, hi] at h
    · rw [refEnters_of_none (by simpa [Classical.not_and_iff_not_or_not, imp_iff_not_or] using h)]
      exact ⟨rfl, rfl, fun hw hu hi => absurd ⟨hw, hu, hi⟩ h, fun _ => ⟨rfl, rfl⟩⟩

end Machine
end Sys2Proof
end

section
/-! SUPPORT. Bank selection: what an image may change, the bank in force, and the epoch and its page (R109, R323, R324). -/

namespace Sys2Proof
namespace Machine

/-! What an image changes (R320, R321, R323). -/

/-- `t` is `s` but for what an image loads: registers, the settings in force, and the tables of its blocks. -/
def State.imageOnly (s t : State) : Prop :=
  t = { s with regs := t.regs, flagged := t.flagged, force := t.force, tone := t.tone, sv := t.sv, tr := t.tr, gg := t.gg, tb := t.tb
               sh := { s.sh with skip := t.sh.skip } }

theorem State.imageOnly.refl (s : State) : s.imageOnly s := rfl

theorem State.imageOnly.trans {s t u : State} (h : s.imageOnly t) (g : t.imageOnly u) : s.imageOnly u := Eq.trans g (by rw [h])

theorem State.regsOnly.image {s t : State} (h : s.regsOnly t) : s.imageOnly t := Eq.trans h (by rw [h])

theorem imageOnly_skipWords (s : State) (n : Nat) : s.imageOnly (s.skipWords n) := by
  unfold State.skipWords
  split <;> rfl

theorem imageOnly_coefStore (s : State) (lo hi : Word) : s.imageOnly (s.coefStore lo hi) := by
  unfold State.coefStore
  dsimp only
  split
  · exact .refl s
  split
  · exact (regsOnly_setFlagIf s true 0x23 0).image
  · rfl

theorem imageOnly_coefWrite (s : State) (v : Word) : s.imageOnly (s.coefWrite v) := by
  unfold State.coefWrite
  split
  · rfl
  · rfl
  · next lo _ => 
    have hhalf : s.imageOnly { s with sv := { s.sv with half := none } } := rfl
    exact (hhalf.trans (imageOnly_coefStore _ lo v)).trans (regsOnly_setReg _ _ _).image

theorem imageOnly_loadWord (s : State) (a : Nat) (w : Word) : s.imageOnly (s.loadWord a w) := by
  unfold State.loadWord
  split
  · exact imageOnly_coefWrite s w
  split
  · rfl
  split
  · exact imageOnly_skipWords s 1
  split
  · rfl
  split
  · rfl
  split <;> rfl

theorem imageOnly_loadWords (ws : List Word) : ∀ (s : State) (a : Nat), s.imageOnly (s.loadWords a ws) := by
  induction ws with
  | nil => exact fun s _ => .refl s
  | cons w ws ih => exact fun s a => (imageOnly_loadWord s a w).trans (ih (s.loadWord a w) (a + 1))

theorem imageOnly_loadRun (s : State) (typ addr : Nat) (data : List Word) : s.imageOnly (s.loadRun typ addr data) := by
  unfold State.loadRun
  split
  · exact imageOnly_loadWords data s addr
  split
  · split <;> rfl
  split
  · rfl
  · exact imageOnly_skipWords s data.length

theorem imageOnly_loadImage (fuel : Nat) : ∀ (s : State) (ws : List Word), s.imageOnly (s.loadImage fuel ws) := by
  induction fuel with
  | zero => exact fun s _ => .refl s
  | succ fuel ih =>
    intro s ws
    unfold State.loadImage
    split
    · split
      · exact .refl s
      · exact (imageOnly_loadRun s _ _ _).trans (ih _ _)
    · exact .refl s

theorem imageOnly_loadBank (s : State) (pick : Option Nat) : s.imageOnly (s.loadBank pick) := by
  cases pick with
  | none => exact (regsOnly_setReg s _ _).image.trans (regsOnly_setWide _ _ _ _).image
  | some x => exact ((imageOnly_loadImage 4096 s _).trans (regsOnly_setReg _ _ _).image).trans (regsOnly_setWide _ _ _ _).image

theorem imageOnly_setUnc (s : State) (v : Nat) : s.imageOnly (s.setUnc v) := Eq.trans (setUnc_spec s v).1 (by rw [(setUnc_spec s v).1])

theorem imageOnly_takeSettings (s : State) : s.imageOnly s.takeSettings := by
  unfold State.takeSettings
  dsimp only
  refine State.imageOnly.trans ?_ (regsOnly_setFlagIf _ _ _ _).image
  split <;> rfl

theorem reg_takeSettings {s : State} {a : Nat} (h2 : a ≠ 0x2503) : s.takeSettings.reg a = s.reg a := by
  unfold State.takeSettings
  dsimp only
  rw [reg_setFlagIf, if_neg fun hc => h2 hc.2]
  split <;> rfl

/-- The state of an image that is in force but for its settings: RPER, GBIN and the Gauge (R135, R277). -/
def State.imageBegun (s : State) : State :=
  let t := if s.wide 0x220A 2 < 40960 then s.setWide 0x220A 2 40960 else s
  { t with tone := { t.tone with gbin := fld (t.reg 0x040A) 7 0, gdirty := false }
           gg := { t.gg with startAt := if wbit (t.reg 0x2901) 0 then some (t.now + 1) else none } }

theorem imageTaken_eq (s : State) : s.imageTaken = s.imageBegun.takeSettings.setUnc s.imageBegun.takeSettings.unc := rfl

theorem imageOnly_imageBegun (s : State) : s.imageOnly s.imageBegun := by
  unfold State.imageBegun
  split
  · exact (regsOnly_setWide s _ _ _).image.trans rfl
  · rfl

theorem imageOnly_imageTaken (s : State) : s.imageOnly s.imageTaken := by
  rw [imageTaken_eq]
  exact ((imageOnly_imageBegun s).trans (imageOnly_takeSettings _)).trans (imageOnly_setUnc _ _)

theorem reg_imageTaken_epoch (s : State) : s.imageTaken.reg 0x000A = s.reg 0x000A := by
  have hwide : (s.setWide 0x220A 2 40960).reg 0x000A = s.reg 0x000A := (reg_setWide (by decide)).trans (if_neg (by decide))
  have hbegun : s.imageBegun.reg 0x000A = s.reg 0x000A := by
    unfold State.imageBegun
    split
    · exact hwide
    · rfl
  rw [imageTaken_eq, (setUnc_spec _ _).2.2 0x000A (by decide), reg_takeSettings (by decide), hbegun]

/-- What no image changes. -/
theorem State.imageOnly.parts {s t : State} (h : s.imageOnly t) :
    t.sh = { s.sh with skip := t.sh.skip } ∧ t.ms = s.ms ∧ t.link = s.link ∧ t.clk = s.clk ∧ t.rq = s.rq := by
  refine ⟨?_, ?_, ?_, ?_, ?_⟩ <;> rw [h]

/-! The bank in force and the epoch record (R323, R324). -/

/-- The bank that is selected, and what SHED.STAT shows of the banks (R323). -/
def Shed.selected (h : Shed) : Shed :=
  { h with aok := h.bankOk 0, bok := h.bankOk 1, inForce := h.pick, noBank := h.pick.isNone, skip := false, epok := h.epochBest.isSome }

/-- The state with the image of the selected bank, and the wear of both (R321, R331). -/
def State.bankImage (s : State) : State :=
  let t := { s with sh := s.sh.selected }
  let t := (t.setReg 0x2B0B 0).loadBank t.sh.inForce
  (t.setWide (wearAddr 0) 2 (t.sh.wearOf 0)).setWide (wearAddr 1) 2 (t.sh.wearOf 1)

/-- The epoch follows the image (R323). -/
def State.bankLoaded (s : State) : State := s.bankImage.takeEpoch s.bankImage.sh.epochBest

theorem imageOnly_takeEpoch (s : State) (best : Option (Nat × Nat × Nat)) : s.imageOnly (s.takeEpoch best) := by
  cases best with
  | none => rfl
  | some b => exact (regsOnly_setReg s _ _).image.trans (regsOnly_setWide _ _ _ _).image

theorem imageOnly_bankImage (s : State) : State.imageOnly { s with sh := s.sh.selected } s.bankImage :=
  (((regsOnly_setReg _ _ _).image.trans (imageOnly_loadBank _ _)).trans (regsOnly_setWide _ _ _ _).image).trans
    (regsOnly_setWide _ _ _ _).image

theorem epochBest_bankImage (s : State) : s.bankImage.sh.epochBest = s.sh.epochBest := by
  rw [imageOnly_bankImage s]
  rfl

theorem imageOnly_bankLoaded (s : State) : State.imageOnly { s with sh := s.sh.selected } s.bankLoaded :=
  (imageOnly_bankImage s).trans (imageOnly_takeEpoch _ _)

/-- The epoch that starts: one above the record's, or 1 (R123). -/
def epochAfter : Option (Nat × Nat × Nat) → Word
  | some (_, e, _) => w16 (e % 65535 + 1)
  | none => 1

theorem reg_takeEpoch (s : State) (best : Option (Nat × Nat × Nat)) : (s.takeEpoch best).reg 0x000A = epochAfter best := by
  cases best with
  | none => exact (reg_setReg s _ _ _).trans (if_pos rfl)
  | some b => exact ((reg_setWide (by decide)).trans (if_neg (by decide))).trans ((reg_setReg s _ _ _).trans (if_pos rfl))

/-- The program of the epoch page that does not hold the record in force, with one more than its count (R324). -/
def epochJob (kind : JobKind) (epoch : Nat) : Option (Nat × Nat × Nat) → Job
  | some (x, _, c) => { kind, bank := 1 - x, page := 31, bytes := epochBytes epoch (c + 1) }
  | none => { kind, bank := 0, page := 31, bytes := epochBytes epoch 1 }

theorem jobs_shedAdd_epoch {s : State} (h : s.sh.jobs = []) (kind : JobKind) :
    (s.shedAdd [{ kind, bank := 0, page := 31, bytes := [] }]).sh.jobs = [epochJob kind s.epochNow s.sh.epochBest] := by
  unfold State.shedAdd State.shedStart
  have hbest (js : List Job) : Shed.epochBest { s.sh with jobs := js } = s.sh.epochBest := rfl
  simp only [h, List.isEmpty_nil, if_true, List.nil_append, hbest]
  cases s.sh.epochBest with
  | none => split <;> rfl
  | some b => split <;> rfl

theorem bankSelect_eq (s : State) : s.bankSelect = s.bankLoaded.shedAdd [{ kind := .boot, bank := 0, page := 31, bytes := [] }] := rfl

/-- The step-2 program takes only the queue of page programs and its event. -/
theorem shedAdd_frame (s : State) (js : List Job) : s.shedAdd js = { s with
    agenda := (s.shedAdd js).agenda, sh := { s.sh with jobs := (s.shedAdd js).sh.jobs, jobAt := (s.shedAdd js).sh.jobAt } } := by
  unfold State.shedAdd
  dsimp only
  split
  · rw [(shedStart_keeps _).1]
  · rfl

theorem shedAdd_parts (s : State) (js : List Job) :
    (s.shedAdd js).sh = { s.sh with jobs := (s.shedAdd js).sh.jobs, jobAt := (s.shedAdd js).sh.jobAt } ∧ (s.shedAdd js).regs = s.regs ∧
      (s.shedAdd js).ms = s.ms ∧ (s.shedAdd js).link = s.link ∧ (s.shedAdd js).clk = s.clk ∧ (s.shedAdd js).rq = s.rq := by
  refine ⟨?_, ?_, ?_, ?_, ?_, ?_⟩ <;> rw [shedAdd_frame]

theorem bankSelect_parts (s : State) :
    s.bankSelect.sh = { s.bankLoaded.sh with jobs := s.bankSelect.sh.jobs, jobAt := s.bankSelect.sh.jobAt } ∧
      s.bankSelect.regs = s.bankLoaded.regs ∧ s.bankSelect.ms = s.bankLoaded.ms ∧ s.bankSelect.link = s.bankLoaded.link ∧
      s.bankSelect.clk = s.bankLoaded.clk ∧ s.bankSelect.rq = s.bankLoaded.rq := by
  rw [bankSelect_eq]
  exact shedAdd_parts s.bankLoaded _

theorem reg_bankLoaded_epoch (s : State) : s.bankLoaded.reg 0x000A = epochAfter s.sh.epochBest := by
  rw [State.bankLoaded, reg_takeEpoch, epochBest_bankImage]

theorem reg_bankSelect_epoch (s : State) : s.bankSelect.reg 0x000A = epochAfter s.sh.epochBest := by
  obtain ⟨-, hregs, -⟩ := bankSelect_parts s
  rw [State.reg, hregs]
  exact reg_bankLoaded_epoch s

theorem jobs_bankSelect {s : State} (h : s.sh.jobs = []) :
    s.bankSelect.sh.jobs = [epochJob .boot (epochAfter s.sh.epochBest).toNat s.sh.epochBest] := by
  obtain ⟨hsh, -⟩ := (imageOnly_bankLoaded s).parts
  have hjobs : s.bankLoaded.sh.jobs = [] := by rw [hsh]; exact h
  have hbest : s.bankLoaded.sh.epochBest = s.sh.epochBest := by rw [hsh]; rfl
  rw [bankSelect_eq, jobs_shedAdd_epoch hjobs, hbest, State.epochNow, reg_bankLoaded_epoch]

/-- What bank selection leaves: the banks, the epoch with its page, and what no image changes. -/
theorem selectionOp_spec {s : State} (h : s.sh.jobs = []) :
    s.bankSelect.imageTaken.sh = { s.sh.selected with
        skip := s.bankSelect.imageTaken.sh.skip, jobAt := s.bankSelect.sh.jobAt
        jobs := [epochJob .boot (epochAfter s.sh.epochBest).toNat s.sh.epochBest] } ∧
      s.bankSelect.imageTaken.reg 0x000A = epochAfter s.sh.epochBest ∧
      s.bankSelect.imageTaken.ms = s.ms ∧ s.bankSelect.imageTaken.link = s.link ∧ s.bankSelect.imageTaken.clk = s.clk ∧
      s.bankSelect.imageTaken.rq = s.rq := by
  obtain ⟨hsh, hms, hlink, hclk, hrq⟩ := (imageOnly_imageTaken s.bankSelect).parts
  obtain ⟨hsh', hms', hlink', hclk', hrq'⟩ := (imageOnly_bankLoaded s).parts
  obtain ⟨hadded, -, hms'', hlink'', hclk'', hrq''⟩ := bankSelect_parts s
  refine ⟨?_, (reg_imageTaken_epoch _).trans (reg_bankSelect_epoch s), hms.trans (hms''.trans hms'), hlink.trans (hlink''.trans hlink'),
    hclk.trans (hclk''.trans hclk'), hrq.trans (hrq''.trans hrq')⟩
  rw [hsh, hadded, hsh', jobs_bankSelect h]

theorem selectionOp_idle {s : State} (h : s.pw.phase ≠ .on ∨ s.ms.step ≠ 2 ∨ s.sh.jobs ≠ []) : s.selectionOp = s :=
  if_neg (by rcases h with h | h | h <;> simp [h])

theorem selectionOp_step2 {s : State} (hon : s.pw.phase = .on) (hstep : s.ms.step = 2) (hjobs : s.sh.jobs = []) :
    s.selectionOp = s.bankSelect.imageTaken := if_pos (by simp [hon, hstep, hjobs])

/-- Settles O35: the bank in force and the epoch come from the Shed as it was, and the image changes neither. -/
theorem bankSelection : Obligations.BankSelection := by
  refine ⟨fun s h => congrArg Host.Outcome.next (selectionOp_idle h), fun s hon hstep hjobs => ?_⟩
  have hop := selectionOp_step2 hon hstep hjobs
  have hbytes : s.bytesKept s.bankSelect.imageTaken := by
    rw [← hop]
    exact bytesKept_of_keeps (kept_State_selectionOp (.refl s))
  obtain ⟨hsh, hepoch, hms, hlink, hclk, hrq⟩ := selectionOp_spec hjobs
  generalize s.bankSelect.imageTaken = t at *
  refine ⟨t, congrArg Host.Outcome.next hop, by rw [hsh]; rfl, by rw [hsh]; rfl, fun h0 h1 => ?_, fun h0 h1 => ?_, fun h0 h1 => ?_,
    fun h0 h1 => ?_, fun x e c hbest => ?_, fun hbest => ?_, hms, hlink, hclk, hrq, hbytes⟩
  all_goals rw [hsh]
  · simp [Shed.selected, Shed.pick, h0, h1, seqNewer]
  · simp [Shed.selected, Shed.pick, h0, h1]
  · simp [Shed.selected, Shed.pick, h0, h1]
  · simp [Shed.selected, Shed.pick, h0, h1]
  · rw [hepoch, hbest]
    exact ⟨rfl, rfl⟩
  · rw [hepoch, hbest]
    exact ⟨rfl, rfl⟩

end Machine
end Sys2Proof
end

section
/-! SUPPORT. DORMANT: the automatic transition, MODE 3, the wake, the start of the exit, and the EPOCH report after it
(R111, R117 to R120, R250, R253, R265). -/

namespace Sys2Proof
namespace Machine

/-! MODE reads 3 (R118). -/

/-- `t` is `s` but for registers, flags, the calibration session, and the end of its command. -/
def State.calOnly (s t : State) : Prop := t = { s with
  regs := t.regs, flagged := t.flagged, ca := t.ca, ms := { s.ms with busy := t.ms.busy, done := t.ms.done, calBusy := t.ms.calBusy } }

theorem State.calOnly.refl (s : State) : s.calOnly s := rfl

theorem State.calOnly.trans {s t u : State} (h : s.calOnly t) (g : t.calOnly u) : s.calOnly u := Eq.trans g (by rw [h])

theorem State.regsOnly.calOnly {s t : State} (h : s.regsOnly t) : s.calOnly t := Eq.trans h (by rw [h])

theorem calOnly_cmdDone (s : State) : s.calOnly s.cmdDone := rfl

theorem calOnly_calDiscard (s : State) : s.calOnly s.calDiscard := by
  unfold State.calDiscard
  split
  · exact .refl s
  · extract_lets m _ u _
    have hu : s.calOnly u := rfl
    clear_value u m
    split
    · have hmeas : u.calOnly (State.setFlag { u with ca := { u.ca with meas := none } } 0x2C 0) := rfl
      exact (hu.trans hmeas).trans (calOnly_cmdDone _)
    · exact hu.trans rfl
    · exact hu

/-- `t` is `s` in mode `m`, but for what the end of SERVICE changes (R312). -/
def State.modeOnly (s : State) (m : Mode) (t : State) : Prop := t = { s with
  regs := t.regs, flagged := t.flagged, ca := t.ca
  ms := { s.ms with mode := m, busy := t.ms.busy, done := t.ms.done, calBusy := t.ms.calBusy } }

theorem State.calOnly.mode {s t : State} (h : s.calOnly t) (m : Mode) (p k : Nat) :
    s.modeOnly m (State.setFlag { t with ms := { t.ms with mode := m } } p k) :=
  Eq.trans (b := State.setFlag { t with ms := { t.ms with mode := m } } p k) rfl (by rw [h]; rfl)

theorem modeOnly_setMode (s : State) (m : Mode) : s.modeOnly m (s.setMode m) := by
  unfold State.setMode
  extract_lets leaving u
  have hu : s.calOnly u := by
    unfold u
    split
    · exact ((regsOnly_setReg s _ _).trans (regsOnly_setReg _ _ _)).calOnly.trans (calOnly_calDiscard _)
    · exact .refl s
  exact hu.mode m 0 0

theorem setMode_flag (s : State) (m : Mode) : ((s.setMode m).reg 0x0003).getLsbD 0 = true := by
  unfold State.setMode
  dsimp only
  rw [reg_setFlag, if_pos rfl, BitVec.getLsbD_or]
  exact Bool.or_eq_true_iff.2 (.inr rfl)

/-- What runs on HCLK ends where MODE reads 3 (R118). -/
def State.clockedEnd (s : State) : State :=
  State.unschedule { s with
    ms := { s.ms with entering := false, refRdy := false, wakeKept := false, wake := false, exit := .none }
    clk := { s.clk with absence := 0 }, inj := { s.inj with phase := .idle }, sh := { s.sh with jobAt := none } }
    (fun i => decide (i = Instr.shedPageProgramDone) || decide (i = Instr.shedSaveReadbackDone))

/-- DORMANT is entered: GO_DORMANT is done, and the Scarecrow starts (R118). -/
def State.dormantEntered (s : State) : State := (s.setMode .dormant).clockedEnd.cmdDone.skEnter

theorem dormantSet_idle {s : State} (h : s.ms.entering = false ∨ s.ms.mode = .dormant) : s.dormantSet = s :=
  if_pos (by rcases h with h | h <;> simp [h])

theorem dormantSet_entering {s : State} (he : s.ms.entering = true) (hm : s.ms.mode ≠ .dormant) :
    s.dormantSet = if s.ms.wakeKept then s.dormantEntered.wakeUp 1 else s.dormantEntered := by
  unfold State.dormantSet
  rw [if_neg (by simp [he, hm])]
  rfl

/-- The Scarecrow as DORMANT begins (R118, R258). -/
def State.skStarted (s : State) : Scare :=
  { s.sk with running := false, passLeft := 8, gdis := s.gangsOff, fast := true, quiet := 0
              gangs := tab 4 (fun i => { s.gang i with stay := 0, sum := 0, qsum := [0, 0, 0, 0] })
              tapStage := 0, swipeAt := none, lid := none, cyc := none, burstEnd := 0, exitDue := false }

theorem skEnter_eq (s : State) : ∃ bad, s.skEnter = State.setFlagIf { s with sk := s.skStarted } bad 0x27 3 := ⟨_, rfl⟩

theorem skEnter_frame (s : State) : s.skEnter = { s with regs := s.skEnter.regs, flagged := s.skEnter.flagged, sk := s.skStarted } ∧
    s.skEnter.reg 0x0003 = s.reg 0x0003 := by
  obtain ⟨bad, heq⟩ := skEnter_eq s
  rw [heq]
  exact ⟨setFlagIf_frame .., (reg_setFlagIf ..).trans (if_neg (by simp))⟩

/-- The state of a wake cause that is the first (R120, R265), but for its flag. -/
def State.wakeTaken (s : State) (mask : Nat) (out quarter : Nat) (sk : Scare) : State :=
  { s.setReg 0x2728 (w16 mask) with
    ms := { s.ms with wake := true, cause := wakeCode mask, outMask := out, quarter := quarter, ageFrom := s.ft, exit := .waitClock }
    sk := sk, link := { s.link with wakeAssert := true } }

theorem wakeUp_first {s : State} (mask : Nat) (h : s.ms.wake = false) :
    ∃ out quarter sk, s.wakeUp mask = (s.wakeTaken mask out quarter sk).setFlag 0x02 2 := by
  unfold State.wakeUp
  rw [if_neg (by simp [h])]
  dsimp only
  split <;> exact ⟨_, _, _, rfl⟩

theorem wakeTaken_parts (s : State) (mask out quarter : Nat) (sk : Scare) :
    let t := (s.wakeTaken mask out quarter sk).setFlag 0x02 2
    t.ms = { s.ms with wake := true, cause := wakeCode mask, outMask := out, quarter := quarter, ageFrom := s.ft, exit := .waitClock } ∧
      t.sh = s.sh ∧ t.rq = s.rq ∧ t.link = { s.link with wakeAssert := true } := ⟨rfl, rfl, rfl, rfl⟩

/-- The registers of a wake cause that is the first: WCAUSE and the flag WAKE. -/
theorem reg_wakeTaken (s : State) (mask out quarter : Nat) (sk : Scare) (a : Nat) :
    ((s.wakeTaken mask out quarter sk).setFlag 0x02 2).reg a =
      if a = 0x0203 then s.reg a ||| 4 else if a = 0x2728 then w16 mask else s.reg a := by
  have htaken : (s.wakeTaken mask out quarter sk).reg a = if a = 0x2728 then w16 mask else s.reg a := reg_setReg s 0x2728 a (w16 mask)
  rw [reg_setFlag, htaken]
  by_cases ha : a = 0x0203
  · rw [if_pos ha, if_pos ha, if_neg (by rw [ha]; decide)]
    rfl
  · rw [if_neg ha, if_neg ha]

theorem cmdDone_flag (s : State) : s.cmdDone.reg 0x0003 = s.reg 0x0003 ||| 2 := reg_setFlag _ 0x00 1 0x0003

theorem dormantEntered_parts (s : State) :
    s.dormantEntered.ms = { (s.setMode .dormant).ms with
        entering := false, refRdy := false, wakeKept := false, wake := false, exit := .none, busy := false, done := true, calBusy := false } ∧
      s.dormantEntered.sh = { (s.setMode .dormant).sh with jobAt := none } ∧ s.dormantEntered.rq = (s.setMode .dormant).rq ∧
      s.dormantEntered.link = (s.setMode .dormant).link ∧ s.dormantEntered.sk.passLeft = 8 ∧
      s.dormantEntered.reg 0x0003 = (s.setMode .dormant).reg 0x0003 ||| 2 := by
  obtain ⟨hframe, hreg⟩ := skEnter_frame (s.setMode .dormant).clockedEnd.cmdDone
  have hflag := cmdDone_flag (s.setMode .dormant).clockedEnd
  refine ⟨?_, ?_, ?_, ?_, ?_, hreg.trans hflag⟩
  all_goals
    unfold State.dormantEntered
    rw [hframe]
    rfl

/-- What DORMANT entry leaves: GO_DORMANT is done, the Scarecrow starts, and nothing is done to the queue or the Shed (R118). -/
theorem dormantEntered_spec (s : State) :
    s.dormantEntered.ms.mode = .dormant ∧ s.dormantEntered.ms.entering = false ∧ s.dormantEntered.ms.refRdy = false ∧
      s.dormantEntered.ms.busy = false ∧ s.dormantEntered.ms.done = true ∧ s.dormantEntered.ms.wake = false ∧
      s.dormantEntered.ms.exit = .none ∧ s.dormantEntered.sh.mem = s.sh.mem ∧ s.dormantEntered.rq = s.rq ∧
      s.dormantEntered.link = s.link ∧ s.dormantEntered.sk.passLeft = 8 ∧
      (s.dormantEntered.reg 0x0003).getLsbD 0 = true ∧ (s.dormantEntered.reg 0x0003).getLsbD 1 = true := by
  obtain ⟨hms, hsh, hrq, hlink, hpass, hreg⟩ := dormantEntered_parts s
  have hflag := setMode_flag s .dormant
  have hmode := modeOnly_setMode s .dormant
  generalize s.setMode .dormant = u at *
  rw [hms, hsh, hrq, hlink, hreg, BitVec.getLsbD_or, BitVec.getLsbD_or, hflag]
  refine ⟨?_, rfl, rfl, rfl, rfl, rfl, rfl, ?_, ?_, ?_, hpass, rfl, Bool.or_eq_true_iff.2 (.inr rfl)⟩ <;> rw [hmode]

/-- What MODE 3 shows, with a host wake request that was kept or without (R118, R265). -/
theorem dormantSet_spec {s : State} (he : s.ms.entering = true) (hm : s.ms.mode ≠ .dormant) :
    s.dormantSet.ms.mode = .dormant ∧ s.dormantSet.ms.entering = false ∧ s.dormantSet.ms.refRdy = false ∧
      s.dormantSet.ms.busy = false ∧ s.dormantSet.ms.done = true ∧ s.dormantSet.sh.mem = s.sh.mem ∧ s.dormantSet.rq = s.rq ∧
      (s.dormantSet.reg 0x0003).getLsbD 0 = true ∧ (s.dormantSet.reg 0x0003).getLsbD 1 = true ∧
      (s.ms.wakeKept = false → s.dormantSet.ms.exit = .none ∧ s.dormantSet.ms.wake = false ∧ s.dormantSet.sk.passLeft = 8 ∧
        s.dormantSet.link = s.link) ∧
      (s.ms.wakeKept = true → s.dormantSet.ms.exit = .waitClock ∧ s.dormantSet.ms.wake = true ∧
        s.dormantSet.link.wakeAssert = true) := by
  obtain ⟨hmode, hent, hrdy, hbusy, hdone, hwake, hexit, hmem, hrq, hlink, hpass, hf0, hf1⟩ := dormantEntered_spec s
  rw [dormantSet_entering he hm]
  cases hkept : s.ms.wakeKept with
  | false => exact ⟨hmode, hent, hrdy, hbusy, hdone, hmem, hrq, hf0, hf1, fun _ => ⟨hexit, hwake, hpass, hlink⟩, nofun⟩
  | true =>
    obtain ⟨out, quarter, sk, heq⟩ := wakeUp_first 1 hwake
    have hreg := (reg_wakeTaken s.dormantEntered 1 out quarter sk 0x0003).trans (if_neg (by decide))
    rw [if_neg (by decide)] at hreg
    obtain ⟨hms, hsh, hrq', hlink'⟩ := wakeTaken_parts s.dormantEntered 1 out quarter sk
    rw [if_pos rfl, heq, hreg, hms, hsh, hrq', hlink']
    exact ⟨hmode, hent, hrdy, hbusy, hdone, hmem, hrq, hf0, hf1, nofun, fun _ => ⟨rfl, rfl, rfl⟩⟩

/-! The host wakes the part (R79, R265). -/

theorem hostWake_clocked {s : State} (hw : s.ms.wake = false) (he : s.ms.entering = false) (hm : s.ms.mode ≠ .dormant) : s.hostWake = s := by
  unfold State.hostWake
  rw [if_neg (by simp [hm]), if_neg (by simp [hw]), if_neg (by simp [he])]

theorem hostWake_dormant {s : State} (hm : s.ms.mode = .dormant) (he : s.ms.exit = .none) :
    s.hostWake = State.wakeUp { s with pw := { s.pw with attnHost := true } } 1 := if_pos (by simp [hm, he])

/-! The first HCLK edge of the exit (R120, R250, R376). -/

/-- The exit begins with AGE as it is taken, and the Scarecrow ends (R120, R265). -/
def State.exitAged (s : State) (age : Nat) : State :=
  { s with ms := { s.ms with age := age, exit := .relock }, sk := { s.sk with running := false, cyc := none, burstEnd := 0, exitDue := false } }

/-- The TSC has advanced by the absence (R250). -/
def State.exitTimed (s : State) : State :=
  (s.advance s.clk.absence (s.reg 0x0312).toNat 32 32).exitAged (min 65535 ((s.ft - s.ms.ageFrom) / 32))

/-- A staged declaration takes effect, or an anchor is written (R248, R250). -/
def State.exitDeclared (s : State) : State :=
  match s.clk.staged with
  | some f => s.changeDeclaration f
  | none => s.writeAnchor

/-- The scan and the clock start again (R120, R376). -/
def State.exitScan (s : State) : State :=
  { s with clk := { s.clk with absence := 0, stops := 0, cum := 0, tripped := false, measFrom := s.now }
           pw := { s.pw with attnHost := false }
           tb := { s.tb with counted := false }
           link := { s.link with noCause := decide (s.ms.cause = 5) }
           scan := { s.scan with slot := none, nextAt := none, rest := false, ended := none } }

theorem exitBegin_eq (s : State) : s.exitBegin = s.exitTimed.exitDeclared.exitScan.clocheExit.pinsStart.startRelock .dormantExit := by
  unfold State.exitBegin
  extract_lets age s1 _ _ s2 s3 _ _ _ _ _ s4
  have h1 : s1 = s.advance s.clk.absence (s.reg 0x0312).toNat 32 32 := rfl
  clear_value s1
  have h2 : s2 = s1.exitAged age := rfl
  clear_value s2
  have h3 : s3 = s2.exitDeclared := rfl
  clear_value s3
  have h4 : s4 = s3.exitScan := rfl
  rw [h4, h3, h2, h1]
  rfl

theorem exitDeclared_spec (s : State) : s.exitDeclared.clk.decl = s.clk.staged.getD s.clk.decl ∧ s.exitDeclared.clk.staged = none ∧
    s.exitDeclared.tb.tsc = s.tb.tsc ∧ s.exitDeclared.tb.hcpos = s.tb.hcpos ∧ s.exitDeclared.now = s.now := by
  unfold State.exitDeclared
  cases hstaged : s.clk.staged with
  | none => exact ⟨rfl, hstaged, rfl, rfl, rfl⟩
  | some f => exact ⟨rfl, rfl, rfl, rfl, rfl⟩

theorem pinsStart_frame (s : State) : ∃ blkAt vsAt, s.pinsStart = { s with
    scan := { s.scan with blkEff := false, blkAt := blkAt, blkTime := 0, stuckIgn := false, chatIgn := false,
                          vsEff := wbit (s.reg 0x220D) 0, vsAt := vsAt } } := by
  obtain ⟨b, v, h⟩ := pinsFollow_frame { s with
    scan := { s.scan with blkEff := false, blkAt := none, blkTime := 0, stuckIgn := false, chatIgn := false,
                          vsEff := wbit (s.reg 0x220D) 0, vsAt := none } }
  exact ⟨b, v, h⟩

/-- The relock that follows a DORMANT exit, with the scan stopped and BLANK deasserted (R120, R376). -/
theorem exitRelock_spec (s : State) :
    let t := s.exitScan.clocheExit.pinsStart.startRelock .dormantExit
    t.clk.lock = false ∧ t.clk.lockAt = s.now + 256 ∧ t.clk.staged = s.clk.staged ∧ t.clk.decl = s.clk.decl ∧ t.tb.tsc = s.tb.tsc ∧
      t.tb.hcpos = s.tb.hcpos ∧ t.scan.slot = none ∧ t.scan.blkEff = false := by
  obtain ⟨b, v, hpins⟩ := pinsStart_frame s.exitScan.clocheExit
  rw [hpins]
  exact ⟨rfl, rfl, rfl, rfl, rfl, rfl, rfl, rfl⟩

theorem exitTimed_spec (s : State) : s.exitTimed.clk = s.clk ∧
    s.exitTimed.tb.tsc = (s.tb.tsc + absenceTicks s.clk.absence (s.reg 0x0312).toNat s.clk.decl) % 2 ^ 48 ∧
    s.exitTimed.tb.hcpos = s.tb.hcpos ∧ s.exitTimed.now = s.now := by
  obtain ⟨hadvance, -⟩ := advance_spec s s.clk.absence (s.reg 0x0312).toNat 32 32
  unfold State.exitTimed
  generalize s.advance s.clk.absence (s.reg 0x0312).toNat 32 32 = t at hadvance
  rw [hadvance]
  exact ⟨rfl, rfl, rfl, rfl⟩

theorem exitBegin_clock (s : State) : s.exitBegin.clk.lock = false ∧ s.exitBegin.clk.lockAt = s.now + 256 ∧ s.exitBegin.clk.staged = none ∧
    s.exitBegin.clk.decl = s.clk.staged.getD s.clk.decl ∧
    s.exitBegin.tb.tsc = (s.tb.tsc + absenceTicks s.clk.absence (s.reg 0x0312).toNat s.clk.decl) % 2 ^ 48 ∧
    s.exitBegin.tb.hcpos = s.tb.hcpos ∧ s.exitBegin.scan.slot = none ∧ s.exitBegin.scan.blkEff = false := by
  obtain ⟨hclk, htsc, hpos, hnow⟩ := exitTimed_spec s
  obtain ⟨hdecl, hstaged, htsc', hpos', hnow'⟩ := exitDeclared_spec s.exitTimed
  obtain ⟨hlock, hat, hstaged', hdecl', htsc'', hpos'', hslot, hblk⟩ := exitRelock_spec s.exitTimed.exitDeclared
  rw [exitBegin_eq, hlock, hat, hstaged', hdecl', htsc'', hpos'', hslot, hblk, hdecl, hstaged, htsc', hpos', hnow', hclk, htsc, hpos, hnow]
  exact ⟨rfl, rfl, rfl, rfl, rfl, rfl, rfl, rfl⟩

theorem exitStart_idle {s : State} (h : s.ms.mode ≠ .dormant ∨ s.ms.exit ≠ .waitClock) : s.exitStart = s :=
  if_pos (by rcases h with h | h <;> simp [h])

theorem exitStart_dormant {s : State} (hm : s.ms.mode = .dormant) (he : s.ms.exit = .waitClock) :
    s.exitStart = if s.burstUntil.isSome then { s with sk := { s.sk with exitDue := true } } else s.exitBegin :=
  if_neg (by simp [hm, he])

/-! The EPOCH report (R111, R237, R253). -/

/-- The gate stands as it was, and no lifecycle report has left its entry. -/
structure State.queuesOn (s t : State) : Prop where
  due : t.rq.epochDue = s.rq.epochDue
  gated : t.rq.gated = s.rq.gated
  rebased : t.rq.rebased = s.rq.rebased
  lives : ∀ r ∈ s.rq.entries, r.life = true → r ∈ t.rq.entries

theorem State.queuesOn.refl (s : State) : s.queuesOn s := ⟨rfl, rfl, rfl, fun _ h _ => h⟩

theorem State.queuesOn.trans {s t u : State} (h : s.queuesOn t) (g : t.queuesOn u) : s.queuesOn u :=
  ⟨g.due.trans h.due, g.gated.trans h.gated, g.rebased.trans h.rebased, fun r hr hl => g.lives r (h.lives r hr hl) hl⟩

theorem queuesOn_of_rq {s t : State} (h : t.rq = s.rq) : s.queuesOn t := by
  refine ⟨?_, ?_, ?_, fun r hr _ => ?_⟩ <;> rw [h]
  exact hr

/-- The entry of a report with its SEQ: the one it has, or the next, with the epoch of that hc (R237). -/
def State.entryOf (s : State) (r : Report) : Report :=
  match r.seq with
  | some _ => r
  | none => { r with seq := some s.rq.seqNext, epoch := s.epochNow }

theorem takeEntry_rq (s : State) (r : Report) : ∃ n, (s.takeEntry r).rq = { s.rq with entries := s.rq.entries ++ [s.entryOf r], seqNext := n } := by
  unfold State.takeEntry State.entryOf
  cases r.seq with
  | some n => exact ⟨s.rq.seqNext, rfl⟩
  | none => exact ⟨(s.rq.seqNext + 1) % 65536, (timersOnly_timerEvent _ 6).rq⟩

theorem queuesOn_takeEntry (s : State) (r : Report) : s.queuesOn (s.takeEntry r) := by
  obtain ⟨n, h⟩ := takeEntry_rq s r
  refine ⟨?_, ?_, ?_, fun r hr _ => ?_⟩ <;> rw [h]
  exact List.mem_append_left _ hr

theorem queuesOn_waitEntry (s : State) (r : Report) : s.queuesOn (s.waitEntry r) := by
  unfold State.waitEntry
  extract_lets first _ u
  have hu : s.queuesOn u := by
    have hrq : u.rq = _ := (timersOnly_timerEvent _ 6).rq
    refine ⟨?_, ?_, ?_, fun r hr _ => ?_⟩ <;> rw [hrq]
    exact hr
  clear_value u
  split
  · exact hu.trans (queuesOn_of_rq rfl)
  · exact hu

theorem queuesOn_absorbHolder (s : State) (r : Report) : s.queuesOn (s.absorbHolder r).2 := by
  unfold State.absorbHolder
  split
  · exact ⟨rfl, rfl, rfl, fun _ h _ => h⟩
  · exact .refl s

/-- Only motion reports are absorbed (R240). -/
theorem mem_absorbLast {r e : Report} {l : List Report} (he : e ∈ l) (hl : e.life = true) : e ∈ absorbLast r l := by
  induction l with
  | nil => exact he
  | cons x l ih =>
    unfold absorbLast
    rcases List.mem_cons.1 he with rfl | he
    · split
      · exact .head _
      · rw [if_neg (by simp [hl])]
        exact .head _
    · split
      · exact .tail _ (ih he)
      split
      · exact .tail _ he
      · exact .tail _ (ih he)

theorem queuesOn_queueLife {s : State} (r : Report) (h : s.rq.epochDue = false) : s.queuesOn (s.queueLife r) := by
  have htaken : s.queuesOn (if r.up then s.absorbHolder r else (r, s)).2 := by
    split
    · exact queuesOn_absorbHolder s r
    · exact .refl s
  unfold State.queueLife
  generalize (if r.up then s.absorbHolder r else (r, s)) = p at htaken
  obtain ⟨r, u⟩ := p
  dsimp only at htaken ⊢
  rw [if_neg (by rw [htaken.due, h]; decide)]
  split
  · exact htaken.trans (queuesOn_takeEntry ..)
  · exact htaken.trans (queuesOn_waitEntry ..)

theorem queuesOn_queueMove {s : State} (r : Report) (h : s.rq.epochDue = false) : s.queuesOn (s.queueMove r) := by
  unfold State.queueMove
  rw [if_neg (by rw [h]; decide)]
  split
  · exact queuesOn_takeEntry s r
  split
  · exact ⟨rfl, rfl, rfl, fun _ he hl => mem_absorbLast he hl⟩
  split <;> exact ⟨rfl, rfl, rfl, fun _ h _ => h⟩

/-- The gate opens: no report waits behind it, and those that did are queued (R253). -/
def State.gateOpened (s : State) : State := { s with rq := { s.rq with gated := [], epochDue := false } }

theorem queuesOn_openGate (s : State) : s.gateOpened.queuesOn s.openGate :=
  List.foldlRecOn (motive := s.gateOpened.queuesOn) s.rq.gated _ (.refl _) fun u hu r _ => by
    split
    · exact hu.trans (queuesOn_queueLife r hu.due)
    · exact hu.trans (queuesOn_queueMove r hu.due)

/-- An EPOCH report opens the gate, and takes its entry at once where one is free and none waits (R237, R253). -/
theorem queueEpoch_spec (s : State) (cause : Nat) (rebase : Bool) :
    (s.queueEpoch cause rebase).rq.epochDue = false ∧ (s.queueEpoch cause rebase).rq.gated = [] ∧
      (s.queueEpoch cause rebase).rq.rebased = s.rq.rebased ∧
      (s.rq.waiting = [] → s.rq.used < 64 → s.entryOf (s.epochEvent cause rebase) ∈ (s.queueEpoch cause rebase).rq.entries) := by
  unfold State.queueEpoch
  extract_lets r u
  have hu : s.queuesOn u := by
    unfold u
    split
    · exact queuesOn_takeEntry s r
    · exact queuesOn_waitEntry s r
  obtain ⟨hdue, hgated, hrebased, hlives⟩ := queuesOn_openGate u
  refine ⟨hdue, hgated, hrebased.trans hu.rebased, fun hwaiting hused => hlives _ ?_ rfl⟩
  obtain ⟨n, hrq⟩ := takeEntry_rq s r
  have htaken : u.rq = { s.rq with entries := s.rq.entries ++ [s.entryOf r], seqNext := n } := by
    unfold u
    rw [if_pos (by simp [hwaiting, hused]), hrq]
  show _ ∈ u.rq.entries
  rw [htaken]
  exact List.mem_append_right _ (.head _)

/-- Settles O42: each event of the way into DORMANT and out of it, in the states that have it act and in those that do not. -/
theorem dormantPath : Obligations.DormantPath := by
  refine ⟨fun s => ⟨fun ⟨hauto, hmode, h, hidle, hle⟩ => ?_, fun h => ?_⟩, fun s hf => ⟨fun h => ?_, fun he hm => ?_⟩,
    fun s hw he hm => ?_, fun s hm he hw => ?_, fun s h => ?_, fun s hm he hb => ?_, fun s hm he hb => ?_,
    fun s hf => ⟨fun r rest hold => ?_, fun hold hdue => ?_, fun hold hdue => ?_⟩⟩
  · exact congrArg Host.Outcome.next (if_pos (by simp [wbit, hauto, hmode, hidle, hle]))
  · exact congrArg Host.Outcome.next (if_neg (by
      have hauto (hb : (s.reg 0x020C).getLsbD 0 = false) : wbit (s.reg 0x020C) 0 = false := hb
      rcases h with h | h | h
      · simp [hauto h]
      · simp [h]
      · simp [h]))
  · exact congrArg Host.Outcome.next ((if_pos hf).trans (dormantSet_idle h))
  · exact ⟨_, congrArg Host.Outcome.next (if_pos hf), dormantSet_spec he hm⟩
  · exact congrArg Host.Outcome.next (hostWake_clocked hw he hm)
  · obtain ⟨out, quarter, sk, heq⟩ := wakeUp_first (s := { s with pw := { s.pw with attnHost := true } }) 1 hw
    have hreg := reg_wakeTaken { s with pw := { s.pw with attnHost := true } } 1 out quarter sk
    refine ⟨_, congrArg Host.Outcome.next ((hostWake_dormant hm he).trans heq), rfl, rfl, rfl, rfl, 
      (hreg 0x2728).trans (if_neg (by decide)), (hreg 0x0203).trans (if_pos rfl), fun a ha => ?_, rfl⟩
    rw [hreg a, if_neg (by simp_all), if_neg (by simp_all)]
    rfl
  · exact congrArg Host.Outcome.next (exitStart_idle h)
  · exact congrArg Host.Outcome.next ((exitStart_dormant hm he).trans (if_pos (by simpa [Option.isSome_iff_ne_none] using hb)))
  · obtain ⟨hrelock, hpart⟩ := exitBegin_spec s
    obtain ⟨hlock, hat, hstaged, hdecl, htsc, hpos, hslot, hblk⟩ := exitBegin_clock s
    simp only [State.exitPart, Prod.mk.injEq] at hpart
    obtain ⟨hms, hsk, hrq⟩ := hpart
    refine ⟨s.exitBegin, congrArg Host.Outcome.next ((exitStart_dormant hm he).trans (if_neg (by simp [hb]))), ?_⟩
    rw [hms, hsk]
    exact ⟨rfl, hrelock, hlock, hat, hstaged, hdecl, rfl, htsc, hpos, rfl, rfl, hslot, hblk, hrq⟩
  · have hop : s.epochReportOp = { s with rq := { s.rq with epochOld := rest, gated := s.rq.gated ++ [s.epochEvent (s.epochCause r) r] } } := by
      unfold State.epochReportOp
      rw [hold]
    exact congrArg Host.Outcome.next ((if_pos hf).trans hop)
  · have hop : s.epochReportOp = s := by
      unfold State.epochReportOp
      rw [hold]
      exact if_neg (by simp [hdue])
    exact congrArg Host.Outcome.next ((if_pos hf).trans hop)
  · have hbody (c : Nat) : [w16 ((if s.rq.rebased then 0 else c) + 32768 * b2n s.rq.rebased), w16 s.ms.mode.code] =
        [w16 (if s.rq.rebased then 32768 else c), w16 s.ms.mode.code] := by
      cases s.rq.rebased <;> simp [b2n]
    have hop : s.epochReportOp = State.queueEpoch { s with rq := { s.rq with rebased := false } } (s.epochCause s.rq.rebased) s.rq.rebased := by
      unfold State.epochReportOp
      rw [hold]
      exact if_pos hdue
    have hbytes : s.bytesKept s.epochReportOp := bytesKept_of_keeps (kept_State_epochReportOp (.refl s))
    rw [hop] at hbytes
    obtain ⟨hgate, hgated, hrebased, hentry⟩ :=
      queueEpoch_spec { s with rq := { s.rq with rebased := false } } (s.epochCause s.rq.rebased) s.rq.rebased
    refine ⟨_, congrArg Host.Outcome.next ((if_pos hf).trans hop), hgate, hgated, hrebased, fun hwaiting hused =>
      ⟨_, hentry hwaiting hused, rfl, rfl, rfl, rfl, hbody _⟩, hbytes⟩

end Machine
end Sys2Proof
end

section
/-! SUPPORT. What a frame boundary leaves alone: the mode and the changes due, the clock, and what the next frame starts from
(R107, R115, R303, R309, R313). -/

namespace Sys2Proof
namespace Machine

/-! What stands through a boundary. -/

/-- The mode, and the changes of it that are due. -/
def State.changePart (s : State) : Mode × Option Nat × Option Mode × Bool := (s.ms.mode, s.ms.due, s.ms.auto, s.ms.entering)

/-- What the next frame starts from. -/
def State.startPart (s : State) : Nat × Clock × TimeBase × Nat × InjPhase × Option Nat × Bool × Bool × Nat :=
  (s.now, s.clk, s.tb, s.scan.frameNo, s.inj.phase, s.ca.due, s.ms.refBad, s.ms.refDue, s.ms.boundaries)

/-- The mode stands, with the changes due, and a command that is done stays done. -/
structure State.changeKept (s t : State) : Prop where
  change : t.changePart = s.changePart
  done : s.ms.busy = false ∧ s.ms.done = true → t.ms.busy = false ∧ t.ms.done = true

/-- So does what the next frame starts from. -/
structure State.boundaryKept (s t : State) : Prop extends s.changeKept t where
  start : t.startPart = s.startPart

/-- So do AUTOW and the page programs: what ends with the frame before. -/
structure State.endsKept (s t : State) : Prop extends s.boundaryKept t where
  autow : t.reg 0x020C = s.reg 0x020C
  jobs : t.sh.jobs = s.sh.jobs

theorem State.changeKept.trans {s t u : State} (h : s.changeKept t) (g : t.changeKept u) : s.changeKept u :=
  ⟨g.change.trans h.change, g.done ∘ h.done⟩

theorem changeKept_of_ms {s t : State} (h : t.ms = s.ms) : s.changeKept t :=
  ⟨by rw [State.changePart, h]; rfl, by rw [h]; exact id⟩

theorem State.boundaryKept.refl (s : State) : s.boundaryKept s := ⟨⟨rfl, id⟩, rfl⟩

theorem State.boundaryKept.trans {s t u : State} (h : s.boundaryKept t) (g : t.boundaryKept u) : s.boundaryKept u :=
  ⟨h.tochangeKept.trans g.tochangeKept, g.start.trans h.start⟩

theorem State.endsKept.refl (s : State) : s.endsKept s := ⟨.refl s, rfl, rfl⟩

theorem State.endsKept.trans {s t u : State} (h : s.endsKept t) (g : t.endsKept u) : s.endsKept u :=
  ⟨h.toboundaryKept.trans g.toboundaryKept, g.autow.trans h.autow, g.jobs.trans h.jobs⟩

theorem boundaryKept_foldl {α : Type} {f : State → α → State} (h : ∀ (u : State) (x : α), u.boundaryKept (f u x)) (l : List α) (s : State) :
    s.boundaryKept (l.foldl f s) :=
  List.foldlRecOn (motive := s.boundaryKept) l f (.refl s) fun _ hu x _ => hu.trans (h _ x)

theorem endsKept_foldl {α : Type} {f : State → α → State} (h : ∀ (u : State) (x : α), u.endsKept (f u x)) (l : List α) (s : State) :
    s.endsKept (l.foldl f s) :=
  List.foldlRecOn (motive := s.endsKept) l f (.refl s) fun _ hu x _ => hu.trans (h _ x)

theorem State.reportsOnly.boundaryKept {s t : State} (h : s.reportsOnly t) : s.boundaryKept t := by
  rw [State.reportsOnly] at h
  rw [h]
  exact ⟨⟨rfl, id⟩, rfl⟩

theorem State.regsOnly.boundaryKept {s t : State} (h : s.regsOnly t) : s.boundaryKept t := by
  rw [State.regsOnly] at h
  rw [h]
  exact ⟨⟨rfl, id⟩, rfl⟩

theorem State.reportsOnly.endsKept {s t : State} (h : s.reportsOnly t) (hreg : t.reg 0x020C = s.reg 0x020C) : s.endsKept t :=
  ⟨h.boundaryKept, hreg, by rw [State.reportsOnly] at h; rw [h]⟩

theorem State.regsOnly.endsKept {s t : State} (h : s.regsOnly t) (hreg : t.reg 0x020C = s.reg 0x020C) : s.endsKept t :=
  ⟨h.boundaryKept, hreg, by rw [State.regsOnly] at h; rw [h]⟩

theorem endsKept_setReg {s : State} {a : Nat} (v : Word) (h : 0x020C ≠ a) : s.endsKept (s.setReg a v) :=
  (regsOnly_setReg s a v).endsKept ((reg_setReg ..).trans (if_neg h))

/-- No flag is in the word AUTO (Table MS-6). -/
theorem endsKept_setFlagIf (s : State) (c : Bool) (p k : Nat) : s.endsKept (s.setFlagIf c p k) :=
  (regsOnly_setFlagIf s c p k).endsKept ((reg_setFlagIf ..).trans (if_neg fun h => by omega))

theorem endsKept_setFlag (s : State) (p k : Nat) : s.endsKept (s.setFlag p k) := endsKept_setFlagIf s true p k

theorem endsKept_cmdDone (s : State) : s.endsKept s.cmdDone := ⟨⟨⟨rfl, fun _ => ⟨rfl, rfl⟩⟩, rfl⟩, reg_cmdDone (by decide), rfl⟩

theorem endsKept_timerSource (s : State) (clk c : Nat) : s.endsKept (s.timerSource clk c) :=
  State.reportsOnly.endsKept ((timersOnly_countClk s clk).trans (timersOnly_timerEvent _ c)).queueOnly.reportsOnly
    ((reg_timerEvent ..).trans (reg_countClk s clk (by decide)))

/-! Reports, and contacts that a boundary closes (R227, R303). -/

theorem endsKept_queueLane (s : State) (r : Report) : s.endsKept (s.queueLane r) := by
  unfold State.queueLane
  split
  · exact .refl s
  · exact (queueOnly_queueLife s r).reportsOnly.endsKept (reg_queueLife_below s r (by decide))

theorem jobs_of_outsidePart {s t : State} (h : t.outsidePart = s.outsidePart) : t.sh.jobs = s.sh.jobs := by
  simp only [State.outsidePart, Prod.mk.injEq] at h
  obtain ⟨-, -, -, -, hsh, -⟩ := h
  rw [hsh]

theorem endsKept_idleCheck (s : State) : s.endsKept s.idleCheck := by
  refine ⟨?_, reg_idleCheck s _, jobs_of_outsidePart (outsidePart_idleCheck s)⟩
  unfold State.idleCheck
  split
  · split <;> exact ⟨⟨rfl, id⟩, rfl⟩
  · exact ⟨⟨rfl, id⟩, rfl⟩

theorem endsKept_forceUps (s : State) (sel : Contact → Bool) (reason : Nat) : s.endsKept (s.forceUps sel reason) := by
  refine ⟨?_, reg_forceUps s sel reason (by decide), jobs_of_outsidePart (outsidePart_forceUps s sel reason)⟩
  unfold State.forceUps
  extract_lets cs _ u
  split
  · exact .refl s
  · have hu : s.boundaryKept u := ⟨⟨rfl, id⟩, rfl⟩
    exact (hu.trans (contactReports_spec u _ _).1.boundaryKept).trans (endsKept_idleCheck _).toboundaryKept

/-! The remaps of a boundary (R303 to R306, R315). -/

theorem endsKept_dg (s : State) (d : Diag) : s.endsKept { s with dg := d } := ⟨⟨⟨rfl, id⟩, rfl⟩, rfl, rfl⟩

theorem endsKept_declare (s : State) (lane cause : Nat) (forming : Bool) (frame : Nat) : s.endsKept (s.declare lane cause forming frame) := by
  unfold State.declare
  split
  · exact .refl s
  · exact ((endsKept_dg s _).trans (endsKept_setFlag _ _ 3)).trans (endsKept_setFlagIf _ _ _ _)

theorem endsKept_replaceFrame (s : State) (no : Nat) : s.endsKept (s.replaceFrame no) := ⟨⟨⟨rfl, id⟩, rfl⟩, rfl, rfl⟩

theorem endsKept_forceFail (s : State) (lane : Nat) : s.endsKept (s.forceFail lane) := by
  unfold State.forceFail
  dsimp only
  split
  · exact (endsKept_declare s _ _ _ _).trans (endsKept_replaceFrame _ _)
  · exact endsKept_declare s _ _ _ _

theorem endsKept_laneReportAt (s : State) (late : Bool) (lane kind cause : Nat) : s.endsKept (s.laneReportAt late lane kind cause) := by
  unfold State.laneReportAt
  dsimp only
  split
  · exact endsKept_dg s _
  · exact endsKept_queueLane s _

theorem endsKept_forceLane (s : State) (k : Nat) : s.endsKept (s.forceLane k) := by
  unfold State.forceLane
  split
  · exact .refl s
  · exact endsKept_forceUps s _ 2

theorem endsKept_reacqLane (s : State) (k frame : Nat) : s.endsKept (s.reacqLane k frame) := ⟨⟨⟨rfl, id⟩, rfl⟩, rfl, rfl⟩

/-- A home lane that is lost: its contacts close, its electrodes are re-acquired, and its report is queued (R303). -/
theorem endsKept_laneLost (s : State) (k frame : Nat) (d : Diag) (late : Bool) (lane kind cause : Nat) :
    s.endsKept (((State.reacqLane { s.forceLane k with dg := d } k frame).setFlag 0x2A 0).laneReportAt late lane kind cause) :=
  ((((endsKept_forceLane s k).trans (endsKept_dg _ d)).trans (endsKept_reacqLane _ k frame)).trans (endsKept_setFlag _ 0x2A 0)).trans
    (endsKept_laneReportAt _ late lane kind cause)

theorem endsKept_remapLane (s : State) (frame : Nat) (d : Nat × Nat × Bool × Nat) : s.endsKept (s.remapLane frame d) := by
  obtain ⟨lane, cause, forming, no⟩ := d
  unfold State.remapLane
  dsimp only
  split
  · split
    · exact (endsKept_dg s _).trans (endsKept_laneReportAt _ _ _ _ _)
    · exact (endsKept_dg s _).trans (endsKept_laneLost _ _ frame _ _ _ _ _)
  split
  · exact (endsKept_dg s _).trans (endsKept_laneLost _ _ frame _ _ _ _ _)
  · exact (endsKept_dg s _).trans (endsKept_laneLost _ _ frame _ _ _ _ _)

theorem endsKept_remapBoundary (s : State) (frame : Nat) : s.endsKept (s.remapBoundary frame) :=
  ((endsKept_dg s _).trans (endsKept_foldl endsKept_forceFail _ _)).trans (endsKept_foldl (fun u d => endsKept_remapLane u frame d) _ _)

/-! The overloads, the monitors, and the end of the frame before (R141, R144, R309, R313). -/

theorem endsKept_driveBoundary (s : State) : s.endsKept s.driveBoundary := by
  unfold State.driveBoundary
  refine (endsKept_dg s _).trans (endsKept_foldl (fun u d => ?_) _ _)
  refine (((endsKept_dg u _).trans (endsKept_setReg _ ?_)).trans (endsKept_setFlag _ 0x2A 1)).trans (endsKept_queueLane _ _)
  omega

theorem endsKept_frameEnd (s : State) : s.endsKept s.frameEnd := by
  unfold State.frameEnd
  split
  · exact .refl s
  · exact ⟨⟨⟨rfl, id⟩, rfl⟩, rfl, rfl⟩

theorem endsKept_monitorDiag (s : State) (m : Monitors) : s.endsKept (s.monitorDiag m) := by
  unfold State.monitorDiag
  extract_lets t u v win out pct outs newS newT _ w x
  have hv : s.endsKept v := (endsKept_setReg _ (by decide)).trans (endsKept_foldl (fun y p => endsKept_setReg _ (by omega)) _ u)
  have hx : s.endsKept x := (hv.trans (endsKept_dg v _)).trans (endsKept_setReg _ (by decide))
  exact (hx.trans (endsKept_setFlagIf x newT 0x2A 3)).trans (endsKept_setFlagIf _ newS 0x2A 4)

theorem endsKept_monitorsIn (s : State) (m : Monitors) : s.endsKept (s.monitorsIn m) := by
  unfold State.monitorsIn
  split
  · exact ((endsKept_setReg _ (by decide)).trans (endsKept_setReg _ (by decide))).trans (endsKept_monitorDiag _ m)
  · exact .refl s

theorem endsKept_calDiscard (s : State) : s.endsKept s.calDiscard := by
  unfold State.calDiscard
  split
  · exact .refl s
  · have hca (u : State) (c : Cal) (h : c.due = u.ca.due) : u.endsKept { u with ca := c } := by
      refine ⟨⟨⟨rfl, id⟩, ?_⟩, rfl, rfl⟩
      unfold State.startPart
      rw [h]
    extract_lets m _ u _
    have hu : s.endsKept u := (hca s { s.ca with zero := none, points := [] } rfl).trans (endsKept_setFlag _ 0x2C 6)
    clear_value u m
    split
    · exact ((hu.trans (hca u { u.ca with meas := none } rfl)).trans (endsKept_setFlag _ 0x2C 0)).trans (endsKept_cmdDone _)
    · exact hu.trans (hca u _ rfl)
    · exact hu

end Machine
end Sys2Proof
end

section
/-! SUPPORT. The records that enter as DORMANT is entered leave the mode and its changes alone (R118, R187, R289, R300). -/

namespace Sys2Proof
namespace Machine

theorem ms_foldl {α : Type} {f : State → α → State} (h : ∀ s a, (f s a).ms = s.ms) (l : List α) (s : State) : (l.foldl f s).ms = s.ms :=
  List.foldlRecOn (motive := fun t : State => t.ms = s.ms) l f rfl fun _ ht a _ => (h _ a).trans ht

/-! The Cloche and the health check (R201 to R211, R299 to R301). -/

theorem ms_fillFree (l : List (Option Nat)) : ∀ s : State, (s.fillFree l).2.ms = s.ms := by
  induction l with
  | nil => exact fun _ => rfl
  | cons x l ih =>
    intro s
    cases x with
    | some v => exact ih s
    | none => exact ih s.draw

theorem ms_chargerUpdate (s : State) : s.chargerUpdate.ms = s.ms := by
  unfold State.chargerUpdate
  extract_lets known best u lvl chg
  have hu : u.ms = s.ms := by
    clear_value best
    cases best <;> rfl
  simp [apply_ite State.ms, hu]

theorem ms_clocheInjected (s : State) (i : Nat) (els : List ElecRecs) : (s.clocheInjected i els).ms = s.ms := by
  refine (ms_chargerUpdate _).trans ?_
  split
  · split
    · rfl
    · exact ms_foldl (fun u q => by split <;> rfl) _ s
  · rfl

theorem ms_clocheFrame (s : State) (c : FrameCtx) : (s.clocheFrame c).ms = s.ms := by
  unfold State.clocheFrame
  dsimp only
  generalize hu : State.chargerUpdate _ = u
  have h : u.ms = s.ms := by
    rw [← hu, ms_chargerUpdate, ms_foldl fun _ _ => State.setMap_ms .., ms_foldl fun _ _ => State.setMap_ms ..]
    exact (ms_fillFree ..).trans (ms_fillFree ..)
  simp [apply_ite State.ms, h]

theorem ms_healthCheck (s : State) (v : Health) : (s.healthCheck v).ms = s.ms := by
  unfold State.healthCheck
  split
  · rfl
  · dsimp only
    split <;> simp

theorem ms_declare (s : State) (lane cause : Nat) (forming : Bool) (frame : Nat) : (s.declare lane cause forming frame).ms = s.ms := by
  simp [State.declare, apply_ite State.ms]

theorem ms_frameCheck (s : State) (c : FrameCtx) : (s.frameCheck c).ms = s.ms := by
  unfold State.frameCheck
  dsimp only
  split
  · rfl
  · refine (ms_foldl (fun u f => ?_) _ _).trans rfl
    split <;> exact ms_declare u f.1 f.2.2 false c.no

theorem ms_formEnd (s : State) (frame : Nat) : (s.formEnd frame).ms = s.ms := by
  unfold State.formEnd
  dsimp only
  split
  · rfl
  · exact (ms_foldl (fun _ _ => ms_declare ..) _ _).trans (ms_foldl (fun _ _ => State.setReg_ms ..) _ _)

theorem ms_healthSlot (s : State) (c : FrameCtx) (e : Nat) (hs : List Health) : (s.healthSlot c e hs).ms = s.ms := by
  unfold State.healthSlot
  extract_lets u _ v
  have hu : u.ms = s.ms := by
    dsimp only [u]
    split <;> rfl
  have hv : v.ms = s.ms := by
    refine Eq.trans ?_ hu
    dsimp only [v]
    split
    · split <;> rfl
    · exact ms_foldl ms_healthCheck hs u
  clear_value v
  split
  · exact hv
  split
  · split
    · exact (ms_formEnd ..).trans hv
    · exact hv
  · exact (ms_frameCheck ..).trans hv

/-! The resampler, the baselines and the calibration session (R187 to R196, R215 to R220, R289). -/

theorem ms_takeTarget (s : State) (h : List HistFrame) (t0 t : Int) : (s.takeTarget h t0 t).ms = s.ms := by
  unfold State.takeTarget
  split_ifs <;> rfl

theorem ms_freeRun (h : List HistFrame) (upTo : Int) (fuel : Nat) : ∀ s : State, (s.freeRun h upTo fuel).ms = s.ms := by
  induction fuel with
  | zero => exact fun _ => rfl
  | succ fuel ih =>
    intro s
    unfold State.freeRun
    split
    · dsimp only
      split
      · exact (ih _).trans (ms_takeTarget ..)
      · rfl
    · rfl

theorem ms_resolveTargets (f : HistFrame) (ts : List Int) : ∀ s : State, (s.resolveTargets f ts).ms = s.ms := by
  induction ts with
  | nil => exact fun _ => rfl
  | cons t ts ih =>
    intro s
    unfold State.resolveTargets
    split
    · exact ih s
    · dsimp only
      split
      · split <;> exact ih _
      · exact ih _

theorem ms_resamplerEnter (s : State) (starts : List Nat) (gdly : Nat) (cells : List (List Cell)) :
    (s.resamplerEnter starts gdly cells).ms = s.ms := by
  unfold State.resamplerEnter
  extract_lets no f hist _ _ early _ u _ v w n x
  have hv : v.ms = s.ms := by
    dsimp only [v]
    split
    · split
      · exact ms_foldl (fun _ _ => ms_takeTarget ..) _ _
      · exact ms_takeTarget ..
    · rfl
  have hw : w.ms = v.ms := by
    dsimp only [w]
    split
    · exact ms_freeRun ..
    · rfl
  have hx : x.ms = s.ms := (ms_resolveTargets ..).trans (hw.trans hv)
  clear_value x
  split <;> exact hx

/-- A CALZERO or CALPOINT whose frames are complete is done; no mode changes with it (R289). -/
theorem changePart_calFrame (s : State) (c : FrameCtx) : (s.calFrame c).changePart = s.changePart := by
  have hpoint (u : State) (pt : Nat) (m : CalMeas) (ok : Bool) : (u.pointEnd pt m ok).changePart = u.changePart := by cases ok <;> rfl
  unfold State.calFrame
  split
  · rfl
  · extract_lets _ _ _ _ _ _ _ m _ u
    have hu : u.changePart = s.changePart := rfl
    clear_value m u
    split
    · split <;> exact hu
    · split_ifs
      · exact (hpoint ..).trans hu
      · exact (hpoint ..).trans hu
      · exact hu

/-! The entry of a frame (R187). -/

theorem changePart_of_ms {s t : State} (h : t.ms = s.ms) : t.changePart = s.changePart := (changeKept_of_ms h).change

theorem changePart_normalEntry (s : State) (c : FrameCtx) : (s.normalEntry c).changePart = s.changePart := by
  have hframe (u : State) (cells : List (List Cell)) : (u.trellisFrame c.no cells c.selfVals).ms = u.ms :=
    (State.setFlagIf_ms ..).trans (State.setFlagIf_ms ..)
  refine (changePart_calFrame ..).trans (changePart_of_ms ((ms_clocheFrame ..).trans ((hframe ..).trans ?_)))
  split
  · exact ms_resamplerEnter ..
  · rfl

theorem ms_baseForm (s : State) (re : Bool) (no : Nat) : (s.baseForm re no).ms = s.ms := by
  simp [State.baseForm, apply_ite State.ms]

theorem ms_baseEntry (s : State) (c : FrameCtx) : (s.baseEntry c).ms = s.ms := by
  unfold State.baseEntry
  extract_lets u v
  have hv : v.ms = s.ms := by
    dsimp only [v]
    split_ifs
    · exact ms_baseForm ..
    · exact ms_baseForm ..
    · rfl
  exact (ms_clocheFrame v c).trans hv

theorem ms_peekLoad (s : State) (c : FrameCtx) : (s.peekLoad c).ms = s.ms := by
  unfold State.peekLoad
  dsimp only
  split
  · simp
  · rfl

theorem changePart_frameEntry (s : State) (c : FrameCtx) : (s.frameEntry c).changePart = s.changePart := by
  unfold State.frameEntry
  extract_lets _ u v w
  have hv : v.ms = s.ms := by
    dsimp only [v, State.impulsePassed]
    split <;> rfl
  have hw : w.ms = s.ms := (ms_peekLoad ..).trans hv
  clear_value w v
  split
  · rfl
  split
  · rfl
  split
  · exact changePart_of_ms hv
  split
  · exact (changePart_normalEntry ..).trans (changePart_of_ms hw)
  · exact changePart_of_ms ((ms_baseEntry ..).trans hw)

theorem changePart_recordsIn (s : State) (r : SlotRecs) : (s.recordsIn r).changePart = s.changePart := by
  unfold State.recordsIn
  split
  · split
    · rfl
    · exact changePart_of_ms (ms_clocheInjected ..)
  · rfl
  · split
    · rfl
    · extract_lets _ u
      split
      · rfl
      · extract_lets v
        have h : v.changePart = s.changePart := by
          dsimp only [v]
          split
          · exact changePart_of_ms (ms_healthSlot ..)
          · rfl
        clear_value v
        split
        · split
          · exact (changePart_frameEntry ..).trans h
          · exact h
        · exact h

/-! DORMANT entry (R118). -/

theorem changePart_foldl {α : Type} {f : State → α → State} (h : ∀ s a, (f s a).changePart = s.changePart) (l : List α) (s : State) :
    (l.foldl f s).changePart = s.changePart :=
  List.foldlRecOn (motive := fun t : State => t.changePart = s.changePart) l f rfl fun _ ht a _ => (h _ a).trans ht

/-- DORMANT entry is under way, no change of the mode is due, and the scan has stopped with its triggers (R118, R171). -/
theorem enterDormant_spec (s : State) : s.enterDormant.ms.entering = true ∧ s.enterDormant.ms.due = none ∧
    s.enterDormant.scan.slot = none ∧ s.enterDormant.scan.nextAt = none ∧ s.enterDormant.inj.phase = .idle ∧
    (s.enterDormant.now + 64, Instr.dormantModeSet) ∈ s.enterDormant.agenda := by
  unfold State.enterDormant
  extract_lets u1 u2 _ _ u3 _ u4 u5 drops u6 _ _ _ _ u7
  have h4 : u4.changePart = u3.changePart := changePart_foldl changePart_recordsIn ..
  have h5 : u5.changePart = u4.changePart := changePart_foldl (f := State.outputCount) (fun _ _ => rfl) ..
  have h7 : u7.changePart = u3.changePart := h5.trans h4
  have h3 : u3.changePart = (u2.ms.mode, none, none, true) := rfl
  rw [h3] at h7
  simp only [State.changePart, Prod.mk.injEq] at h7
  obtain ⟨-, hdue, -, hentering⟩ := h7
  exact ⟨hentering, hdue, rfl, rfl, rfl, List.mem_append_right _ (.head _)⟩

end Machine
end Sys2Proof
end

section
/-! SUPPORT. A frame boundary: what ends, the change of the mode, and what starts (R107, R111 to R118, R163, R248, R288). -/

namespace Sys2Proof
namespace Machine

/-! What ends with the boundary (R107, R123, R303, R309). -/

/-- The remaps of a boundary; they end a calibration session where they change the serving lanes (R292, R303). -/
def State.lanesMapped (s : State) : State :=
  let t := s.remapBoundary (s.scan.frameNo + 1)
  if decide ((s.dg.serves, s.dg.interp) ≠ (t.dg.serves, t.dg.interp)) then t.calDiscard else t

/-- FAILLANE is done with its remap (R315). -/
def State.failsDone (s : State) (forced : Bool) : State := if forced then s.cmdDone else s

/-- The frame before the boundary has ended, and the monitors are read. -/
def State.frameOver (s : State) (m : Monitors) : State :=
  let t := s.lanesMapped.failsDone (decide (s.dg.forced ≠ []))
  (if t.scan.framed then t.driveBoundary else t).frameEnd.monitorsIn m

/-- What follows a mode change at a boundary: nothing with DORMANT entry, else what starts there. -/
def State.boundaryGoesOn (service : Bool) (p : State × Bool) : State :=
  if p.2 then p.1 else p.1.boundaryStart (service || decide (p.1.ms.mode = Mode.service))

theorem boundary_eq {s : State} (m : Monitors) (h : s.boundaryDue = true) :
    s.boundary m = State.boundaryGoesOn
      (decide ((s.formatTaken.epochBoundary.activityEnd.frameOver m).ms.mode = Mode.service))
      (s.formatTaken.epochBoundary.activityEnd.frameOver m).modeBoundary := by
  unfold State.boundary
  rw [if_neg (by simp [h])]
  rfl

theorem endsKept_lanesMapped (s : State) : s.endsKept s.lanesMapped := by
  have hremap := endsKept_remapBoundary s (s.scan.frameNo + 1)
  unfold State.lanesMapped
  dsimp only
  split
  · exact hremap.trans (endsKept_calDiscard _)
  · exact hremap

theorem endsKept_failsDone (s : State) (forced : Bool) : s.endsKept (s.failsDone forced) := by
  cases forced with
  | false => exact .refl s
  | true => exact endsKept_cmdDone s

theorem endsKept_frameOver (s : State) (m : Monitors) : s.endsKept (s.frameOver m) := by
  have hmapped := (endsKept_lanesMapped s).trans (endsKept_failsDone _ (decide (s.dg.forced ≠ [])))
  unfold State.frameOver
  extract_lets t
  change s.endsKept t at hmapped
  clear_value t
  refine .trans ?_ ((endsKept_frameEnd _).trans (endsKept_monitorsIn _ m))
  split
  · exact hmapped.trans (endsKept_driveBoundary t)
  · exact hmapped

theorem endsKept_formatTaken (s : State) : s.endsKept s.formatTaken := ⟨⟨⟨rfl, id⟩, rfl⟩, rfl, rfl⟩

theorem epochBoundary_of_none {s : State} (h : s.ms.epochOwed = false) : s.epochBoundary = s := if_neg (by simp [h])

/-- The program of a REBASE's epoch record joins the page programs, and changes nothing else that the boundary works from (R324). -/
theorem epochBoundary_spec (s : State) : s.boundaryKept s.epochBoundary ∧ s.epochBoundary.reg 0x020C = s.reg 0x020C ∧
    s.epochBoundary.scan.after = s.scan.after ∧ (s.sh.jobs ≠ [] → s.epochBoundary.sh.jobs ≠ []) := by
  unfold State.epochBoundary State.shedEpoch
  split
  · dsimp only
    split
    · next hjobs =>
      rw [shedAdd_frame]
      exact ⟨⟨⟨rfl, id⟩, rfl⟩, rfl, rfl, fun h => absurd hjobs h⟩
    · exact ⟨⟨⟨rfl, id⟩, rfl⟩, rfl, rfl, fun _ => List.cons_ne_nil _ _⟩
  · exact ⟨.refl s, rfl, rfl, id⟩

theorem activityEnd_of_none {s : State} (h : s.scan.after = .none) : s.activityEnd = s := by
  unfold State.activityEnd
  rw [h]

theorem boundaryDue_timerSource (s : State) (clk c : Nat) : (s.timerSource clk c).boundaryDue = s.boundaryDue := by
  have h := (timersOnly_countClk s clk).trans (timersOnly_timerEvent (s.countClk clk) c)
  rw [State.timersOnly] at h
  rw [State.timerSource, h]
  rfl

theorem after_timerSource (s : State) (clk c : Nat) : (s.timerSource clk c).scan = s.scan ∧ (s.timerSource clk c).ms = s.ms := by
  have h := (timersOnly_countClk s clk).trans (timersOnly_timerEvent (s.countClk clk) c)
  rw [State.timersOnly] at h
  rw [State.timerSource, h]
  exact ⟨rfl, rfl⟩

theorem boundaryOp_idle {s : State} (m : Monitors) (h : s.boundaryDue = false) : s.boundaryOp m = s := if_neg (by simp [h])

/-- The boundary up to its mode change: what it then works from is what it found, but for an epoch program that joins the others. -/
theorem boundaryOp_due {s : State} (m : Monitors) (h : s.boundaryDue = true) (hafter : s.scan.after = .none) :
    ∃ u : State, s.boundaryKept u ∧ u.reg 0x020C = s.reg 0x020C ∧ (s.sh.jobs ≠ [] → u.sh.jobs ≠ []) ∧
      (s.ms.epochOwed = false → u.sh.jobs = s.sh.jobs) ∧
      s.boundaryOp m = State.boundaryGoesOn (decide (u.ms.mode = Mode.service)) u.modeBoundary := by
  have hsource := (endsKept_timerSource s 2 4).trans (endsKept_formatTaken _)
  obtain ⟨hepoch, hautow, hafter', hjobs⟩ := epochBoundary_spec (s.timerSource 2 4).formatTaken
  obtain ⟨hscan, hms⟩ := after_timerSource s 2 4
  have hnone : (s.timerSource 2 4).formatTaken.epochBoundary.activityEnd = (s.timerSource 2 4).formatTaken.epochBoundary :=
    activityEnd_of_none (hafter'.trans ((congrArg Scan.after hscan).trans hafter))
  have hover := endsKept_frameOver (s.timerSource 2 4).formatTaken.epochBoundary m
  refine ⟨(s.timerSource 2 4).formatTaken.epochBoundary.frameOver m, (hsource.toboundaryKept.trans hepoch).trans hover.toboundaryKept,
    hover.autow.trans (hautow.trans hsource.autow), fun hne => ?_, fun howed => ?_, ?_⟩
  · rw [hover.jobs]
    exact hjobs (by rw [hsource.jobs]; exact hne)
  · have howed' : (s.timerSource 2 4).formatTaken.ms.epochOwed = false := (congrArg ModeCtl.epochOwed hms).trans howed
    rw [hover.jobs, epochBoundary_of_none howed', hsource.jobs]
  · have hop : s.boundaryOp m = (s.timerSource 2 4).boundary m := if_pos h
    rw [hop, boundary_eq m ((boundaryDue_timerSource s 2 4).trans h), hnone]

/-! GO_DORMANT at the boundary (R114, R118, R305). -/

/-- What GO_DORMANT finds at the boundary: a repetition that is dropped, a reference that is gone, and the last anchor. -/
def State.dormantReady (s : State) : State := s.dropRepeat.refGone.writeAnchor

theorem modeBoundary_dormant {s : State} (h : s.ms.due = some 3) : s.modeBoundary = (s.dormantReady.goDormantOp, true) := by
  unfold State.modeBoundary
  rw [h]
  rfl

theorem dormantReady_spec (s : State) : s.dormantReady.ms.mode = s.ms.mode ∧ s.dormantReady.sh = s.sh := by
  have hdrop : s.dropRepeat.ms = s.ms ∧ s.dropRepeat.sh = s.sh := by
    unfold State.dropRepeat
    split
    · split <;> exact ⟨rfl, rfl⟩
    · exact ⟨rfl, rfl⟩
  have hgone (u : State) : u.refGone.ms.mode = u.ms.mode ∧ u.refGone.sh = u.sh := by
    unfold State.refGone
    split <;> exact ⟨rfl, rfl⟩
  obtain ⟨hms, hsh⟩ := hdrop
  obtain ⟨hmode, hsh'⟩ := hgone s.dropRepeat
  exact ⟨hmode.trans (congrArg ModeCtl.mode hms), hsh'.trans hsh⟩

theorem goDormantOp_enters {s : State} (h : s.sh.jobs = []) : s.goDormantOp = s.enterDormant := if_pos (by rw [h]; rfl)

/-- A page program holds DORMANT entry up, and the scan stops (R118; log entry 66). -/
theorem goDormantOp_waits {s : State} (h : s.sh.jobs ≠ []) :
    s.goDormantOp = State.scanStop { s with ms := { s.ms with entering := true, due := none } } :=
  if_neg (by simpa using h)

/-! Another mode command (R111, R115, R116). -/

theorem boundaryKept_forceUps (s : State) (sel : Contact → Bool) (reason : Nat) : s.boundaryKept (s.forceUps sel reason) :=
  (endsKept_forceUps s sel reason).toboundaryKept

theorem boundaryKept_idleRestart (s : State) : s.boundaryKept s.idleRestart := by
  have hcleared : s.boundaryKept { (s.unschedule fun i => decide (i = Instr.automode)) with ms := { s.ms with idleAt := none } } :=
    ⟨⟨rfl, id⟩, rfl⟩
  exact hcleared.trans (endsKept_idleCheck _).toboundaryKept

/-- The mode a GO_ command other than GO_DORMANT names (Table MS-5). -/
def modeOf (c : Nat) : Mode := if c = 1 then .active else if c = 2 then .watch else .service

/-- The mode is taken, with the forced UPs of SERVICE (R227). -/
def State.modeTaken (s : State) (m : Mode) : State :=
  let t := State.setMode { s with ms := { s.ms with due := none, auto := none } } m
  if m = .service then t.forceAll 1 else t

theorem modeBoundary_command {s : State} {c : Nat} (h : s.ms.due = some c) (h3 : c ≠ 3) :
    s.modeBoundary = (if modeOf c = .active then (s.modeTaken (modeOf c)).cmdDone.idleRestart else (s.modeTaken (modeOf c)).cmdDone, false) := by
  unfold State.modeBoundary
  rw [h]
  split
  · next hc => exact absurd (Option.some.inj hc) h3
  · next hc =>
    cases hc
    rfl
  · next hc => exact absurd hc (Option.some_ne_none c)

theorem modeTaken_spec (s : State) (m : Mode) : (s.modeTaken m).ms.mode = m ∧ (s.modeTaken m).ms.due = none := by
  have hmode := modeOnly_setMode { s with ms := { s.ms with due := none, auto := none } } m
  unfold State.modeTaken
  generalize State.setMode { s with ms := { s.ms with due := none, auto := none } } m = t at hmode
  have ht : t.ms.mode = m ∧ t.ms.due = none := by
    rw [hmode]
    exact ⟨rfl, rfl⟩
  dsimp only
  split
  · have hforced := (boundaryKept_forceUps t (fun _ => true) 1).change
    simp only [State.changePart, Prod.mk.injEq] at hforced
    obtain ⟨hm, hd, -, -⟩ := hforced
    exact ⟨hm.trans ht.1, hd.trans ht.2⟩
  · exact ht

/-- A mode command other than GO_DORMANT takes its mode and completes (R115). -/
theorem modeBoundary_command_spec {s : State} {c : Nat} (h : s.ms.due = some c) (h3 : c ≠ 3) :
    s.modeBoundary.2 = false ∧ s.modeBoundary.1.ms.mode = modeOf c ∧ s.modeBoundary.1.ms.due = none ∧
      s.modeBoundary.1.ms.busy = false ∧ s.modeBoundary.1.ms.done = true := by
  obtain ⟨hmode, hdue⟩ := modeTaken_spec s (modeOf c)
  rw [modeBoundary_command h h3]
  refine ⟨rfl, ?_⟩
  dsimp only
  split
  · obtain ⟨⟨hchange, hdone⟩, -⟩ := boundaryKept_idleRestart (s.modeTaken (modeOf c)).cmdDone
    simp only [State.changePart, Prod.mk.injEq] at hchange
    obtain ⟨hm, hd, -, -⟩ := hchange
    exact ⟨hm.trans hmode, hd.trans hdue, hdone ⟨rfl, rfl⟩⟩
  · exact ⟨hmode, hdue, rfl, rfl⟩

/-! No command: an automatic change, or none (R116, R117). -/

theorem startPart_setMode (s : State) (m : Mode) : (s.setMode m).startPart = s.startPart := by
  unfold State.setMode
  extract_lets leaving u
  have hu : u.startPart = s.startPart := by
    unfold u
    split
    · exact (endsKept_calDiscard _).start
    · rfl
  clear_value u
  exact hu

theorem modeBoundary_none {s : State} (h : s.ms.due = none) : s.modeBoundary.2 = false ∧ s.modeBoundary.1.startPart = s.startPart := by
  unfold State.modeBoundary
  rw [h]
  dsimp only
  split
  · next m _ =>
    split
    · refine ⟨rfl, ?_⟩
      dsimp only
      split
      · exact (boundaryKept_idleRestart _).start
      · rfl
    · refine ⟨rfl, ?_⟩
      have hmode : (State.setMode { s with ms := { s.ms with auto := none } } m).startPart = s.startPart := startPart_setMode _ m
      dsimp only
      split
      · exact (boundaryKept_idleRestart _).start.trans hmode
      · exact hmode
  · exact ⟨rfl, rfl⟩

theorem modeBoundary_still {s : State} (h : s.ms.due = none) (hautow : wbit (s.reg 0x020C) 0 = false) (hauto : s.ms.auto = none) :
    s.modeBoundary = (s, false) := by
  unfold State.modeBoundary
  rw [h]
  simp [State.idleOver, hautow, hauto]

/-! The settings that take effect at every boundary (R12, R135, R161, R194, R205, R248, R290). -/

theorem boundaryKept_roam (s : State) : s.boundaryKept s.roam := by
  unfold State.roam
  split
  · exact .refl s
  dsimp only
  split
  · exact .refl s
  split
  · exact (regsOnly_setReg s _ _).boundaryKept
  · exact .refl s

theorem boundaryKept_listenWrites (s : State) : s.boundaryKept s.listenWrites := by
  have hcleared (c : Cloche) : s.boundaryKept { s with cl := c } := ⟨⟨rfl, id⟩, rfl⟩
  refine (hcleared _).trans (boundaryKept_foldl (fun u e => ?_) _ _)
  dsimp only
  split
  · exact (regsOnly_setReg u _ _).boundaryKept
  · exact (endsKept_setFlag u 0x24 3).toboundaryKept

theorem boundaryKept_setPlanErr (s : State) (r e : Nat) (g : Bool) : s.boundaryKept (s.setPlanErr r e g) := by
  unfold State.setPlanErr
  split <;> exact ⟨⟨rfl, id⟩, rfl⟩

theorem boundaryKept_tone (s : State) (p : Plan) : s.boundaryKept { s with tone := p } := ⟨⟨rfl, id⟩, rfl⟩

theorem boundaryKept_commitPlan (s : State) : s.boundaryKept s.commitPlan.1 := by
  unfold State.commitPlan
  split
  · dsimp only
    split
    · exact ⟨⟨rfl, id⟩, rfl⟩
    · exact ((boundaryKept_tone s _).trans (boundaryKept_setPlanErr _ _ _ _)).trans (endsKept_setFlag _ 0x05 1).toboundaryKept
  · exact .refl s

theorem boundaryKept_commitGuard (s : State) (failed : Bool) : s.boundaryKept (s.commitGuard failed).1 := by
  unfold State.commitGuard
  dsimp only
  split
  · split
    · exact ⟨⟨rfl, id⟩, rfl⟩
    · refine State.boundaryKept.trans ?_ (endsKept_setFlag _ 0x05 1).toboundaryKept
      split
      · exact .refl s
      · exact boundaryKept_setPlanErr s _ 0 true
  · exact .refl s

theorem boundaryKept_planChanged (s : State) (cloche : Bool) : s.boundaryKept (s.planChanged cloche) :=
  ((regsOnly_setReg s _ _).boundaryKept.trans (endsKept_setFlag _ 0x05 0).toboundaryKept).trans (boundaryKept_tone _ _)

theorem boundaryKept_replan (s : State) : s.boundaryKept s.replan := by
  unfold State.replan
  obtain ⟨p, moved, noroom⟩ := s.replanMoves s.noisyEntries s.tone.active 0 false
  have hroom := (endsKept_setFlagIf s noroom 0x24 2).toboundaryKept
  dsimp only
  split
  · exact hroom
  · exact (((hroom.trans (boundaryKept_tone _ _)).trans (boundaryKept_planChanged _ true)).trans (endsKept_setFlag _ 0x24 1).toboundaryKept).trans
      (regsOnly_setReg _ _ _).boundaryKept

theorem boundaryKept_planBoundary (s : State) : s.boundaryKept s.planBoundary := by
  unfold State.planBoundary
  extract_lets commitDue c g _ _ u v rest
  have hu : s.boundaryKept u :=
    ((boundaryKept_commitPlan s).trans (boundaryKept_commitGuard c.1 c.2.2)).trans (boundaryKept_tone g.1 _)
  have hv : s.boundaryKept v := by
    unfold v
    split
    · exact hu.trans (boundaryKept_planChanged u false)
    · exact hu
  have hcloche (c : Cloche) : s.boundaryKept { v with cl := c } := hv.trans ⟨⟨rfl, id⟩, rfl⟩
  split
  · exact hv
  split
  · exact hcloche _
  split
  · exact hv
  · exact (hcloche _).trans (boundaryKept_replan _)

theorem boundaryKept_addReacq (s : State) (k : ReacqKind) (frame : Nat) : s.boundaryKept (s.addReacq k frame) := ⟨⟨rfl, id⟩, rfl⟩

theorem boundaryKept_calDiscard (s : State) : s.boundaryKept s.calDiscard := (endsKept_calDiscard s).toboundaryKept

theorem boundaryKept_planReacq (s : State) (old : Plan) (seq : Word) (frame : Nat) : s.boundaryKept (s.planReacq old seq frame) := by
  unfold State.planReacq
  extract_lets moved _ u v
  have hu : s.boundaryKept u := ⟨⟨rfl, id⟩, rfl⟩
  have hv : s.boundaryKept v := by
    unfold v
    split
    · exact hu.trans (boundaryKept_addReacq u .guardTone frame)
    · exact hu
  clear_value v
  split
  · exact hv.trans (boundaryKept_calDiscard v)
  · exact hv

theorem boundaryKept_solveBoundary (s : State) : s.boundaryKept s.solveBoundary := by
  unfold State.solveBoundary
  split
  · exact .refl s
  · have hsolved : s.boundaryKept { s with ca := { s.ca with solve := none } } := ⟨⟨rfl, id⟩, rfl⟩
    exact (hsolved.trans (boundaryKept_foldl (fun u (w : Nat × Word) => (regsOnly_setReg u w.1 w.2).boundaryKept) _ _)).trans
      (endsKept_cmdDone _).toboundaryKept

theorem boundaryKept_panelBoundary (s : State) (frame : Nat) : s.boundaryKept (s.panelBoundary frame) := by
  unfold State.panelBoundary
  extract_lets ok mapNew applied dagger u _ v _ w curveBad
  have hu : s.boundaryKept u := by
    unfold u
    split
    · exact (boundaryKept_forceUps s _ 6).trans (boundaryKept_addReacq _ .filter frame)
    · exact .refl s
  have hv : u.boundaryKept v := by
    unfold v
    split <;> exact ⟨⟨rfl, id⟩, rfl⟩
  have hw : v.boundaryKept w := ⟨⟨rfl, id⟩, rfl⟩
  exact ((hu.trans hv).trans hw).trans
    ((endsKept_setFlagIf w _ 0x25 3).trans (endsKept_setFlagIf _ _ 0x25 3)).toboundaryKept

theorem boundaryKept_filterBoundary (s : State) (frame : Nat) : s.boundaryKept (s.filterBoundary frame).1 := by
  unfold State.filterBoundary
  extract_lets c mode bank len tag _ u v tag'
  have hv : s.boundaryKept v := ⟨⟨rfl, id⟩, rfl⟩
  split
  · have hform : v.boundaryKept ((v.addReacq .filter frame).formStart 1) := ⟨⟨rfl, id⟩, rfl⟩
    exact (hv.trans hform).trans (boundaryKept_calDiscard _)
  · exact hv

theorem boundaryKept_settingsBoundary (s : State) (frame : Nat) : s.boundaryKept (s.settingsBoundary frame).1 := by
  unfold State.settingsBoundary
  extract_lets u apply v w rmode x
  have hu : s.boundaryKept u := by
    unfold u
    split
    · exact (boundaryKept_addReacq s .sense frame).trans (boundaryKept_calDiscard _)
    · exact .refl s
  have hv : u.boundaryKept v := by
    unfold v
    split
    · exact (boundaryKept_forceUps u _ 6).trans (boundaryKept_addReacq _ .filter frame)
    · exact .refl u
  have hw : v.boundaryKept w := by
    unfold w
    split
    · exact ⟨⟨rfl, id⟩, rfl⟩
    · exact .refl v
  have hx : s.boundaryKept x := ((hu.trans hv).trans hw).trans (boundaryKept_panelBoundary w frame)
  exact (hx.trans (boundaryKept_filterBoundary x frame)).trans ⟨⟨rfl, id⟩, rfl⟩

/-- The synchronizing reset that is due at this boundary (R194). -/
def State.synced (s : State) : State := if s.ms.syncDue then State.syncReset { s with ms := { s.ms with syncDue := false } } else s

theorem boundaryKept_synced (s : State) : s.boundaryKept s.synced := by
  unfold State.synced
  split <;> exact ⟨⟨rfl, id⟩, rfl⟩

/-- The settings are in force; the anchor comes last (R248). -/
theorem settingsTaken_eq (s : State) (frames : Bool) : ∃ (u : State) (coefNew : Bool), s.boundaryKept u ∧ s.settingsTaken frames =
    { u.writeAnchor with inj := { u.inj with startedSince := false }, scan := { u.scan with coefNew := coefNew } } := by
  unfold State.settingsTaken
  extract_lets frame old seq u v
  have hu : s.boundaryKept u := by
    unfold u
    split
    · exact boundaryKept_roam s
    · exact .refl s
  have hv : s.boundaryKept v := (((hu.trans (boundaryKept_listenWrites u)).trans (boundaryKept_planBoundary _)).trans
    (boundaryKept_planReacq _ old seq frame)).trans (boundaryKept_solveBoundary _)
  have hw := boundaryKept_settingsBoundary v frame
  clear_value v
  generalize v.settingsBoundary frame = p at hw
  obtain ⟨w, tag⟩ := p
  exact ⟨w.synced, w.synced.scan.coefNew || tag, (hv.trans hw).trans (boundaryKept_synced w), rfl⟩

/-! What starts (R9, R107, R114, R120, R163, R171, R288, R293, R310). -/

theorem ms_startSlot (s : State) (k : SlotKind) (lead : Nat) : (s.startSlot k lead).ms = s.ms := by
  unfold State.startSlot
  dsimp only
  split
  · rw [slotBegin_frame]
  · rfl

theorem ms_injStart (s : State) (h : Nat) (resume : Option Nat) : (s.injStart h resume).ms = s.ms :=
  State.setFlagIf_ms _ _ 0x21 0

theorem ms_injHandle (s : State) : s.injHandle.ms = s.ms := by
  unfold State.injHandle
  split
  · split
    · rfl
    split
    · have hcut : s.cutClips.ms = s.ms := by rw [regsOnly_cutClips s]
      exact (ms_injStart _ _ _).trans hcut
    · rfl
  · exact ms_injStart _ _ _

theorem ms_injHeldNow (s : State) (rep : Bool) : (s.injHeldNow rep).ms = s.ms := by
  unfold State.injHeldNow
  split
  · dsimp only
    split
    · exact ms_injStart _ _ _
    · exact ms_injHandle _
  · rfl

theorem changeKept_refBoundary (s : State) (src : Nat) : s.changeKept (s.refBoundary src) := by
  have hgone : s.changeKept s.refGone := by
    unfold State.refGone
    split <;> exact ⟨rfl, id⟩
  unfold State.refBoundary
  dsimp only
  refine hgone.trans ?_
  rw [refStart_frame]
  exact ⟨rfl, id⟩

theorem changeKept_calBoundary (s : State) (c : Nat) : s.changeKept (s.calBoundary c) := by
  have hbegin (u : State) (a : CalKind) : (u.calBegin a).ms = u.ms := by cases a <;> rfl
  have hdue : s.changeKept { s with ca := { s.ca with due := none } } := ⟨rfl, id⟩
  exact (hdue.trans (boundaryKept_forceUps _ _ 6).tochangeKept).trans (changeKept_of_ms ((ms_startSlot _ _ 0).trans (hbegin _ _)))

/-- M0 of the next frame starts on this hc (R107). -/
theorem frameStart_spec (s : State) : s.changeKept s.frameStart ∧ s.frameStart.scan.slot = some (.regular 0) ∧ s.frameStart.scan.h = 0 ∧
    s.frameStart.scan.lead = 0 ∧ s.frameStart.scan.frameNo = s.scan.frameNo + 1 ∧ s.frameStart.scan.sched = s.now ∧
    s.frameStart.scan.nextAt = none ∧ s.frameStart.ms.boundaries = s.ms.boundaries + 1 ∧ s.frameStart.tb = s.tb ∧
    s.frameStart.inj = s.inj := by
  unfold State.frameStart
  extract_lets k no base tag ctx _ _ _ u
  rw [startSlot_now u]
  exact ⟨⟨rfl, id⟩, rfl, rfl, rfl, rfl, rfl, rfl, rfl, rfl, rfl⟩

theorem changeKept_boundaryFrame (s : State) : s.changeKept s.boundaryFrame :=
  (frameStart_spec s).1.trans (changeKept_of_ms (ms_injHeldNow _ _))

theorem changeKept_settingsTaken (s : State) (frames : Bool) : s.changeKept (s.settingsTaken frames) := by
  obtain ⟨u, coefNew, hkept, heq⟩ := settingsTaken_eq s frames
  rw [heq]
  exact hkept.tochangeKept.trans ⟨rfl, id⟩

theorem changeKept_boundaryStart (s : State) (service : Bool) : s.changeKept (s.boundaryStart service) := by
  unfold State.boundaryStart
  extract_lets due ref u
  have hu : s.changeKept u := changeKept_settingsTaken s _
  clear_value u ref due
  split
  · exact hu.trans (changeKept_refBoundary u _)
  · exact hu.trans (changeKept_calBoundary u _)
  · exact hu.trans (changeKept_boundaryFrame u)

theorem injHeldNow_of_idle {s : State} (rep : Bool) (h : s.inj.phase = .idle) : s.injHeldNow rep = s := if_neg (by simp [h])

/-- With no reference change and no calibration due, the settings are taken, with an anchor, and M0 starts (R107, R248). -/
theorem boundaryStart_frame {s : State} (service : Bool) (hbad : s.ms.refBad = false) (href : s.ms.refDue = false) (hcal : s.ca.due = none)
    (hphase : s.inj.phase = .idle) : (s.boundaryStart service).scan.slot = some (.regular 0) ∧ (s.boundaryStart service).scan.h = 0 ∧
      (s.boundaryStart service).scan.lead = 0 ∧ (s.boundaryStart service).scan.frameNo = s.scan.frameNo + 1 ∧
      (s.boundaryStart service).scan.sched = s.now ∧ (s.boundaryStart service).scan.nextAt = none ∧
      (s.boundaryStart service).ms.boundaries = s.ms.boundaries + 1 ∧
      (s.boundaryStart service).tb.anchors = (s.anchorNow :: s.tb.anchors).take 256 := by
  have hchange : s.refChange service = none := by simp [State.refChange, hbad, href]
  have hdue : (if s.dg.repeatDue.isSome then none else s.ca.due) = none := by rw [hcal, ite_self]
  obtain ⟨u, coefNew, ⟨-, hkept⟩, heq⟩ := settingsTaken_eq s true
  have hstart : s.boundaryStart service = (s.settingsTaken true).boundaryFrame := by
    unfold State.boundaryStart
    rw [hdue, hchange]
    rfl
  simp only [State.startPart, Prod.mk.injEq] at hkept
  obtain ⟨hnow, hclk, htb, hno, hidle, -, -, -, hbound⟩ := hkept
  obtain ⟨-, hslot, hh, hlead, hno', hsched, hnext, hbound', htb', hinj⟩ := frameStart_spec (s.settingsTaken true)
  have hidle' : (s.settingsTaken true).frameStart.inj.phase = .idle := by
    rw [hinj, heq]
    exact hidle.trans hphase
  rw [hstart, State.boundaryFrame, injHeldNow_of_idle _ hidle', hslot, hh, hlead, hno', hsched, hnext, hbound', htb', heq]
  refine ⟨rfl, rfl, rfl, congrArg (· + 1) hno, hnow, rfl, congrArg (· + 1) hbound, ?_⟩
  have hanchor : u.anchorNow = s.anchorNow := by rw [State.anchorNow, State.anchorNow, htb, hclk]
  rw [State.writeAnchor, hanchor, htb]

/-! The boundary as a whole. -/

/-- GO_DORMANT at a boundary finds the page programs there, with those of a REBASE (R118, R324). -/
theorem boundaryOp_dormant {s : State} (m : Monitors) (h : s.boundaryDue = true) (hafter : s.scan.after = .none) (hdue : s.ms.due = some 3) :
    ∃ u : State, s.boundaryOp m = u.goDormantOp ∧ u.ms.mode = s.ms.mode ∧ (s.sh.jobs ≠ [] → u.sh.jobs ≠ []) ∧
      (s.ms.epochOwed = false → u.sh.jobs = s.sh.jobs) := by
  obtain ⟨u, ⟨⟨hchange, -⟩, -⟩, -, hjobs, howed, hop⟩ := boundaryOp_due m h hafter
  simp only [State.changePart, Prod.mk.injEq] at hchange
  obtain ⟨hmode, hdue', -, -⟩ := hchange
  obtain ⟨hmode', hsh⟩ := dormantReady_spec u
  refine ⟨u.dormantReady, ?_, hmode'.trans hmode, by rw [hsh]; exact hjobs, by rw [hsh]; exact howed⟩
  rw [hop, modeBoundary_dormant (hdue'.trans hdue)]
  rfl

/-- Another mode command takes its mode and completes; what starts after it leaves that alone (R115). -/
theorem boundaryOp_command {s : State} {c : Nat} (m : Monitors) (h : s.boundaryDue = true) (hafter : s.scan.after = .none)
    (hdue : s.ms.due = some c) (h3 : c ≠ 3) : (s.boundaryOp m).ms.mode = modeOf c ∧ (s.boundaryOp m).ms.due = none ∧
      (s.boundaryOp m).ms.busy = false ∧ (s.boundaryOp m).ms.done = true := by
  obtain ⟨u, ⟨⟨hchange, -⟩, -⟩, -, -, -, hop⟩ := boundaryOp_due m h hafter
  simp only [State.changePart, Prod.mk.injEq] at hchange
  obtain ⟨-, hdue', -, -⟩ := hchange
  obtain ⟨hgoes, hmode, hnone, hbusy, hdone⟩ := modeBoundary_command_spec (hdue'.trans hdue) h3
  rw [hop, State.boundaryGoesOn, if_neg (by simp [hgoes])]
  generalize (decide (u.ms.mode = Mode.service) || decide (u.modeBoundary.1.ms.mode = Mode.service)) = service
  obtain ⟨hstarts, hdone'⟩ := changeKept_boundaryStart u.modeBoundary.1 service
  simp only [State.changePart, Prod.mk.injEq] at hstarts
  obtain ⟨hm, hd, -, -⟩ := hstarts
  exact ⟨hm.trans hmode, hd.trans hnone, hdone' ⟨hbusy, hdone⟩⟩

/-- With no command, reference change or calibration due the next frame starts; only an automatic change takes the mode (R107, R116). -/
theorem boundaryOp_frame {s : State} (m : Monitors) (h : s.boundaryDue = true) (hafter : s.scan.after = .none) (hdue : s.ms.due = none)
    (hbad : s.ms.refBad = false) (href : s.ms.refDue = false) (hcal : s.ca.due = none) (hphase : s.inj.phase = .idle) :
    (s.boundaryOp m).scan.slot = some (.regular 0) ∧ (s.boundaryOp m).scan.h = 0 ∧ (s.boundaryOp m).scan.lead = 0 ∧
      (s.boundaryOp m).scan.frameNo = s.scan.frameNo + 1 ∧ (s.boundaryOp m).scan.sched = s.now ∧ (s.boundaryOp m).scan.nextAt = none ∧
      (s.boundaryOp m).ms.boundaries = s.ms.boundaries + 1 ∧
      (wbit (s.reg 0x020C) 0 = false → s.ms.auto = none → (s.boundaryOp m).ms.mode = s.ms.mode) ∧
      (s.boundaryOp m).tb.anchors = (s.anchorNow :: s.tb.anchors).take 256 := by
  obtain ⟨u, ⟨⟨hchange, -⟩, hstart⟩, hautow, -, -, hop⟩ := boundaryOp_due m h hafter
  simp only [State.changePart, Prod.mk.injEq] at hchange
  obtain ⟨hmode, hdue', hauto, -⟩ := hchange
  obtain ⟨hgoes, hstart'⟩ := modeBoundary_none (hdue'.trans hdue)
  have hfound := hstart'.trans hstart
  rw [hop, State.boundaryGoesOn, if_neg (by simp [hgoes])]
  generalize (decide (u.ms.mode = Mode.service) || decide (u.modeBoundary.1.ms.mode = Mode.service)) = service
  have hstill (hw : wbit (s.reg 0x020C) 0 = false) (ha : s.ms.auto = none) : u.modeBoundary.1.ms.mode = s.ms.mode := by
    rw [modeBoundary_still (hdue'.trans hdue) (by rw [hautow]; exact hw) (hauto.trans ha)]
    exact hmode
  have hstarts := (changeKept_boundaryStart u.modeBoundary.1 service).change
  simp only [State.changePart, Prod.mk.injEq] at hstarts
  obtain ⟨hmode', -, -, -⟩ := hstarts
  generalize u.modeBoundary.1 = v at *
  simp only [State.startPart, Prod.mk.injEq] at hfound
  obtain ⟨hnow, hclk, htb, hno, hidle, hca, hrb, hrd, hbound⟩ := hfound
  obtain ⟨hslot, hh, hlead, hno', hsched, hnext, hbound', hanchors⟩ := boundaryStart_frame service (hrb.trans hbad) (hrd.trans href)
    (hca.trans hcal) (hidle.trans hphase)
  have hanchor : v.anchorNow = s.anchorNow := by rw [State.anchorNow, State.anchorNow, htb, hclk]
  exact ⟨hslot, hh, hlead, hno'.trans (congrArg (· + 1) hno), hsched.trans hnow, hnext, hbound'.trans (congrArg (· + 1) hbound),
    fun hw ha => hmode'.trans (hstill hw ha), by rw [hanchors, hanchor, htb]⟩

/-- Settles O43: the boundary finds the changes that were due before what ends with it, and takes the one of highest rank. -/
theorem frameBoundary : Obligations.FrameBoundary := by
  rintro m s u rfl
  have hkeeps : Keeps s (s.countHc.boundaryOp m) := kept_State_boundaryOp (kept_State_countHc (.refl s))
  have hbytes := bytesKept_of_keeps hkeeps
  have hexec : exec (.frameBoundary m) s = .next (s.countHc.boundaryOp m) := rfl
  refine ⟨fun h => hexec.trans (congrArg Host.Outcome.next (boundaryOp_idle m h)), fun h hafter hdue hjobs howed => ⟨_, hexec, ?dormant⟩,
    fun c h hafter hdue h3 => ⟨_, hexec, ?command⟩, fun h hafter hdue hjobs => ⟨_, hexec, ?waits⟩,
    fun h hafter hdue hbad href hcal hphase => ⟨_, hexec, ?frame⟩⟩
  case dormant =>
    obtain ⟨u, hop, -, -, howed'⟩ := boundaryOp_dormant m h hafter hdue
    obtain ⟨-, -, hlink, -⟩ := enterDormant_keeps u
    have hunlocked : u.enterDormant.link.unlocked = [] := by rw [hlink]
    obtain ⟨hentering, hnone, hslot, hnext, hphase, hevent⟩ := enterDormant_spec u
    rw [hop, goDormantOp_enters ((howed' howed).trans hjobs)] at hkeeps hbytes ⊢
    rw [hkeeps.now] at hevent
    exact ⟨hentering, hnone, hunlocked, hslot, hnext, hevent, hphase, hbytes⟩
  case command =>
    obtain ⟨hmode, hnone, hbusy, hdone⟩ := boundaryOp_command m h hafter hdue h3
    exact ⟨hmode, hnone, hbusy, hdone, hbytes⟩
  case waits =>
    obtain ⟨u, hop, hmode, hjobs', -⟩ := boundaryOp_dormant m h hafter hdue
    rw [hop, goDormantOp_waits (hjobs' hjobs)] at hbytes ⊢
    exact ⟨rfl, rfl, hmode, rfl, rfl, hbytes⟩
  case frame =>
    have hcount : s.countHc.now = s.now := (kept_State_countHc (.refl s)).now
    obtain ⟨hslot, hh, hlead, hno, hsched, hnext, hbound, hmode, hanchors⟩ := boundaryOp_frame m h hafter hdue hbad href hcal hphase
    exact ⟨hslot, hh, hlead, hno, hsched.trans hcount, hnext, hbound, hmode, hanchors, hbytes⟩

end Machine
end Sys2Proof
end

section
/-! SUPPORT. The control words of the tone plans, the converter and the Sieve (R132, R165, R194). -/

namespace Sys2Proof
namespace Machine

/-! A write to a page's CTRL word. -/

/-- A write to a CTRL word that no lock protects acts as a block word's (R84, R92). -/
theorem hostWrite_ctrl {s : State} {a : Word} (h : s.takes a.toNat) (ho : offOf a.toNat = 1)
    (hp : protectedWord a.toNat = false) (v : Word) : s.hostWrite a v = s.writeBlock a.toNat v := by
  rw [hostWrite_common h (by omega), writePlain_open v (.inl ho) (fun hp' => by simp [hp] at hp')]

/-! COMMIT and SNAP (R132). -/

/-- A bit outside a mask does not show through it. -/
theorem or_and_of_disjoint {w b m : Word} (h : b &&& m = 0) : (w ||| b) &&& m = w &&& m := by
  have hdistrib : (w ||| b) &&& m = (w &&& m) ||| (b &&& m) := by
    ext i
    simp [Bool.and_or_distrib_right]
  rw [hdistrib, h]
  exact BitVec.or_zero

theorem toneCtrl_of_commit {s : State} {v : Word} (h1 : v.getLsbD 1 = false) (h0 : v.getLsbD 0 = true) :
    s.toneCtrl v = s.toneCommit.setReg 0x0501 (v &&& 4) := by
  simp only [State.toneCtrl, wbit, h0, h1, Bool.false_eq_true, if_true, if_false]

theorem toneCtrl_of_snap {s : State} {v : Word} (h1 : v.getLsbD 1 = true) (h0 : v.getLsbD 0 = false) :
    s.toneCtrl v = s.toneSnap.setReg 0x0501 (v &&& 4) := by
  simp only [State.toneCtrl, wbit, h0, h1, Bool.false_eq_true, if_true, if_false]

theorem exec_toneCommit {s : State} (ht : s.takes 0x0501) (h : (s.reg 0x0501).getLsbD 1 = false) :
    exec .toneCommit s = .next (s.toneCommit.setReg 0x0501 (s.reg 0x0501 &&& 4)) := by
  have hword : (s.reg 0x0501 ||| 1) &&& 4 = s.reg 0x0501 &&& 4 := or_and_of_disjoint (by decide)
  have hwrite : s.hostWrite 0x0501 (s.reg 0x0501 ||| 1) = s.toneCtrl (s.reg 0x0501 ||| 1) := hostWrite_ctrl ht rfl rfl _
  exact congrArg Host.Outcome.next (hwrite.trans (by rw [toneCtrl_of_commit (by rw [BitVec.getLsbD_or, h]; rfl) (by simp), hword]))

theorem exec_toneSnap {s : State} (ht : s.takes 0x0501) (h : (s.reg 0x0501).getLsbD 0 = false) :
    exec .toneSnap s = .next (s.toneSnap.setReg 0x0501 (s.reg 0x0501 &&& 4)) := by
  have hword : (s.reg 0x0501 ||| 2) &&& 4 = s.reg 0x0501 &&& 4 := or_and_of_disjoint (by decide)
  have hwrite : s.hostWrite 0x0501 (s.reg 0x0501 ||| 2) = s.toneCtrl (s.reg 0x0501 ||| 2) := hostWrite_ctrl ht rfl rfl _
  exact congrArg Host.Outcome.next (hwrite.trans (by rw [toneCtrl_of_snap (by simp) (by rw [BitVec.getLsbD_or, h]; rfl), hword]))

/-! IGO and RSYNC (R165, R194). -/

theorem exec_igo {s : State} (ht : s.takes 0x2101) :
    exec .igo s = .next (s.storeWord 0x2101 (s.reg 0x2101 ||| 1)).igoOp := by
  have hwrite : s.hostWrite 0x2101 (s.reg 0x2101 ||| 1) = s.adcCtrl (s.reg 0x2101 ||| 1) := hostWrite_ctrl ht rfl rfl _
  exact congrArg Host.Outcome.next (hwrite.trans (if_pos (by simp [wbit])))

theorem exec_sieveRsync {s : State} (ht : s.takes 0x2201) :
    exec .sieveRsync s = .next (s.storeWord 0x2201 (s.reg 0x2201 ||| 8)).rsyncOp := by
  have hwrite : s.hostWrite 0x2201 (s.reg 0x2201 ||| 8) = s.sieveCtrl (s.reg 0x2201 ||| 8) := hostWrite_ctrl ht rfl rfl _
  exact congrArg Host.Outcome.next (hwrite.trans (if_pos (by simp [wbit])))

/-- Settles O23: each row is one bit of a CTRL word, whose effect stands beside the word that the write stores. -/
theorem planAndTriggerWrites : Obligations.PlanAndTriggerWrites := by
  refine ⟨fun s ht h => ⟨_, exec_toneCommit ht h, ?commit⟩, fun s ht h => ⟨_, exec_toneSnap ht h, ?snap⟩,
    fun s ht => ⟨_, exec_igo ht, ?igo⟩, fun s ht => ⟨_, exec_sieveRsync ht, ?rsync⟩⟩
  case commit => exact ⟨rfl, rfl, (reg_setReg ..).trans (if_pos rfl), regsKept_setReg s.toneCommit _ _⟩
  case snap => exact ⟨rfl, rfl, (reg_setReg ..).trans (if_pos rfl), regsKept_setReg s.toneSnap _ _⟩
  case igo =>
    have hframe := storeWord_frame s 0x2101 (s.reg 0x2101 ||| 1)
    obtain ⟨-, hkept⟩ := storeWord_stores s 0x2101 (s.reg 0x2101 ||| 1)
    refine ⟨?_, ?_, hkept⟩ <;> rw [State.igoOp, State.after, hframe]
  case rsync =>
    have hframe := storeWord_frame s 0x2201 (s.reg 0x2201 ||| 8)
    obtain ⟨-, hkept⟩ := storeWord_stores s 0x2201 (s.reg 0x2201 ||| 8)
    refine ⟨?_, ?_, hkept⟩ <;> rw [State.rsyncOp, hframe]

end Machine
end Sys2Proof
end

section
/-! SUPPORT. A stuck contact, and drives at their current limit (R136, R228). -/

namespace Sys2Proof
namespace Machine

/-! Contacts that an event closes (R227, R238). -/

theorem idleCheck_frame (s : State) : s.idleCheck = { s with
    agenda := s.idleCheck.agenda, ms := { s.ms with idleAt := s.idleCheck.ms.idleAt } } := by
  unfold State.idleCheck
  split
  · split <;> rfl
  · rfl

/-- While the core runs the contacts chosen close, and of what the event does not name only the idle time changes. -/
theorem forceUps_running {s : State} (sel : Contact → Bool) (reason : Nat) (h : s.ms.halted = false) :
    s.forceUps sel reason = { s with
      regs := (s.forceUps sel reason).regs, flagged := (s.forceUps sel reason).flagged, tm := (s.forceUps sel reason).tm
      rq := (s.forceUps sel reason).rq, agenda := (s.forceUps sel reason).agenda
      ms := { s.ms with idleAt := (s.forceUps sel reason).ms.idleAt }
      tr := { s.tr with contacts := s.tr.contacts.filter (fun c => !sel c) } } := by
  unfold State.forceUps
  extract_lets cs tr u
  split
  case isTrue hnone =>
    have hcs : cs = [] := by simpa [h] using hnone
    have hall : s.tr.contacts.filter (fun c => !sel c) = s.tr.contacts := by
      rw [List.filter_eq_self]
      intro c hc
      have hnot : c ∉ cs := by simp [hcs]
      simpa [cs, hc] using hnot
    rw [hall]
  case isFalse =>
    have hreports := (contactReports_spec u (cs.map (fun c => (c, Event.up reason))) (max s.tb.floor s.tr.lastTs)).1
    rw [State.reportsOnly] at hreports
    generalize u.contactReports (cs.map (fun c => (c, Event.up reason))) (max s.tb.floor s.tr.lastTs) = v at hreports ⊢
    have hidle := idleCheck_frame v
    generalize v.idleCheck = t at hidle ⊢
    rw [hidle, hreports]

/-! A stuck contact (R228). -/

/-- The contacts of an ID whose reference has stood for STUCKT. -/
def State.stuckOf (s : State) (id : Nat) : List Contact :=
  s.tr.contacts.filter (fun c => decide (c.id = id) && s.stuckNow c)

theorem stuckOf_eq_nil {s : State} {id : Nat} : s.stuckOf id = [] ↔ ∀ c ∈ s.tr.contacts, c.id = id → s.stuckNow c = false := by
  simp [State.stuckOf, List.filter_eq_nil_iff]

theorem stuckOpen_of_none {s : State} {id : Nat} (h : s.ms.halted = true ∨ s.stuckOf id = []) : s.stuckOpen id = s :=
  if_pos (by simpa [State.stuckOf, or_comm] using h)

theorem stuckOpen_of_some {s : State} {id : Nat} (hrun : s.ms.halted = false) (h : s.stuckOf id ≠ []) :
    s.stuckOpen id = (s.stuckClose (s.stuckOf id)).forceUps (fun c => decide (c.id = id)) 3 :=
  if_neg (by simpa [State.stuckOf, hrun] using h)

theorem reg_stuckClose_flag (s : State) {cs : List Contact} (h : cs ≠ []) :
    (s.stuckClose cs).reg 0x2503 = s.reg 0x2503 ||| 2 := by
  refine (reg_setFlagIf ..).trans ((if_pos ⟨?_, rfl⟩).trans rfl)
  simpa using h

theorem stuckOpen_spec {s : State} {id : Nat} (hrun : s.ms.halted = false) (h : s.stuckOf id ≠ []) :
    (s.stuckOpen id).tr.contacts = s.tr.contacts.filter (fun c => decide (c.id ≠ id)) ∧
      s.tr.reacq.length < (s.stuckOpen id).tr.reacq.length ∧ ((s.stuckOpen id).reg 0x2503).getLsbD 1 = true ∧
      (s.stuckOpen id).scan = s.scan ∧ (s.stuckOpen id).sv = s.sv ∧
      (s.stuckOpen id).ms = { s.ms with idleAt := (s.stuckOpen id).ms.idleAt } := by
  have hclose := stuckClose_frame s (s.stuckOf id)
  have hflag := reg_stuckClose_flag s h
  have hpos := List.length_pos_iff.2 h
  rw [stuckOpen_of_some hrun h]
  generalize s.stuckClose (s.stuckOf id) = u at hclose hflag ⊢
  have hreg := reg_forceUps u (fun c => decide (c.id = id)) 3 (a := 0x2503) (by decide)
  have hframe := forceUps_running (s := u) (fun c => decide (c.id = id)) 3 (by rw [hclose]; exact hrun)
  rw [hreg, hflag]
  generalize u.forceUps (fun c => decide (c.id = id)) 3 = t at hframe ⊢
  rw [hframe, hclose]
  exact ⟨by simp, by simpa using hpos, by simp, rfl, rfl, rfl⟩

/-! Drives at their current limit (R136). -/

/-- The drives of an event that count: those of the part, in a window in which the rule applies. -/
def State.limited (s : State) (ds : List Nat) : List Nat := if s.driveWindow then ds.filter (fun d => decide (d < 64)) else []

/-- The event's mark: OVLD, and OVLDA where it holds no drive yet. -/
def State.overloadMark (s : State) (d : Nat) : State :=
  let t := s.setFlag 0x04 0
  if wbit (t.reg 0x040B) 15 then t else t.setReg 0x040B (w16 (0x8000 + d))

/-- The event's drives are counted among the frame's overloads (R309). -/
def State.overloaded (s : State) (ds : List Nat) : State :=
  { s with dg := { s.dg with ovlNow := s.dg.ovlNow ++ ds.filter (fun d => !s.dg.ovlNow.contains d) } }

theorem mem_overloaded (s : State) (ds : List Nat) (x : Nat) :
    x ∈ (s.overloaded ds).dg.ovlNow ↔ x ∈ s.dg.ovlNow ∨ x ∈ ds := by
  simp only [State.overloaded, List.mem_append, List.mem_filter, Bool.not_eq_true', List.contains_eq_mem, decide_eq_false_iff_not]
  tauto

theorem overloadMark_spec (s : State) (d : Nat) :
    s.overloadMark d = { s with regs := (s.overloadMark d).regs, flagged := (s.overloadMark d).flagged } ∧
      (s.overloadMark d).reg 0x0403 = s.reg 0x0403 ||| 1 ∧
      (s.overloadMark d).reg 0x040B = (if (s.reg 0x040B).getLsbD 15 = true then s.reg 0x040B else w16 (0x8000 + d)) ∧
      s.regsKept (s.overloadMark d) [0x0403, 0x040B] := by
  have hflag := regsKept_setFlag s 0x04 0
  have hkept : s.regsKept (s.setFlag 0x04 0) [0x0403, 0x040B] := fun a ha =>
    hflag a (fun h => ha (List.mem_cons.2 (.inl (List.mem_singleton.1 h))))
  have hold : (s.setFlag 0x04 0).reg 0x040B = s.reg 0x040B := hflag _ (by decide)
  unfold State.overloadMark
  dsimp only
  rw [hold, wbit]
  split
  · exact ⟨rfl, reg_setFlag s 0x04 0 0x0403, hold, hkept⟩
  · refine ⟨rfl, ?_, (reg_setReg ..).trans (if_pos rfl), fun a ha => ?_⟩
    · exact ((reg_setReg ..).trans (if_neg (by decide))).trans (reg_setFlag s 0x04 0 0x0403)
    · rw [reg_setReg, if_neg (by simp at ha; omega)]
      exact hkept a ha

theorem overload_of_none {s : State} {ds : List Nat} (h : s.limited ds = []) : s.overload ds = s := by
  have hsort : (s.limited ds).mergeSort (fun a b => decide (a ≤ b)) = [] := by rw [h, List.mergeSort_nil]
  unfold State.overload
  rw [← State.limited]
  dsimp only
  rw [hsort]

/-- The drive that sorting puts first is the least. -/
theorem mergeSort_head_least {l : List Nat} {d : Nat} (h : d ∈ l) (hleast : ∀ x ∈ l, d ≤ x) :
    ∃ rest, l.mergeSort (fun a b => decide (a ≤ b)) = d :: rest := by
  have hsorted := List.pairwise_mergeSort (le := fun a b : Nat => decide (a ≤ b)) (by simp; omega) (by simp; omega) l
  have hmem {x : Nat} := List.mem_mergeSort (le := fun a b : Nat => decide (a ≤ b)) (a := x) (l := l)
  cases hm : l.mergeSort (fun a b => decide (a ≤ b)) with
  | nil => simp [hm, ← hmem] at h
  | cons x rest =>
    rw [hm] at hsorted hmem
    have hle : d ≤ x := hleast x (hmem.1 (List.mem_cons_self ..))
    have hge : x ≤ d := by
      rcases List.mem_cons.1 (hmem.2 h) with rfl | hd
      · exact Nat.le_refl _
      · simpa using List.rel_of_pairwise_cons hsorted hd
    exact ⟨rest, by rw [Nat.le_antisymm hle hge]⟩

theorem overload_of_least {s : State} {ds : List Nat} {d : Nat} (h : d ∈ s.limited ds) (hleast : ∀ x ∈ s.limited ds, d ≤ x) :
    s.overload ds =
    (s.overloadMark d).overloaded (s.limited ds) := by
  obtain ⟨rest, hsort⟩ := mergeSort_head_least h hleast
  unfold State.overload
  rw [← State.limited]
  dsimp only
  rw [hsort]
  rfl

/-- Settles O47: a contact that closes goes by `stuckOpen_spec`, the drives at their limit by the least of them. -/
theorem stuckAndOverload : Obligations.StuckAndOverload := by
  refine ⟨fun id s h => ?_, fun id s hrun hstuck => ⟨s.stuckOpen id, rfl, ?_⟩, fun ds s h => ?_,
    fun ds s d hwindow hd hlt hleast => ⟨s.overload ds, rfl, ?_⟩⟩
  · exact congrArg Host.Outcome.next (stuckOpen_of_none (h.imp_right stuckOf_eq_nil.2))
  · obtain ⟨c, hc, hid, hnow⟩ := hstuck
    have hsome : s.stuckOf id ≠ [] := fun hnil => by simp [stuckOf_eq_nil.1 hnil c hc hid] at hnow
    obtain ⟨hcontacts, hreacq, hflag, hscan, hsv, hms⟩ := stuckOpen_spec hrun hsome
    exact ⟨hcontacts, hreacq, hflag, hscan, hsv, hms, bytesKept_of_keeps (kept_State_stuckOpen (.refl s))⟩
  · refine congrArg Host.Outcome.next (overload_of_none ?_)
    rcases h with hclosed | hbeyond
    · exact if_neg (by simp [hclosed])
    · have hnil : ds.filter (fun d => decide (d < 64)) = [] := by simpa [List.filter_eq_nil_iff] using hbeyond
      rw [State.limited, hnil, ite_self]
  · have hlimited : s.limited ds = ds.filter (fun d => decide (d < 64)) := if_pos hwindow
    have hmem (x : Nat) : x ∈ s.limited ds ↔ x ∈ ds ∧ x < 64 := by simp [hlimited]
    obtain ⟨hframe, hflag, hfirst, hkept⟩ := overloadMark_spec s d
    rw [overload_of_least ((hmem d).2 ⟨hd, hlt⟩) fun x hx => hleast x ((hmem x).1 hx).1]
    refine ⟨?_, hflag, hfirst, hkept, fun x => ?_⟩
    · rw [State.overloaded, hframe]
    · rw [mem_overloaded, hmem, hframe]

end Machine
end Sys2Proof
end

section
/-! SUPPORT. A pause of BLANK: its end, the re-run of a BLANKED slot, and the limits that end it (R143, R149, R150, R152, R153). -/

namespace Sys2Proof
namespace Machine

/-! The lanes' flags at a cut window (R143). -/

/-- Every lane that senses is one of the 17 (R141, R303). -/
theorem lane_lt_of_sensed {s : State} {k : SlotKind} {scph : Nat} {x : Sensed} (h : x ∈ s.sensed k scph) : x.lane < 17 := by
  have hlane {n l : Nat} (hn : n < 16) (hl : s.laneFor n = some l) : l < 17 := by
    unfold State.laneFor at hl
    split at hl
    · simp at hl; omega
    split at hl
    · simp at hl
    · simp at hl; omega
  cases k with
  | regular e =>
    simp only [State.sensed] at h
    split_ifs at h <;>
    · simp only [List.mem_filterMap, List.mem_range, Option.map_eq_some_iff] at h
      obtain ⟨n, hn, l, hl, rfl⟩ := h
      exact hlane hn hl
  | injected i =>
    simp only [State.sensed, List.mem_filterMap, List.mem_range, Option.map_eq_some_iff] at h
    obtain ⟨n, hn, l, hl, rfl⟩ := h
    exact hlane hn hl
  | cal i => simp [State.sensed] at h

theorem laneFlag_mem {k : Nat} (h : k < 17) : (0x10 + k) * 256 + 3 ∈ laneFlags :=
  List.mem_map.2 ⟨k, List.mem_range.2 h, rfl⟩

/-- A cut window changes no word but the lanes' flags. -/
theorem regsKept_cutClips (s : State) : s.regsKept s.cutClips laneFlags := fun a ha => by
  unfold State.cutClips
  split
  · split
    · refine reg_foldl _ s fun x hx u => ?_
      rw [reg_setFlagIf, if_neg]
      rintro ⟨-, rfl⟩
      exact ha (laneFlag_mem (lane_lt_of_sensed hx))
    · rfl
  · rfl

/-- CLIP is the only flag a cut window sets. -/
theorem reg_cutClips_lane (s : State) (k : Nat) : s.cutClips.reg (laneAddr k 3) = s.reg (laneAddr k 3) ∨
    s.cutClips.reg (laneAddr k 3) = s.reg (laneAddr k 3) ||| 2 := by
  unfold State.cutClips
  split
  · split
    · refine List.foldlRecOn (motive := fun u : State => u.reg (laneAddr k 3) = s.reg (laneAddr k 3) ∨
        u.reg (laneAddr k 3) = s.reg (laneAddr k 3) ||| 2) _ _ (.inl rfl) fun u hu x _ => ?_
      rw [reg_setFlagIf]
      split
      · refine .inr ?_
        rcases hu with hu | hu
        · rw [hu]; rfl
        · rw [hu, BitVec.or_assoc]; rfl
      · exact hu
    · exact .inl rfl
  · exact .inl rfl

/-- Before the DFT window nothing has clipped in it. -/
theorem cutClips_of_early {s : State} (h : s.scan.h ≤ 2048) : s.cutClips = s := by
  unfold State.cutClips
  split
  · exact if_neg fun hlate => absurd hlate.2 (by omega)
  · rfl

/-! The end of a pause (R149, R150). -/

theorem blankedDue_iff (s : State) : s.blankedDue = true ↔
    s.scan.paused = true ∧ s.scan.marked = false ∧ 2561 ≤ s.scan.pauseCount := by
  simp [State.blankedDue, and_assoc]

/-- The slot goes on, and no tail is timed. -/
def State.pauseOver (s : State) : State := { s with scan := { s.scan with paused := false, tailAt := none } }

theorem endPause_idle {s : State} (h : s.scan.paused = false ∨ s.blankedDue = true) : s.endPause = s :=
  if_pos (by rcases h with h | h <;> simp [h])

theorem endPause_unmarked {s : State} (hp : s.scan.paused = true) (hm : s.scan.marked = false) (hc : s.scan.pauseCount < 2561) :
    s.endPause = s.pauseOver := by
  have hdue : s.blankedDue = false := Bool.eq_false_iff.2 fun h => absurd ((blankedDue_iff s).1 h).2.2 (by omega)
  unfold State.endPause
  rw [if_neg (by simp [hp, hdue])]
  dsimp only
  split
  · next hmarked _ => exact absurd (hm.symm.trans hmarked) (by decide)
  · rfl

theorem endPause_marked {s : State} {k : SlotKind} (hp : s.scan.paused = true) (hm : s.scan.marked = true) (hk : s.scan.slot = some k) :
    s.endPause = (s.pauseOver.emitCut k .blanked s.scan.pauseCount).slotAgain := by
  have hdue : s.blankedDue = false := Bool.eq_false_iff.2 fun h =>
    absurd (hm.symm.trans ((blankedDue_iff s).1 h).2.1) (by decide)
  unfold State.endPause
  rw [if_neg (by simp [hp, hdue])]
  dsimp only
  split
  · next j _ hj =>
    obtain rfl := Option.some.inj (hk.symm.trans hj)
    rfl
  · next hnone => exact (hnone k hm hk).elim

/-- A pause that is no longer than its slot allows ends, if one runs, and nothing else happens. -/
theorem endPause_short {s : State} (hm : s.scan.marked = false) (hc : s.scan.pauseCount < 2561) :
    s.endPause = { s with scan := { s.scan with paused := false, tailAt := s.endPause.scan.tailAt } } ∧
      (s.scan.paused = true → s.endPause.scan.tailAt = none) := by
  cases hp : s.scan.paused with
  | true =>
    rw [endPause_unmarked hp hm hc]
    exact ⟨rfl, fun _ => rfl⟩
  | false =>
    rw [endPause_idle (.inl hp), ← hp]
    exact ⟨rfl, fun h => absurd (hp.symm.trans h) (by decide)⟩

theorem tailEnd_of_none {s : State} (h : s.scan.tailAt = none ∨ s.scan.blkEff = true) : s.tailEnd = s := by
  unfold State.tailEnd
  split
  · next ht => exact if_neg (by rcases h with h | h <;> simp_all)
  · rfl

theorem tailEnd_of_early {s : State} {h : Nat} (ht : s.scan.tailAt = some h) (hn : s.now < h) : s.tailEnd = s := by
  unfold State.tailEnd
  simp only [ht]
  exact if_neg fun hd => absurd hd.1 (by omega)

theorem tailEnd_of_due {s : State} {h : Nat} (ht : s.scan.tailAt = some h) (hn : h ≤ s.now) (he : s.scan.blkEff = false) :
    s.tailEnd = s.endPause := by
  unfold State.tailEnd
  simp only [ht]
  exact if_pos ⟨hn, he⟩

/-! A BLANKED slot runs again (R150, R156, R172, R187). -/

/-- The bins of a cut slot change the flight, BLKPAUSE, and what times them. -/
theorem emitCut_frame (s : State) (k : SlotKind) (tag : Tag) (pause : Nat) : s.emitCut k tag pause = { s with
    regs := (s.emitCut k tag pause).regs, agenda := (s.emitCut k tag pause).agenda, free := (s.emitCut k tag pause).free
    scan := { s.scan with flight := (s.emitCut k tag pause).scan.flight } } := rfl

theorem regsKept_emitCut (s : State) (k : SlotKind) (tag : Tag) (pause : Nat) : s.regsKept (s.emitCut k tag pause) [0x060C] :=
  regsKept_setReg s 0x060C _

theorem slotAgain_of_regular {s : State} {e : Nat} (hs : s.scan.slot = some (.regular e)) (hi : s.inj.phase ≠ .pending) :
    s.slotAgain = s.startSlot (.regular e) 0 := by
  unfold State.slotAgain
  simp only [hs]
  exact if_neg hi

/-- `t` runs regular entry `e` from its first hc, and leaves the bins of the BLANKED slot of `s` (R150, R156). -/
structure State.reruns (s t : State) (e : Nat) : Prop where
  slot : t.scan.slot = some (.regular e)
  first : t.scan.h = 0
  lead : t.scan.lead = 0
  paused : t.scan.paused = false
  marked : t.scan.marked = false
  count : t.scan.pauseCount = 0
  edges : t.scan.edges = 0
  bins : ∃ r, t.scan.flight = s.scan.flight ++ [r] ∧ r.cutAs (.regular e) .blanked (s.now + 1024)
  pause : t.reg 0x060C = w16 (min 65535 s.scan.pauseCount)
  words : s.regsKept t [0x060C]
  bytes : s.bytesKept t

theorem endPause_reruns {s : State} {e : Nat} (hp : s.scan.paused = true) (hm : s.scan.marked = true)
    (hs : s.scan.slot = some (.regular e)) (hb : s.scan.blkEff = false) (hi : s.inj.phase ≠ .pending) : s.reruns s.endPause e := by
  have hbytes : s.bytesKept s.endPause := bytesKept_of_keeps (kept_State_endPause (.refl s))
  obtain ⟨-, hpause, hbins⟩ := emitCut_spec s.pauseOver (.regular e) .blanked s.scan.pauseCount
  have hframe := emitCut_frame s.pauseOver (.regular e) .blanked s.scan.pauseCount
  have hwords := regsKept_emitCut s.pauseOver (.regular e) .blanked s.scan.pauseCount
  rw [endPause_marked hp hm hs] at hbytes ⊢
  generalize s.pauseOver.emitCut (.regular e) .blanked s.scan.pauseCount = u at hpause hbins hframe hwords hbytes ⊢
  have hslot : u.scan.slot = some (.regular e) := by rw [hframe]; exact hs
  have hphase : u.inj.phase ≠ .pending := by rw [hframe]; exact hi
  have heff : u.scan.blkEff = false := by rw [hframe]; exact hb
  rw [slotAgain_of_regular hslot hphase] at hbytes ⊢
  have hstart := startSlot_now u (.regular e)
  generalize u.startSlot (.regular e) 0 = t at hbytes hstart ⊢
  have hreg (a : Nat) : t.reg a = u.reg a := by rw [hstart]; rfl
  have hflight : t.scan.flight = u.scan.flight := by rw [hstart]
  rw [sat16_eq_min] at hpause
  exact {
    slot := by rw [hstart]
    first := by rw [hstart]
    lead := by rw [hstart]
    paused := by rw [hstart]; simp [heff]
    marked := by rw [hstart]
    count := by rw [hstart]
    edges := by rw [hstart]
    bins := by rw [hflight]; exact hbins
    pause := (hreg _).trans hpause
    words := fun a ha => (hreg a).trans (hwords a ha)
    bytes := hbytes }

/-! The pause that has lasted 2,561 hc (R150). -/

/-- The slot is marked: its clips, the flag, and the count of BLANKED slots. -/
def State.blankMarked (s : State) : State :=
  State.addSat (State.setFlag { s.cutClips with scan := { s.cutClips.scan with marked := true } } 0x06 2) 0x060B 1

theorem blankedOp_idle {s : State} (h : s.blankedDue = false) : s.blankedOp = s := if_neg (by simp [h])

theorem blankMarked_frame (s : State) : s.blankMarked = { s with
    regs := s.blankMarked.regs, flagged := s.blankMarked.flagged, scan := { s.scan with marked := true } } := by
  have hclips := regsOnly_cutClips s
  rw [State.regsOnly] at hclips
  unfold State.blankMarked
  generalize s.cutClips = u at hclips ⊢
  rw [hclips]
  rfl

theorem blankedOp_due {s : State} (h : s.blankedDue = true) :
    s.blankedOp = if s.blankIgnored then s.blankMarked.endPause else s.blankMarked.tailEnd := by
  have hignored : s.blankMarked.blankIgnored = s.blankIgnored := by rw [blankMarked_frame]; rfl
  rw [← hignored]
  exact if_pos h

theorem reg_blankMarked (s : State) (a : Nat) : s.blankMarked.reg a =
    if a = 0x060B then w16 (sat16 ((s.reg 0x060B).toNat + 1)) else if a = 0x0603 then s.reg 0x0603 ||| 4 else s.cutClips.reg a := by
  have hflag : s.cutClips.reg 0x0603 = s.reg 0x0603 := reg_cutClips (by decide)
  have hcount : s.cutClips.reg 0x060B = s.reg 0x060B := reg_cutClips (by decide)
  unfold State.blankMarked
  rw [reg_addSat, reg_setFlag, reg_setFlag, if_neg (by decide : ¬ 0x060B = 0x06 * 256 + 3)]
  simp only [reg_mk, get_regs, hcount]
  split
  · rfl
  split
  · next h => subst h; rw [hflag]; rfl
  · rfl

/-- What the mark does to the words: the flag, the count, and the clips of a window that has begun. -/
theorem blankMarked_words (s : State) : s.blankMarked.reg 0x0603 = s.reg 0x0603 ||| 4 ∧
    (s.blankMarked.reg 0x060B).toNat = min 65535 ((s.reg 0x060B).toNat + 1) ∧
    s.regsKept s.blankMarked (0x0603 :: 0x060B :: laneFlags) ∧ (s.scan.h ≤ 2048 → s.regsKept s.blankMarked [0x0603, 0x060B]) ∧
    ∀ k, k < 17 → s.blankMarked.reg (laneAddr k 3) = s.reg (laneAddr k 3) ∨
      s.blankMarked.reg (laneAddr k 3) = s.reg (laneAddr k 3) ||| 2 := by
  refine ⟨reg_blankMarked s _, ?_, fun a ha => ?_, fun hearly a ha => ?_, fun k _ => ?_⟩
  · rw [reg_blankMarked, if_pos rfl, sat16_eq_min, toNat_w16_sat]
  · simp only [List.mem_cons, not_or] at ha
    obtain ⟨hflag, hcount, hlane⟩ := ha
    rw [reg_blankMarked, if_neg hcount, if_neg hflag, regsKept_cutClips s a hlane]
  · simp only [List.mem_cons, List.not_mem_nil, or_false, not_or] at ha
    rw [reg_blankMarked, if_neg ha.2, if_neg ha.1, cutClips_of_early hearly]
  · have hbelow : 0x1000 ≤ laneAddr k 3 := by unfold laneAddr; omega
    rw [reg_blankMarked, if_neg (by omega), if_neg (by omega)]
    exact reg_cutClips_lane s k

/-- A pause that goes on past its mark. -/
theorem blankedOp_goes_on {s : State} (hdue : s.blankedDue = true) (hi : s.blankIgnored = false)
    (ht : s.scan.tailAt = none ∨ s.scan.blkEff = true) : s.blankedOp = s.blankMarked := by
  have hscan : s.blankMarked.scan = { s.scan with marked := true } := by rw [blankMarked_frame]
  rw [blankedOp_due hdue, hi]
  exact tailEnd_of_none (by rw [hscan]; exact ht)

/-- A pause whose tail is over at the mark ends, be BLANK ignored or not. -/
theorem blankedOp_ends {s : State} {h : Nat} (hdue : s.blankedDue = true) (ht : s.scan.tailAt = some h) (hn : h ≤ s.now)
    (he : s.scan.blkEff = false) : s.blankedOp = s.blankMarked.endPause := by
  have hframe := blankMarked_frame s
  rw [blankedOp_due hdue]
  split
  · rfl
  · refine tailEnd_of_due (h := h) ?_ ?_ ?_
    · rw [hframe]; exact ht
    · rw [hframe]; exact hn
    · rw [hframe]; exact he

theorem blankedOp_reruns {s : State} {e h : Nat} (hdue : s.blankedDue = true) (ht : s.scan.tailAt = some h) (hn : h ≤ s.now)
    (he : s.scan.blkEff = false) (hs : s.scan.slot = some (.regular e)) (hi : s.inj.phase ≠ .pending) :
    s.blankMarked.reruns s.blankedOp e := by
  have hframe := blankMarked_frame s
  rw [blankedOp_ends hdue ht hn he]
  refine endPause_reruns ?_ ?_ ?_ ?_ ?_
  · rw [hframe]; exact ((blankedDue_iff s).1 hdue).1
  · rw [hframe]
  · rw [hframe]; exact hs
  · rw [hframe]; exact he
  · rw [hframe]; exact hi

/-! BLANK becomes ignored (R152, R153). -/

/-- Flag `k` of the Furrow's page with the scan state `x`: BLANK is ignored from here on. -/
def State.ignoredBy (s : State) (x : Scan) (k : Nat) : State := State.setFlag { s with scan := x } 0x06 k

/-- An ignored BLANK ends a pause that has not run its slot out, and sets its flag. -/
theorem endPause_ignoredBy {s : State} {x : Scan} (k : Nat) (hm : x.marked = false) (hc : x.pauseCount < 2561) :
    ∃ t, (s.ignoredBy x k).endPause = t ∧ t.reg 0x0603 = s.reg 0x0603 ||| w16 (2 ^ k) ∧ s.regsKept t [0x0603] ∧
      t = { s with regs := t.regs, flagged := t.flagged, scan := { x with paused := false, tailAt := t.scan.tailAt } } ∧
      (x.paused = true → t.scan.tailAt = none) := by
  obtain ⟨hframe, htail⟩ := endPause_short (s := s.ignoredBy x k) hm hc
  have hwords : s.regsKept (s.ignoredBy x k) [0x0603] := regsKept_setFlag { s with scan := x } 0x06 k
  have hflag : (s.ignoredBy x k).reg 0x0603 = s.reg 0x0603 ||| w16 (2 ^ k) := reg_setFlag { s with scan := x } 0x06 k 0x0603
  have hreg (a : Nat) : (s.ignoredBy x k).endPause.reg a = (s.ignoredBy x k).reg a := by rw [hframe]; rfl
  refine ⟨_, rfl, (hreg _).trans hflag, fun a ha => (hreg a).trans (hwords a ha), ?_, htail⟩
  generalize (s.ignoredBy x k).endPause = t at hframe
  rw [hframe]
  rfl

theorem chatterOp_idle {s : State} (h : s.slotRuns = false ∨ s.scan.edges < 65 ∨ s.scan.chatIgn = true) : s.chatterOp = s :=
  if_neg fun hd => by
    simp only [Bool.and_eq_true, decide_eq_true_eq, Bool.not_eq_true'] at hd
    obtain ⟨⟨hruns, hedges⟩, hign⟩ := hd
    rcases h with h | h | h
    · simp [h] at hruns
    · omega
    · simp [h] at hign

theorem chatterOp_due {s : State} (hr : s.slotRuns = true) (he : 65 ≤ s.scan.edges) (hi : s.scan.chatIgn = false) :
    s.chatterOp = (s.ignoredBy { s.scan with chatIgn := true } 1).endPause := if_pos (by simp [hr, he, hi])

theorem stuckOp_idle {s : State} (h : s.scan.blkEff = false ∨ s.scan.stuckIgn = true ∨ s.scan.blkTime < s.blankLimit) : s.stuckOp = s :=
  if_neg fun hd => by
    simp only [Bool.and_eq_true, decide_eq_true_eq, Bool.not_eq_true'] at hd
    obtain ⟨⟨heff, hign⟩, htime⟩ := hd
    rcases h with h | h | h
    · simp [h] at heff
    · simp [h] at hign
    · omega

theorem stuckOp_due {s : State} (he : s.scan.blkEff = true) (hi : s.scan.stuckIgn = false) (ht : s.blankLimit ≤ s.scan.blkTime) :
    s.stuckOp = (s.ignoredBy { s.scan with stuckIgn := true } 0).endPause := if_pos (by simp [he, hi, ht])

theorem regsKept_blankLimits {s t : State} (h : s.blankMarked.regsKept t [0x060C]) :
    s.regsKept t (0x0603 :: 0x060B :: 0x060C :: laneFlags) := fun a ha => by
  obtain ⟨-, -, hmarked, -⟩ := blankMarked_words s
  simp only [List.mem_cons, not_or] at ha
  obtain ⟨hflag, hcount, hpause, hlane⟩ := ha
  exact (h a (by simpa using hpause)).trans (hmarked a (by simp [hflag, hcount, hlane]))

/-- Settles O49: the long pause by its mark and the re-run that may follow, chatter and stuck by the end of the pause. -/
theorem blankLimits : Obligations.BlankLimits := by
  refine ⟨fun s h => ?_, fun s hp hm hc => ?_, fun s h => congrArg Host.Outcome.next (chatterOp_idle h), fun s hr he hi hm hc => ?_,
    fun s h => congrArg Host.Outcome.next (stuckOp_idle h), fun s he hi ht hm hc => ?_⟩
  · refine congrArg Host.Outcome.next (blankedOp_idle (Bool.eq_false_iff.2 fun hdue => ?_))
    obtain ⟨hp, hm, hc⟩ := (blankedDue_iff s).1 hdue
    rcases h with h | h | h
    · simp [h] at hp
    · simp [h] at hm
    · omega
  · have hdue : s.blankedDue = true := (blankedDue_iff s).2 ⟨hp, hm, hc⟩
    obtain ⟨hflag, hcount, hkept, hearly, hlanes⟩ := blankMarked_words s
    refine ⟨fun hi ht => ⟨s.blankMarked, congrArg Host.Outcome.next (blankedOp_goes_on hdue hi ht), blankMarked_frame s, hflag, hcount,
      hkept, hearly, hlanes⟩, fun e h ht hn he hs hi => ⟨s.blankedOp, rfl, ?_⟩⟩
    have hrun := blankedOp_reruns hdue ht hn he hs hi
    have hscan : s.blankMarked.scan = { s.scan with marked := true } := by rw [blankMarked_frame]
    have hnow : s.blankMarked.now = s.now := by rw [blankMarked_frame]
    have hbins := hrun.bins
    have hpause := hrun.pause
    rw [hscan, hnow] at hbins
    rw [hscan] at hpause
    exact ⟨hrun.slot, hrun.first, hrun.lead, hrun.paused, hrun.marked, hrun.count, (hrun.words _ (by decide)).trans hflag,
      (congrArg BitVec.toNat (hrun.words 0x060B (by decide))).trans hcount, hpause, hbins, regsKept_blankLimits hrun.words,
      bytesKept_of_keeps (kept_State_blankedOp (.refl s))⟩
  · obtain ⟨t, ht, hflag, hwords, hframe, htail⟩ :=
      endPause_ignoredBy (s := s) (x := { s.scan with chatIgn := true }) 1 hm hc
    exact ⟨t, congrArg Host.Outcome.next ((chatterOp_due hr he hi).trans ht), hflag, hwords, hframe, htail⟩
  · obtain ⟨t, heq, hflag, hwords, hframe, htail⟩ :=
      endPause_ignoredBy (s := s) (x := { s.scan with stuckIgn := true }) 0 hm hc
    exact ⟨t, congrArg Host.Outcome.next ((stuckOp_due he hi ht).trans heq), hflag, hwords, hframe, htail⟩

end Machine
end Sys2Proof
end

section
/-! SUPPORT. The BLANK ball, its deglitch, and the changes of the effective level (R148, R149, R152, R272, R376, R377). -/

namespace Sys2Proof
namespace Machine

/-! The deglitch (R148, R377). -/

/-- The change of the effective level that is under way. -/
def State.deglitchAt (s : State) (x : Option (Nat × Bool × Bool)) : State := { s with scan := { s.scan with blkAt := x } }

theorem blankFollow_unsampled {s : State} (h : s.sampled = false ∨ (s.reg 0x0608).getLsbD 0 = false) : s.blankFollow = s :=
  if_pos (by
    rcases h with h | h
    · rw [h]; rfl
    · rw [wbit, h, Bool.not_false, Bool.or_true])

/-- While the ball is sampled: which change is under way, by the raw level. -/
theorem blankFollow_sampled {s : State} (hs : s.sampled = true) (he : (s.reg 0x0608).getLsbD 0 = true) : s.blankFollow =
    if s.blankRaw = s.scan.blkEff then (if s.blankDue.isSome then s else s.deglitchAt none)
    else if s.blankGoing then s else s.deglitchAt (some (s.now + s.deglitch, s.blankRaw, false)) :=
  if_neg (by simp [hs, he, wbit])

theorem blankFollow_stands {s : State} (hs : s.sampled = true) (he : (s.reg 0x0608).getLsbD 0 = true)
    (hraw : s.blankRaw = s.scan.blkEff) (hdue : s.blankDue = none) : s.blankFollow = s.deglitchAt none := by
  rw [blankFollow_sampled hs he, if_pos hraw, if_neg (by simp [hdue])]

theorem blankFollow_starts {s : State} (hs : s.sampled = true) (he : (s.reg 0x0608).getLsbD 0 = true)
    (hraw : s.blankRaw ≠ s.scan.blkEff) (hgoing : s.blankGoing = false) :
    s.blankFollow = s.deglitchAt (some (s.now + s.deglitch, s.blankRaw, false)) := by
  rw [blankFollow_sampled hs he, if_neg hraw, if_neg (by simp [hgoing])]

/-- A change that is due takes place: the deglitch leaves it alone. -/
theorem blankFollow_due {s : State} {level : Bool} (h : s.blankDue = some (level, false)) : s.blankFollow = s := by
  have hgoing : s.blankGoing = true := by
    unfold State.blankDue at h
    unfold State.blankGoing
    split at h
    · next hat =>
      split at h
      · simp_all
      · simp at h
    · simp at h
  cases hs : s.sampled with
  | false => exact blankFollow_unsampled (.inl hs)
  | true =>
    cases he : (s.reg 0x0608).getLsbD 0 with
    | false => exact blankFollow_unsampled (.inr he)
    | true =>
      rw [blankFollow_sampled hs he, if_pos (by rw [h]; rfl : s.blankDue.isSome = true), if_pos hgoing, ite_self]

/-! The ball (R148). -/

/-- The ball at the raw level `level`. -/
def State.ballTo (s : State) (level : Bool) : State :=
  { s with scan := { s.scan with blkBall := level != wbit (s.reg 0x0608) 1 } }

theorem blankRaw_ballTo (s : State) (level : Bool) : (s.ballTo level).blankRaw = level := by
  show ((level != wbit (s.reg 0x0608) 1) != wbit (s.reg 0x0608) 1) = level
  cases level <;> simp

/-- What a command of BLANK does at the ball. -/
def State.ballTaken (s : State) (level : Bool) : State := s.blankPin (level != wbit (s.reg 0x0608) 1)

theorem ballTaken_same {s : State} {level : Bool} (h : s.blankRaw = level) : s.ballTaken level = s := by
  refine if_pos ?_
  rw [← h, State.blankRaw]
  simp

theorem ballTaken_change {s : State} {level : Bool} (h : s.blankRaw ≠ level) : s.ballTaken level = (s.ballTo level).blankFollow := by
  refine if_neg fun hball => h ?_
  rw [State.blankRaw, hball]
  cases level <;> simp

/-- A level at the ball changes the ball and its deglitch, and the raw level is then that level. -/
theorem ballTaken_spec (s : State) (level : Bool) : (s.ballTaken level).blankRaw = level ∧
    s.ballTaken level = { s with scan := { s.scan with
      blkBall := (s.ballTaken level).scan.blkBall, blkAt := (s.ballTaken level).scan.blkAt } } := by
  by_cases h : s.blankRaw = level
  · rw [ballTaken_same h]
    exact ⟨h, rfl⟩
  · obtain ⟨b, hb⟩ := blankFollow_frame (s.ballTo level)
    rw [ballTaken_change h, hb]
    exact ⟨blankRaw_ballTo s level, rfl⟩

theorem ballTaken_unsampled {s : State} {level : Bool} (h : s.sampled = false ∨ (s.reg 0x0608).getLsbD 0 = false) :
    (s.ballTaken level).scan.blkAt = s.scan.blkAt := by
  by_cases hraw : s.blankRaw = level
  · rw [ballTaken_same hraw]
  · rw [ballTaken_change hraw, blankFollow_unsampled (s := s.ballTo level) h]
    rfl

/-- The ball turns back to the effective level: no change is under way any more. -/
theorem ballTaken_back {s : State} {level : Bool} (hraw : s.blankRaw ≠ level) (hdue : s.blankDue = none) (hs : s.sampled = true)
    (he : (s.reg 0x0608).getLsbD 0 = true) (heff : s.scan.blkEff = level) : (s.ballTaken level).scan.blkAt = none := by
  rw [ballTaken_change hraw,
    blankFollow_stands (s := s.ballTo level) hs he ((blankRaw_ballTo s level).trans heff.symm) hdue]
  rfl

/-- The ball leaves the effective level: the change is due D hc later. -/
theorem ballTaken_starts {s : State} {level : Bool} (hraw : s.blankRaw ≠ level) (hs : s.sampled = true)
    (he : (s.reg 0x0608).getLsbD 0 = true) (heff : s.scan.blkEff ≠ level) (hgoing : s.blankGoing = false) :
    (s.ballTaken level).scan.blkAt = some (s.now + s.deglitch, level, false) := by
  rw [ballTaken_change hraw, blankFollow_starts (s := s.ballTo level) hs he
    (by rw [blankRaw_ballTo]; exact heff.symm) hgoing, blankRaw_ballTo]
  rfl

theorem ballTaken_due {s : State} {due level : Bool} (h : s.blankDue = some (due, false)) :
    (s.ballTaken level).scan.blkAt = s.scan.blkAt := by
  by_cases hraw : s.blankRaw = level
  · rw [ballTaken_same hraw]
  · rw [ballTaken_change hraw, blankFollow_due (s := s.ballTo level) h]
    rfl

/-! A command of BLANK: the change that is due, or a level at the ball (log entry 70). -/

theorem exec_blank {i : Instr} {level : Bool} (s : State)
    (h : i = .blankAssert ∧ level = true ∨ i = .blankDeassert ∧ level = false) : exec i s = .next (s.blankCome level) := by
  rcases h with ⟨rfl, rfl⟩ | ⟨rfl, rfl⟩ <;> rfl

theorem blankCome_of_none {s : State} (level : Bool) (h : s.blankDue = none) : s.blankCome level = s.ballTaken level := by
  unfold State.blankCome
  rw [h]
  rfl

theorem blankCome_of_other {s : State} {level due off : Bool} (h : s.blankDue = some (due, off)) (hne : due ≠ level) :
    s.blankCome level = s.ballTaken level := by
  unfold State.blankCome
  rw [h]
  exact if_neg hne

theorem blankCome_of_off {s : State} {level : Bool} (h : s.blankDue = some (level, true)) : s.blankCome level = s.deglitchAt none := by
  unfold State.blankCome
  rw [h]
  exact (if_pos rfl).trans (if_pos rfl)

theorem blankCome_of_due {s : State} {level : Bool} (h : s.blankDue = some (level, false)) :
    s.blankCome level = s.countHc.blankTake level := by
  unfold State.blankCome
  rw [h]
  exact (if_pos rfl).trans (if_neg (by decide))

/-! An edge of effective BLANK is an event of the timers (R272). -/

theorem regsKept_wrapEvents (fuel : Nat) : ∀ (s : State) (t : Nat), s.regsKept (s.wrapEvents fuel t) [0x2803] := by
  induction fuel with
  | zero => exact fun s _ => regsKept_refl s _
  | succ fuel ih =>
    intro s t
    have hflag := regsKept_setFlag s 0x28 (6 + t)
    unfold State.wrapEvents
    dsimp only
    split
    · split
      · split
        · exact fun a ha => (ih _ _ a ha).trans (hflag a ha)
        · exact hflag
      · exact hflag
    · exact hflag

theorem regsKept_countClk (s : State) (c : Nat) : s.regsKept (s.countClk c) [0x2803] := fun a ha =>
  reg_foldl _ _ fun t _ u => by
    split
    · unfold State.countTimer
      dsimp only
      split
      · split
        · exact regsKept_wrapEvents _ _ _ a ha
        · rfl
      · rfl
    · rfl

theorem blankSeen_spec (s : State) (was : Bool) : s.timersOnly (s.blankSeen was) ∧ s.regsKept (s.blankSeen was) [0x2803] := by
  unfold State.blankSeen
  split
  · exact ⟨(timersOnly_countClk s 4).trans (timersOnly_timerEvent _ 2),
      fun a ha => (reg_timerEvent _ 2 a).trans (regsKept_countClk s 4 a ha)⟩
  split
  · exact ⟨timersOnly_timerEvent s 3, fun a _ => reg_timerEvent s 3 a⟩
  · exact ⟨.refl s, regsKept_refl s _⟩

theorem blankSeen_same (s : State) : s.blankSeen s.scan.blkEff = s := by
  unfold State.blankSeen
  cases s.scan.blkEff <;> rfl

/-! What a change of the effective level may touch. -/

/-- `t` is `s` but for the scan, the agenda and the timers; of the words, the timers' flags may differ. -/
structure State.gateOnly (s t : State) : Prop where
  frame : t = { s with regs := t.regs, flagged := t.flagged, scan := t.scan, agenda := t.agenda, tm := t.tm }
  words : s.regsKept t [0x2803]

theorem State.gateOnly.trans {s t u : State} (h : s.gateOnly t) (g : t.gateOnly u) : s.gateOnly u :=
  ⟨Eq.trans g.frame (by rw [h.frame]), regsKept_trans h.words g.words⟩

theorem State.gateOnly.word {s t : State} (h : s.gateOnly t) : t.reg 0x0608 = s.reg 0x0608 := h.words _ (by decide)

theorem State.gateOnly.sampled {s t : State} (h : s.gateOnly t) : t.sampled = s.sampled := by rw [h.frame]; rfl

theorem State.gateOnly.deglitch {s t : State} (h : s.gateOnly t) : t.deglitch = s.deglitch := by rw [h.frame]; rfl

theorem State.gateOnly.now {s t : State} (h : s.gateOnly t) : t.now = s.now := by rw [h.frame]

theorem gateOnly_mk (s : State) (x : Scan) (l : List (Nat × Instr)) : s.gateOnly { s with scan := x, agenda := l } :=
  ⟨rfl, regsKept_refl s _⟩

/-! The edges of effective BLANK in a slot (R152). -/

theorem blankEdge_frame (s : State) : s.blankEdge = { s with
    scan := { s.scan with edges := s.blankEdge.scan.edges }, agenda := s.blankEdge.agenda } := by
  unfold State.blankEdge
  split
  · dsimp only
    split <;> rfl
  · rfl

theorem edges_blankEdge (s : State) : s.blankEdge.scan.edges = if s.slotRuns then s.scan.edges + 1 else s.scan.edges := by
  unfold State.blankEdge
  split
  · dsimp only
    split <;> rfl
  · rfl

/-- The 65th edge makes BLANK_CHATTER due on this hc. -/
theorem blankEdge_chatter {s : State} (hr : s.slotRuns = true) (he : s.scan.edges = 64) :
    (s.now, Instr.blankChatter) ∈ s.blankEdge.agenda := by
  have hlast : s.scan.edges + 1 = 65 := by omega
  unfold State.blankEdge
  rw [if_pos hr]
  dsimp only
  rw [if_pos hlast]
  exact List.mem_append_right _ (List.mem_singleton.2 rfl)

/-! Effective BLANK takes a level (R148, R149). -/

/-- The effective level turns to `level`, and its time starts. -/
def State.turned (s : State) (level : Bool) : State :=
  State.blankEdge { s with scan := { s.scan with blkEff := level, blkTime := 0 } }

theorem turned_frame (s : State) (level : Bool) : s.turned level = { s with
    scan := { s.scan with blkEff := level, blkTime := 0, edges := (s.turned level).scan.edges }, agenda := (s.turned level).agenda } :=
  blankEdge_frame _

theorem edges_turned (s : State) (level : Bool) :
    (s.turned level).scan.edges = if s.slotRuns then s.scan.edges + 1 else s.scan.edges := edges_blankEdge _

theorem blankOn_idle {s : State} (h : s.scan.blkEff = true ∨ s.sampled = false ∨ (s.reg 0x0608).getLsbD 0 = false) : s.blankOn = s :=
  if_pos (by
    rcases h with h | h | h
    · rw [h]; rfl
    · rw [h, Bool.not_false, Bool.or_true, Bool.true_or]
    · rw [wbit, h, Bool.not_false, Bool.or_true])

/-- The effective level turns to asserted, and the slot that runs pauses where BLANK is honored. -/
def State.risen (s : State) : State :=
  if s.slotRuns && !s.blankIgnored then
    { s.turned true with scan := { (s.turned true).scan with paused := true, tailAt := none } } else s.turned true

theorem blankOn_rises {s : State} (he : s.scan.blkEff = false) (hs : s.sampled = true) (hen : (s.reg 0x0608).getLsbD 0 = true) :
    s.blankOn = s.risen := by
  have htest : ((s.turned true).slotRuns && !(s.turned true).blankIgnored) = (s.slotRuns && !s.blankIgnored) := by
    rw [turned_frame]
    rfl
  unfold State.blankOn
  rw [if_neg (by simp [he, hs, hen, wbit]), State.risen, ← htest]
  rfl

theorem blankOff_idle {s : State} (h : s.scan.blkEff = false) : s.blankOff = s := if_pos (by simp [h])

/-- TAIL of LANE.BLANK. -/
def State.blankTail (s : State) : Nat := (s.reg 0x0608).toNat / 4 % 256

/-- The effective level turns to deasserted, and the pause ends: on a slot's h = 0 or with TAIL 0 now, else TAIL hc later. -/
def State.fallen (s : State) : State :=
  if s.slotRuns && decide (s.scan.h = 0) && decide (s.scan.pauseCount = 0) then (s.turned false).pauseOver
  else if s.blankTail = 0 then State.endPause { s.turned false with scan := { (s.turned false).scan with tailAt := some s.now } }
  else State.after { s.turned false with scan := { (s.turned false).scan with tailAt := some (s.now + s.blankTail) } }
    s.blankTail .pauseEnd

theorem blankOff_falls {s : State} (h : s.scan.blkEff = true) : s.blankOff =
    if !s.scan.paused || (decide (65 ≤ (s.turned false).scan.edges) && !s.scan.chatIgn) then s.turned false else s.fallen := by
  have hframe := turned_frame s false
  have hoff : s.blankOff = _ := if_neg (by simp [h])
  rw [hoff]
  dsimp only
  rw [← State.turned, State.fallen]
  generalize s.turned false = u at hframe ⊢
  rw [hframe]
  rfl

end Machine
end Sys2Proof
end

section
/-! SUPPORT. A change of effective BLANK that takes place, and what it does to the pause (R148 to R150, R152, R376). -/

namespace Sys2Proof
namespace Machine

/-! What a deassertion does to the pause (R149, R152). -/

theorem edges_turned_lt {s : State} (level : Bool) (h : s.scan.edges < 64) : (s.turned level).scan.edges < 65 := by
  rw [edges_turned]
  split <;> omega

/-- Below the 65th edge a pause ends by the deassertion. -/
theorem blankOff_paused {s : State} (he : s.scan.blkEff = true) (hp : s.scan.paused = true) (hedges : s.scan.edges < 64) :
    s.blankOff = s.fallen := by
  have hfew := edges_turned_lt false hedges
  rw [blankOff_falls he, if_neg (by simp [hp]; omega)]

/-- The pause goes on for TAIL hc. -/
theorem blankOff_tail {s : State} (he : s.scan.blkEff = true) (hp : s.scan.paused = true) (hedges : s.scan.edges < 64)
    (htail : s.blankTail ≠ 0) (hlate : s.slotRuns = false ∨ s.scan.h ≠ 0 ∨ s.scan.pauseCount ≠ 0) :
    s.blankOff = State.after { s.turned false with scan := { (s.turned false).scan with tailAt := some (s.now + s.blankTail) } }
      s.blankTail .pauseEnd := by
  rw [blankOff_paused he hp hedges, State.fallen, if_neg, if_neg htail]
  rcases hlate with h | h | h <;> simp [h]

/-- On a slot's h = 0 the slot does not pause. -/
theorem blankOff_first {s : State} (he : s.scan.blkEff = true) (hp : s.scan.paused = true) (hedges : s.scan.edges < 64)
    (hr : s.slotRuns = true) (hh : s.scan.h = 0) (hc : s.scan.pauseCount = 0) : s.blankOff = (s.turned false).pauseOver := by
  rw [blankOff_paused he hp hedges, State.fallen, if_pos (by simp [hr, hh, hc])]

/-- With TAIL 0 the pause of a slot that is not BLANKED ends at once. -/
theorem blankOff_at_once {s : State} (he : s.scan.blkEff = true) (hp : s.scan.paused = true) (hedges : s.scan.edges < 64)
    (htail : s.blankTail = 0) (hm : s.scan.marked = false) (hc : s.scan.pauseCount < 2561) :
    s.blankOff = (s.turned false).pauseOver := by
  have hscan : (s.turned false).scan = _ := congrArg State.scan (turned_frame s false)
  rw [blankOff_paused he hp hedges, State.fallen, if_pos htail, endPause_unmarked]
  · exact ite_self _
  · rw [hscan]; exact hp
  · rw [hscan]; exact hm
  · rw [hscan]; exact hc

/-- The 65th edge leaves the pause to BLANK_CHATTER. -/
theorem blankOff_chatter {s : State} (he : s.scan.blkEff = true) (hr : s.slotRuns = true) (hedges : s.scan.edges = 64)
    (hi : s.scan.chatIgn = false) : s.blankOff = s.turned false := by
  have hlast : (s.turned false).scan.edges = 65 := by rw [edges_turned, if_pos hr, hedges]
  rw [blankOff_falls he, if_pos (by simp [hlast, hi])]

/-! The change, the timers' event and the deglitch after it (R148, R272). -/

/-- What the level that has stood for D hc does to the effective level and the pause. -/
def State.levelTaken (s : State) (level : Bool) : State := if level then s.blankOn else if s.sampled then s.blankOff else s

theorem blankTake_eq (s : State) (level : Bool) :
    s.blankTake level = (((s.deglitchAt none).levelTaken level).blankSeen s.scan.blkEff).blankFollow := rfl

theorem exec_blank_due {i : Instr} {level : Bool} {s u : State}
    (hi : i = .blankAssert ∧ level = true ∨ i = .blankDeassert ∧ level = false) (hu : s.countHc = u)
    (h : s.blankDue = some (level, false)) : exec i s = .next (u.blankTake level) := by
  rw [exec_blank s hi, blankCome_of_due h, hu]

/-- A level that changes nothing: only the deglitch follows. -/
theorem blankTake_idle {s : State} {level : Bool} (h : (s.deglitchAt none).levelTaken level = s.deglitchAt none) :
    s.blankTake level = { s with scan := { s.scan with blkAt := (s.blankTake level).scan.blkAt } } := by
  obtain ⟨b, hb⟩ := blankFollow_frame (s.deglitchAt none)
  have hseen : (s.deglitchAt none).blankSeen s.scan.blkEff = s.deglitchAt none := blankSeen_same (s.deglitchAt none)
  rw [blankTake_eq, h, hseen, hb]
  rfl

/-- What follows a change of the effective level to the state `v`: the scan and the agenda are those of `v`, the deglitch aside. -/
theorem blankTake_spec {s v : State} {level : Bool} (hv : (s.deglitchAt none).levelTaken level = v) (hg : s.gateOnly v) :
    s.gateOnly (s.blankTake level) ∧ (s.blankTake level).scan = { v.scan with blkAt := (s.blankTake level).scan.blkAt } ∧
      (s.blankTake level).agenda = v.agenda := by
  obtain ⟨honly, hwords⟩ := blankSeen_spec v s.scan.blkEff
  obtain ⟨b, hb⟩ := blankFollow_frame (v.blankSeen s.scan.blkEff)
  rw [blankTake_eq, hv, hb]
  rw [State.timersOnly] at honly
  generalize v.blankSeen s.scan.blkEff = w at honly hwords
  refine ⟨hg.trans ⟨?_, hwords⟩, ?_, ?_⟩
  · rw [honly]
  · rw [honly]
  · rw [honly]

/-- The deglitch after a change starts afresh where the raw level has moved on. -/
theorem blkAt_blankTake {s v : State} {level : Bool} (hv : (s.deglitchAt none).levelTaken level = v) (hg : s.gateOnly v)
    (hnone : v.scan.blkAt = none) (hball : v.scan.blkBall = s.scan.blkBall) (hs : s.sampled = true)
    (he : (s.reg 0x0608).getLsbD 0 = true) : (s.blankTake level).scan.blkAt =
      if s.blankRaw = v.scan.blkEff then none else some (s.now + s.deglitch, s.blankRaw, false) := by
  obtain ⟨honly, hwords⟩ := blankSeen_spec v s.scan.blkEff
  rw [blankTake_eq, hv]
  rw [State.timersOnly] at honly
  have hscan : (v.blankSeen s.scan.blkEff).scan = v.scan := by rw [honly]
  have hgate : s.gateOnly (v.blankSeen s.scan.blkEff) := hg.trans ⟨by rw [honly], hwords⟩
  generalize v.blankSeen s.scan.blkEff = w at hscan hgate ⊢
  have hraw : w.blankRaw = s.blankRaw := by rw [State.blankRaw, hscan, hball, hgate.word]; rfl
  have hat : w.scan.blkAt = none := by rw [hscan, hnone]
  have hdue : w.blankDue = none := by rw [State.blankDue, hat]
  have hgoing : w.blankGoing = false := by rw [State.blankGoing, hat]; rfl
  have hsw : w.sampled = true := hgate.sampled.trans hs
  have hew : (w.reg 0x0608).getLsbD 0 = true := by rw [hgate.word]; exact he
  rw [← hscan]
  split
  · next h =>
    rw [blankFollow_stands hsw hew (hraw.trans h) hdue]
    rfl
  · next h =>
    rw [blankFollow_starts hsw hew (fun heq => h (hraw.symm.trans heq)) hgoing, hraw, hgate.now, hgate.deglitch]
    rfl

theorem gateOnly_turned (s : State) (level : Bool) : s.gateOnly ((s.deglitchAt none).turned level) := by
  rw [turned_frame]
  exact gateOnly_mk s _ _

theorem scan_turned (s : State) (level : Bool) : ((s.deglitchAt none).turned level).scan = { s.scan with
    blkEff := level, blkTime := 0, blkAt := none, edges := ((s.deglitchAt none).turned level).scan.edges } :=
  congrArg State.scan (turned_frame (s.deglitchAt none) level)

/-! Effective BLANK asserts (R148, R149). -/

/-- What an assertion does to the scan. -/
theorem risen_spec (s : State) : s.gateOnly (s.deglitchAt none).risen ∧
    (s.deglitchAt none).risen.scan = { s.scan with
      blkEff := true, blkTime := 0, blkAt := none, edges := (s.deglitchAt none).risen.scan.edges
      paused := (s.deglitchAt none).risen.scan.paused, tailAt := (s.deglitchAt none).risen.scan.tailAt } ∧
    (s.slotRuns = true → (s.deglitchAt none).risen.scan.edges = s.scan.edges + 1) ∧
    (s.slotRuns = true → s.blankIgnored = false →
      (s.deglitchAt none).risen.scan.paused = true ∧ (s.deglitchAt none).risen.scan.tailAt = none) ∧
    (s.slotRuns = false ∨ s.blankIgnored = true → (s.deglitchAt none).risen.scan.paused = s.scan.paused ∧
      (s.deglitchAt none).risen.scan.tailAt = s.scan.tailAt) := by
  have hgate := gateOnly_turned s true
  have hscan := scan_turned s true
  have hedges : ((s.deglitchAt none).turned true).scan.edges = if s.slotRuns then s.scan.edges + 1 else s.scan.edges :=
    edges_turned (s.deglitchAt none) true
  have hrisen : (s.deglitchAt none).risen = if s.slotRuns && !s.blankIgnored then
      { (s.deglitchAt none).turned true with
        scan := { ((s.deglitchAt none).turned true).scan with paused := true, tailAt := none } }
      else (s.deglitchAt none).turned true := rfl
  rw [hrisen]
  generalize (s.deglitchAt none).turned true = v at hgate hscan hedges
  split
  · next h =>
    rw [Bool.and_eq_true, Bool.not_eq_true'] at h
    refine ⟨hgate.trans (gateOnly_mk v _ _), ?_, fun hr => ?_, fun _ _ => ⟨rfl, rfl⟩, fun hq => ?_⟩
    · dsimp only
      rw [hscan]
    · exact hedges.trans (if_pos hr)
    · rw [h.1, h.2] at hq
      simp at hq
  · next h =>
    refine ⟨hgate, ?_, fun hr => ?_, fun hr hi => absurd (by rw [hr, hi]; rfl) h, fun _ => ?_⟩
    · rw [hscan]
    · exact hedges.trans (if_pos hr)
    · rw [hscan]
      exact ⟨rfl, rfl⟩

theorem levelTaken_rises {s : State} (he : s.scan.blkEff = false) (hs : s.sampled = true) (hen : (s.reg 0x0608).getLsbD 0 = true) :
    (s.deglitchAt none).levelTaken true = (s.deglitchAt none).risen := blankOn_rises (s := s.deglitchAt none) he hs hen

/-! Effective BLANK deasserts (R149, R152). -/

theorem levelTaken_falls {s : State} (hs : s.sampled = true) :
    (s.deglitchAt none).levelTaken false = (s.deglitchAt none).blankOff := if_pos (c := s.sampled = true) hs

/-- A deassertion that ends the pause on its hc. -/
theorem blankTake_pauseOver {s : State} (hs : s.sampled = true)
    (h : (s.deglitchAt none).blankOff = ((s.deglitchAt none).turned false).pauseOver) :
    (s.blankTake false).scan.blkEff = false ∧ (s.blankTake false).scan.paused = false ∧ (s.blankTake false).scan.tailAt = none ∧
      (s.blankTake false).scan.h = s.scan.h ∧ (s.blankTake false).scan.slot = s.scan.slot ∧
      s.regsKept (s.blankTake false) [0x2803] := by
  have hgate : s.gateOnly ((s.deglitchAt none).turned false).pauseOver := (gateOnly_turned s false).trans (gateOnly_mk _ _ _)
  obtain ⟨hafter, hscan, -⟩ := blankTake_spec ((levelTaken_falls hs).trans h) hgate
  rw [State.pauseOver, scan_turned] at hscan
  rw [hscan]
  exact ⟨rfl, rfl, rfl, rfl, rfl, hafter.words⟩

/-! The statement, by its clauses. -/

/-- A level that is not due reaches the ball. -/
theorem exec_blank_ball {i : Instr} {level : Bool} {s : State}
    (hi : i = .blankAssert ∧ level = true ∨ i = .blankDeassert ∧ level = false) (h : s.blankDue = none) :
    exec i s = .next (s.ballTaken level) := by rw [exec_blank s hi, blankCome_of_none level h]

/-- An assertion that takes place (R148, R149, R376). -/
theorem exec_blankAssert_due {s u : State} (hu : s.countHc = u) (hdue : s.blankDue = some (true, false))
    (he : u.scan.blkEff = false) (hs : u.sampled = true) (hen : (u.reg 0x0608).getLsbD 0 = true) : ∃ t, exec .blankAssert s = .next t ∧
      t = { u with regs := t.regs, flagged := t.flagged, scan := t.scan, agenda := t.agenda, tm := t.tm } ∧
      t.scan = { u.scan with blkEff := true, blkTime := 0, edges := t.scan.edges, paused := t.scan.paused, tailAt := t.scan.tailAt,
                             blkAt := if u.blankRaw then none else some (s.now + u.deglitch, false, false) } ∧
      (u.slotRuns = true → t.scan.edges = u.scan.edges + 1) ∧
      (u.slotRuns = true → u.blankIgnored = false → t.scan.paused = true ∧ t.scan.tailAt = none) ∧
      (u.slotRuns = false ∨ u.blankIgnored = true → t.scan.paused = u.scan.paused ∧ t.scan.tailAt = u.scan.tailAt) ∧
      u.regsKept t [0x2803] := by
  have hnow : u.now = s.now := hu ▸ (holds_countHc s).now
  have hv := levelTaken_rises he hs hen
  obtain ⟨hgate, hrisen, hedges, hpauses, hstays⟩ := risen_spec u
  obtain ⟨hafter, hscan, -⟩ := blankTake_spec hv hgate
  have hat := blkAt_blankTake hv hgate (by rw [hrisen]) (by rw [hrisen]) hs hen
  refine ⟨u.blankTake true, exec_blank_due (.inl ⟨rfl, rfl⟩) hu hdue, hafter.frame, ?_, fun hr => ?_, fun hr hi => ?_, fun hq => ?_,
    hafter.words⟩
  · have heff : (u.deglitchAt none).risen.scan.blkEff = true := by rw [hrisen]
    have hnext : (u.blankTake true).scan.blkAt = if u.blankRaw then none else some (s.now + u.deglitch, false, false) := by
      rw [hat, heff, hnow]
      cases u.blankRaw <;> rfl
    rw [← hnext]
    generalize u.blankTake true = t at hscan
    rw [hscan, hrisen]
  · rw [hscan]; exact hedges hr
  · rw [hscan]; exact hpauses hr hi
  · rw [hscan]; exact hstays hq

/-- A deassertion whose pause lasts TAIL hc longer (R149). -/
theorem exec_blankDeassert_tail {s u : State} (hu : s.countHc = u) (hdue : s.blankDue = some (false, false))
    (hs : u.sampled = true) (he : u.scan.blkEff = true) (hp : u.scan.paused = true) (hedges : u.scan.edges < 64)
    (htail : u.blankTail ≠ 0) (hlate : u.slotRuns = false ∨ u.scan.h ≠ 0 ∨ u.scan.pauseCount ≠ 0) :
    ∃ t, exec .blankDeassert s = .next t ∧
      t = { u with regs := t.regs, flagged := t.flagged, scan := t.scan, agenda := t.agenda, tm := t.tm } ∧
      t.scan.blkEff = false ∧ t.scan.blkTime = 0 ∧ t.scan.stuckIgn = u.scan.stuckIgn ∧ t.scan.paused = true ∧
      t.scan.slot = u.scan.slot ∧ t.scan.h = u.scan.h ∧ t.scan.tailAt = some (s.now + u.blankTail) ∧
      (s.now + u.blankTail, Instr.pauseEnd) ∈ t.agenda ∧ u.regsKept t [0x2803] := by
  have hnow : u.now = s.now := hu ▸ (holds_countHc s).now
  have hoff := (levelTaken_falls hs).trans (blankOff_tail (s := u.deglitchAt none) he hp hedges htail hlate)
  have hnow' : ((u.deglitchAt none).turned false).now = u.now := (gateOnly_turned u false).now
  have hgate := (gateOnly_turned u false).trans (gateOnly_mk _
    { ((u.deglitchAt none).turned false).scan with tailAt := some (u.now + u.blankTail) }
    (((u.deglitchAt none).turned false).agenda ++ [(((u.deglitchAt none).turned false).now + u.blankTail, .pauseEnd)]))
  obtain ⟨hafter, hscan, hagenda⟩ := blankTake_spec hoff hgate
  refine ⟨u.blankTake false, exec_blank_due (.inr ⟨rfl, rfl⟩) hu hdue, hafter.frame, ?_⟩
  rw [State.after_scan, scan_turned] at hscan
  rw [hscan, hagenda, State.after_agenda]
  refine ⟨rfl, rfl, rfl, hp, rfl, rfl, by rw [← hnow]; rfl, List.mem_append_right _ (List.mem_singleton.2 ?_), hafter.words⟩
  rw [← hnow]
  exact congrArg (fun n => (n + u.blankTail, Instr.pauseEnd)) hnow'.symm

/-- A deassertion that is the 65th edge (R152). -/
theorem exec_blankDeassert_chatter {s u : State} (hu : s.countHc = u) (hdue : s.blankDue = some (false, false))
    (hs : u.sampled = true) (he : u.scan.blkEff = true) (hp : u.scan.paused = true) (hr : u.slotRuns = true)
    (hedges : u.scan.edges = 64) (hi : u.scan.chatIgn = false) :
    ∃ t, exec .blankDeassert s = .next t ∧ t.scan.blkEff = false ∧ t.scan.paused = true ∧ t.scan.edges = 65 ∧
      (s.now, Instr.blankChatter) ∈ t.agenda := by
  have hnow : u.now = s.now := hu ▸ (holds_countHc s).now
  have hoff := (levelTaken_falls hs).trans (blankOff_chatter (s := u.deglitchAt none) he hr hedges hi)
  obtain ⟨-, hscan, hagenda⟩ := blankTake_spec hoff (gateOnly_turned u false)
  have hcount : ((u.deglitchAt none).turned false).scan.edges = 65 :=
    (edges_turned ..).trans ((if_pos hr).trans (congrArg (· + 1) hedges))
  have hdueNow : (u.now, Instr.blankChatter) ∈ ((u.deglitchAt none).turned false).agenda :=
    blankEdge_chatter (s := { u.deglitchAt none with scan := { (u.deglitchAt none).scan with blkEff := false, blkTime := 0 } }) hr hedges
  refine ⟨u.blankTake false, exec_blank_due (.inr ⟨rfl, rfl⟩) hu hdue, ?_⟩
  rw [scan_turned] at hscan
  rw [hscan, hagenda]
  exact ⟨rfl, hp, hcount, by rw [← hnow]; exact hdueNow⟩

/-- Settles O48: the ball by `ballTaken`, a change that is due by `blankTake`, the end of a pause by `endPause`. -/
theorem blankGate : Obligations.BlankGate := by
  refine ⟨fun i level s hi => ⟨fun hnone hraw => ?_, fun hnone hraw => ?_, fun due off hdue hne => ?_, fun hdue => ?_⟩,
    fun s u hu hdue => ⟨fun h => ?_, exec_blankAssert_due hu hdue⟩,
    fun s u hu hdue => ⟨fun h => ?_, fun hs he hp => exec_blankDeassert_tail hu hdue hs he hp, fun hs he hp hr hh hc hedges => ?_,
      fun hs he hp hedges htail hm hc => ?_, fun hs he hp => exec_blankDeassert_chatter hu hdue hs he hp⟩,
    fun s h => congrArg Host.Outcome.next (tailEnd_of_none h),
    fun s h ht he => ⟨fun hq => congrArg Host.Outcome.next ?_, fun hn hp hm hc => congrArg Host.Outcome.next ?_,
      fun e hn hp hm hs hi => ⟨s.tailEnd, rfl, ?_⟩⟩⟩
  · rw [exec_blank_ball hi hnone, ballTaken_same hraw]
  · obtain ⟨hlevel, hframe⟩ := ballTaken_spec s level
    exact ⟨s.ballTaken level, exec_blank_ball hi hnone, hlevel, hframe, ballTaken_unsampled,
      fun hs he => ⟨ballTaken_back hraw hnone hs he, ballTaken_starts hraw hs he⟩⟩
  · obtain ⟨hlevel, hframe⟩ := ballTaken_spec s level
    refine ⟨s.ballTaken level, by rw [exec_blank s hi, blankCome_of_other hdue hne], hlevel, hframe, fun hoff => ?_⟩
    exact ballTaken_due (hoff ▸ hdue)
  · rw [exec_blank s hi, blankCome_of_off hdue, State.deglitchAt]
  · exact ⟨u.blankTake true, exec_blank_due (.inl ⟨rfl, rfl⟩) hu hdue, blankTake_idle (blankOn_idle (s := u.deglitchAt none) h)⟩
  · refine ⟨u.blankTake false, exec_blank_due (.inr ⟨rfl, rfl⟩) hu hdue, blankTake_idle ?_⟩
    cases hs : u.sampled with
    | false => exact if_neg (c := u.sampled = true) (by simp [hs])
    | true => exact (levelTaken_falls hs).trans (blankOff_idle (s := u.deglitchAt none) (h.resolve_left (by simp [hs])))
  · obtain ⟨heff, hpaused, htail, hfirst, hslot, hwords⟩ :=
      blankTake_pauseOver hs (blankOff_first (s := u.deglitchAt none) he hp hedges hr hh hc)
    exact ⟨u.blankTake false, exec_blank_due (.inr ⟨rfl, rfl⟩) hu hdue, heff, hpaused, htail, hfirst.trans hh, hslot, hwords⟩
  · obtain ⟨heff, hpaused, hnone, hfirst, hslot, -⟩ :=
      blankTake_pauseOver hs (blankOff_at_once (s := u.deglitchAt none) he hp hedges htail hm hc)
    exact ⟨u.blankTake false, exec_blank_due (.inr ⟨rfl, rfl⟩) hu hdue, heff, hpaused, hfirst, hslot, hnone⟩
  · rcases Nat.lt_or_ge s.now h with hn | hn
    · exact tailEnd_of_early ht hn
    · exact (tailEnd_of_due ht hn he).trans (endPause_idle (hq.resolve_left (by omega)))
  · exact (tailEnd_of_due ht hn he).trans (endPause_unmarked hp hm hc)
  · have hrun := endPause_reruns hp hm hs he hi
    rw [tailEnd_of_due ht hn he]
    exact ⟨hrun.slot, hrun.first, hrun.lead, hrun.paused, hrun.marked, hrun.count, hrun.edges, hrun.bins, hrun.pause, hrun.words,
      hrun.bytes⟩

end Machine
end Sys2Proof
end

section
/-! SUPPORT. Injected sequences: triggers, ramps and the end (R165 to R172, R204), and what they owe to the free clips of a cut
window (R143). -/

namespace Sys2Proof
namespace Machine

/-! A trigger (R165, R171). -/

/-- The trigger hc and LASTINJ.SRC of a trigger that starts a sequence. -/
def State.triggered (s : State) (host cloche : Bool) : State :=
  State.setReg { s with inj := { s.inj with trigAt := s.now } } 0x210C (w16 (b2n host + 2 * b2n cloche))

theorem reg_triggered (s : State) (host cloche : Bool) (a : Nat) : (s.triggered host cloche).reg a =
    if a = 0x210C then w16 (b2n host + 2 * b2n cloche) else s.reg a := by
  rw [State.triggered, reg_setReg]
  rfl

theorem noSource_iff (host cloche : Bool) : b2n host + 2 * b2n cloche = 0 ↔ host = false ∧ cloche = false := by
  cases host <;> cases cloche <;> decide

theorem injTrigger_idle {s : State} {host cloche : Bool} (h : (host = false ∧ cloche = false) ∨ s.hcDriven = false) :
    s.injTrigger host cloche = s := if_pos (h.imp_left (noSource_iff host cloche).2)

section Trigger
variable {s : State} {host cloche : Bool} (hsrc : host = true ∨ cloche = true) (hrun : s.hcDriven = true)
include hsrc hrun

theorem trigger_arises : ¬ (b2n host + 2 * b2n cloche = 0 ∨ s.hcDriven = false) := by
  rw [noSource_iff, hrun]
  rcases hsrc with rfl | rfl <;> simp

/-- A trigger while IPEND is 1 merges (R165). -/
theorem injTrigger_merges (hphase : s.inj.phase ≠ .idle) : s.injTrigger host cloche =
    (s.setReg 0x210C (s.reg 0x210C ||| w16 (b2n host + 2 * b2n cloche))).setFlagIf (decide (s.inj.trigAt ≠ s.now)) 0x21 2 :=
  (if_neg (trigger_arises hsrc hrun)).trans (if_pos hphase)

theorem merged_spec (hphase : s.inj.phase ≠ .idle) : ∃ t, s.injTrigger host cloche = t ∧
    t = { s with regs := t.regs, flagged := t.flagged } ∧ t.reg 0x210C = s.reg 0x210C ||| w16 (b2n host + 2 * b2n cloche) ∧
    t.reg 0x2103 = (if s.inj.trigAt ≠ s.now then s.reg 0x2103 ||| 4 else s.reg 0x2103) ∧ s.regsKept t [0x210C, 0x2103] := by
  refine ⟨_, injTrigger_merges hsrc hrun hphase, (regsOnly_setReg ..).trans (regsOnly_setFlagIf ..), ?_, ?_, fun a ha => ?_⟩
  · rw [reg_setFlagIf, if_neg (by simp), reg_setReg, if_pos rfl]
  · refine (reg_setFlagIf_same _ _ 0x21 2).trans ?_
    have hflag (v : Word) : (s.setReg 0x210C v).reg (0x21 * 256 + 3) = s.reg 0x2103 := (reg_setReg ..).trans (if_neg (by decide))
    simp only [hflag, decide_eq_true_eq]
    rfl
  · simp only [List.mem_cons, List.not_mem_nil, or_false, not_or] at ha
    rw [reg_setFlagIf, if_neg fun hd => ha.2 hd.2, reg_setReg, if_neg ha.1]

theorem injTrigger_first (hphase : s.inj.phase = .idle) : s.injTrigger host cloche =
    if s.injHeld || s.boundaryDue then
      { s.triggered host cloche with inj := { (s.triggered host cloche).inj with phase := .held } }
    else (s.triggered host cloche).injHandle :=
  (if_neg (trigger_arises hsrc hrun)).trans (if_neg (not_not.2 hphase))

/-- A trigger that waits for the frame boundary (R107, R171). -/
theorem injTrigger_held (hphase : s.inj.phase = .idle) (h : s.injHeld = true ∨ s.boundaryDue = true) :
    s.injTrigger host cloche = { s.triggered host cloche with inj := { (s.triggered host cloche).inj with phase := .held } } :=
  (injTrigger_first hsrc hrun hphase).trans (if_pos (by simpa using h))

/-- A trigger that is handled on its own hc (R167). -/
theorem injTrigger_handled (hphase : s.inj.phase = .idle) (hheld : s.injHeld = false) (hbound : s.boundaryDue = false) :
    s.injTrigger host cloche = (s.triggered host cloche).injHandle :=
  (injTrigger_first hsrc hrun hphase).trans (if_neg (by simp [hheld, hbound]))

end Trigger

/-- LASTINJ beside SRC (Table LC-13): each field has bits of its own. -/
theorem lastInj_fields (abandoned inRest : Bool) : ∀ src < 4, ∀ e < 8,
    (w16 src &&& 3) ||| w16 (4 * e + 32 * b2n abandoned + 64 * b2n inRest) =
      w16 (src + (4 * e + 32 * b2n abandoned + 64 * b2n inRest)) := by
  cases abandoned <;> cases inRest <;> decide

theorem source_lt (host cloche : Bool) : b2n host + 2 * b2n cloche < 4 := by
  cases host <;> cases cloche <;> decide

/-- LASTINJ of a trigger that is handled at entry `e` (Table LC-13). -/
theorem lastInj_noted (s : State) (host cloche abandoned inRest : Bool) {e : Nat} (he : e < 8) :
    ((s.triggered host cloche).noteInj e abandoned inRest).reg 0x210C =
      w16 (b2n host + 2 * b2n cloche + (4 * e + 32 * b2n abandoned + 64 * b2n inRest)) := by
  rw [reg_noteInj, if_pos rfl, reg_triggered, if_pos rfl, lastInj_fields _ _ _ (source_lt host cloche) e he]

/-! Where a trigger is handled (R167 to R169). -/

theorem injHandle_rest {s : State} (h : ∀ e, s.scan.slot ≠ some (.regular e)) :
    s.injHandle = (s.noteInj 0 false true).injStart s.now none := by
  unfold State.injHandle
  split
  · next e he => exact absurd he (h e)
  · rfl

/-- The words of a slot that is abandoned (R169). -/
def State.slotAbandoned (s : State) (e : Nat) : State :=
  ((s.cutClips.draw.noteInj e true false).setFlag 0x21 4).addSat 0x210A 1

section Slot
variable {s : State} {e : Nat} (hslot : s.scan.slot = some (.regular e)) (hrelock : s.clk.relock = none) (hruns : s.slotRuns = true)
include hslot hrelock hruns

theorem injHandle_slot : s.injHandle = if s.resumePolicy && !s.scan.marked then (s.slotAbandoned e).injStart s.now (some e)
    else State.noteInj { s with inj := { s.inj with phase := .pending } } e false false := by
  unfold State.injHandle
  simp only [hslot]
  exact if_neg (by simp [hrelock, hruns])

theorem injHandle_abandons (hpol : s.resumePolicy = true) (hmark : s.scan.marked = false) :
    s.injHandle = (s.slotAbandoned e).injStart s.now (some e) :=
  (injHandle_slot hslot hrelock hruns).trans (if_pos (by simp [hpol, hmark]))

theorem injHandle_waits (h : s.resumePolicy = false ∨ s.scan.marked = true) :
    s.injHandle = State.noteInj { s with inj := { s.inj with phase := .pending } } e false false :=
  (injHandle_slot hslot hrelock hruns).trans (if_neg (by rcases h with h | h <;> simp [h]))

end Slot

/-- The policies of the lanes are no word of a trigger. -/
theorem resumePolicy_triggered (s : State) (host cloche : Bool) : (s.triggered host cloche).resumePolicy = s.resumePolicy := by
  have hpol (k : Nat) : (s.triggered host cloche).reg (laneAddr k 0x16) = s.reg (laneAddr k 0x16) := by
    rw [reg_triggered, if_neg (by unfold laneAddr; omega)]
  simp only [State.resumePolicy, hpol]
  rfl

theorem slotAbandoned_frame (s : State) (e : Nat) : s.slotAbandoned e = { s with
    regs := (s.slotAbandoned e).regs, flagged := (s.slotAbandoned e).flagged, free := s.free + 1 } := by
  have hclips := regsOnly_cutClips s
  rw [State.regsOnly] at hclips
  unfold State.slotAbandoned
  generalize s.cutClips = u at hclips ⊢
  rw [hclips]
  rfl

/-- Beside its own words an abandoned slot changes only the flags that a cut window may set (R143, R169). -/
theorem reg_slotAbandoned (s : State) (e a : Nat) : (s.slotAbandoned e).reg a =
    if a = 0x210A then w16 (sat16 ((s.reg 0x210A).toNat + 1)) else if a = 0x2103 then s.reg 0x2103 ||| 16
    else if a = 0x210C then (s.noteInj e true false).reg 0x210C else s.cutClips.reg a := by
  have hcount : s.cutClips.reg 0x210A = s.reg 0x210A := regsKept_cutClips s _ (by decide)
  have hflag : s.cutClips.reg 0x2103 = s.reg 0x2103 := regsKept_cutClips s _ (by decide)
  have hlast : s.cutClips.reg 0x210C = s.reg 0x210C := regsKept_cutClips s _ (by decide)
  simp only [State.slotAbandoned, reg_addSat, reg_setFlag, reg_noteInj, reg_draw, hlast, if_pos]
  split
  · simp [hcount]
  split
  · next h =>
    rw [if_neg (by omega), h]
    exact congrArg (· ||| w16 (2 ^ 4)) hflag
  · rfl

/-! The ramps (R166). -/

/-- `t` is in the exit ramp that a trigger starts on this hc of `s`; `resume` is the entry that follows the sequence. -/
structure State.exits (s t : State) (resume : Option Nat) : Prop where
  phase : t.inj.phase = .exitRamp
  first : t.inj.rampFrom = s.now
  resume : t.inj.resume = resume
  slot : t.scan.slot = none
  ends : (s.now + s.ramp, Instr.exitRampEnd) ∈ t.agenda
  queue : t.rq = s.rq
  contacts : t.tr = s.tr

/-- An exit ramp that starts on this hc sets ISTART and times its end (R166). -/
theorem injStart_now (s : State) (resume : Option Nat) : ∃ u : State,
    s.injStart s.now resume = (u.setFlag 0x21 0).after s.ramp .exitRampEnd ∧
    u = { s with inj := u.inj, scan := u.scan, clk := u.clk } ∧
    u.inj.phase = .exitRamp ∧ u.inj.rampFrom = s.now ∧ u.inj.resume = resume ∧ u.scan.slot = none := by
  unfold State.injStart
  extract_lets te ge p _ _ _ u
  refine ⟨u, ?_, rfl, rfl, rfl, rfl, rfl⟩
  have hdelay : s.now + u.ramp - u.now = s.ramp := Nat.add_sub_cancel_left ..
  rw [hdelay, State.setFlagIf, if_pos (decide_eq_true (le_refl u.now))]

theorem exits_injStart (s : State) (resume : Option Nat) : s.exits (s.injStart s.now resume) resume := by
  obtain ⟨u, heq, hframe, hphase, hfrom, hresume, hslot⟩ := injStart_now s resume
  have hnow : u.now = s.now := by rw [hframe]
  rw [heq]
  exact {
    phase := hphase
    first := hfrom
    resume := hresume
    slot := hslot
    ends := by simp [State.after, hnow]
    queue := show u.rq = s.rq by rw [hframe]
    contacts := show u.tr = s.tr by rw [hframe] }

theorem reg_injStart (s : State) (resume : Option Nat) (a : Nat) : (s.injStart s.now resume).reg a =
    if a = 0x2103 then s.reg a ||| 1 else s.reg a := by
  obtain ⟨u, heq, hframe, -⟩ := injStart_now s resume
  have hreg : u.reg a = s.reg a := by rw [hframe]; rfl
  rw [heq, reg_after, reg_setFlag, hreg]
  rfl

theorem injRampEnd_idle {s : State} (h : s.inj.phase ≠ .exitRamp ∨ s.now < s.inj.rampFrom + s.ramp) : s.injRampEnd = s :=
  if_neg fun hd => by
    simp only [Bool.and_eq_true, decide_eq_true_eq] at hd
    exact h.elim (fun hphase => hphase hd.1) (fun hearly => by omega)

theorem injRampEnd_due {s : State} (hphase : s.inj.phase = .exitRamp) (hnow : s.inj.rampFrom + s.ramp ≤ s.now) :
    s.injRampEnd = State.startSlot { s with inj := { s.inj with phase := .slots } } (.injected 0) 0 :=
  if_pos (by simp [hphase, hnow])

/-- The words of a sequence that ends, and the re-plan that follows it (R204). -/
def State.sequenceOver (s : State) : State :=
  ((State.replanSoon { s with inj := { s.inj with phase := .idle } }).setFlag 0x21 1).addSat 0x2109 1

theorem sequenceOver_frame (s : State) : s.sequenceOver = { s with
    regs := s.sequenceOver.regs, flagged := s.sequenceOver.flagged, inj := { s.inj with phase := .idle }
    cl := { s.cl with replanAt := s.cl.replanAt ++ [s.now + 2048] } } := rfl

theorem reg_sequenceOver (s : State) (a : Nat) : s.sequenceOver.reg a =
    if a = 0x2109 then w16 (sat16 ((s.reg 0x2109).toNat + 1)) else if a = 0x2103 then s.reg 0x2103 ||| 2 else s.reg a := by
  simp only [State.sequenceOver, reg_addSat, reg_setFlag, reg_replanSoon, reg_mk, get_regs]
  split
  · simp
  split
  · next h =>
    rw [h]
    rfl
  · rfl

/-- What follows the re-entry ramp: entry `e`, or the REST that was interrupted (R168 to R170). -/
def State.listResumed (s : State) : State :=
  match s.inj.resume with
  | some e => s.startSlot (.regular e) 1
  | none => match s.scan.nextAt with
    | some b => { s with scan := { s.scan with nextAt := some (max b (s.now + 1)), rest := decide (s.now + 1 < b) } }
    | none => s

theorem listResumed_frame (s : State) : s.listResumed = { s with scan := s.listResumed.scan } := by
  unfold State.listResumed
  split
  · rfl
  · split <;> rfl

theorem listResumed_entry {s : State} {e : Nat} (h : s.inj.resume = some e) : s.listResumed = s.startSlot (.regular e) 1 := by
  simp only [State.listResumed, h]

theorem listResumed_rest {s : State} {b : Nat} (h : s.inj.resume = none) (hb : s.scan.nextAt = some b) : s.listResumed =
    { s with scan := { s.scan with nextAt := some (max b (s.now + 1)), rest := decide (s.now + 1 < b) } } := by
  simp only [State.listResumed, h, hb]

theorem injDone_idle {s : State} (h : s.inj.phase ≠ .reentryRamp ∨ s.now + 1 < s.inj.rampFrom + s.ramp) : s.injDone = s :=
  if_neg fun hd => by
    simp only [Bool.and_eq_true, decide_eq_true_eq] at hd
    exact h.elim (fun hphase => hphase hd.1) (fun hearly => by omega)

theorem injDone_due {s : State} (hphase : s.inj.phase = .reentryRamp) (hnow : s.inj.rampFrom + s.ramp ≤ s.now + 1) :
    s.injDone = s.sequenceOver.listResumed := if_pos (by simp [hphase, hnow])

/-! What a trigger in REST or in a slot does (R167 to R169). -/

theorem boundaryDue_of_slot {s : State} {k : SlotKind} (h : s.scan.slot = some k) : s.boundaryDue = false := by
  simp [State.boundaryDue, h]

/-- LASTINJ and IFLG are the words of a trigger in REST. -/
theorem restTrigger_spec {s : State} (host cloche : Bool) (hrest : ∀ e, s.scan.slot ≠ some (.regular e)) :
    ∃ t, (s.triggered host cloche).injHandle = t ∧ s.exits t none ∧ t.reg 0x2103 = s.reg 0x2103 ||| 1 ∧
      t.reg 0x210C = w16 (b2n host + 2 * b2n cloche + 64) ∧ s.regsKept t [0x210C, 0x2103] := by
  have hexits := exits_injStart ((s.triggered host cloche).noteInj 0 false true) none
  have hstart (a : Nat) : (((s.triggered host cloche).noteInj 0 false true).injStart (s.triggered host cloche).now none).reg a =
      if a = 0x2103 then ((s.triggered host cloche).noteInj 0 false true).reg a ||| 1
      else ((s.triggered host cloche).noteInj 0 false true).reg a := reg_injStart _ none a
  refine ⟨_, injHandle_rest hrest,
    ⟨hexits.phase, hexits.first, hexits.resume, hexits.slot, hexits.ends, hexits.queue, hexits.contacts⟩, ?_, ?_, fun a ha => ?_⟩
  · rw [hstart, if_pos rfl, reg_noteInj, if_neg (by decide), reg_triggered, if_neg (by decide)]
  · rw [hstart, if_neg (by decide), lastInj_noted _ _ _ _ _ (by decide)]
    rfl
  · simp only [List.mem_cons, List.not_mem_nil, or_false, not_or] at ha
    rw [hstart, if_neg ha.2, reg_noteInj, if_neg ha.1, reg_triggered, if_neg ha.1]

/-- An abandoned slot of `s`: its count, its flags and LASTINJ, and the clips of its window (R143, R169). -/
theorem abandoned_spec (s : State) (host cloche : Bool) {e : Nat} (he : e < 8) :
    ∃ t, ((s.triggered host cloche).slotAbandoned e).injStart s.now (some e) = t ∧ s.exits t (some e) ∧
      t.reg 0x2103 = s.reg 0x2103 ||| 17 ∧ (t.reg 0x210A).toNat = min 65535 ((s.reg 0x210A).toNat + 1) ∧
      t.reg 0x210C = w16 (b2n host + 2 * b2n cloche + 4 * e + 32) ∧
      (s.triggered host cloche).cutClips.regsKept t [0x210C, 0x2103, 0x210A] := by
  have hreg := reg_slotAbandoned (s.triggered host cloche) e
  have hframe := slotAbandoned_frame (s.triggered host cloche) e
  generalize (s.triggered host cloche).slotAbandoned e = u at hreg hframe ⊢
  have hnow : u.now = s.now := by rw [hframe]; rfl
  have hramp : u.ramp = s.ramp := by rw [hframe]; rfl
  have hexits := exits_injStart u (some e)
  have hstart := reg_injStart u (some e)
  rw [← hnow]
  refine ⟨_, rfl,
    ⟨hexits.phase, hexits.first.trans hnow, hexits.resume, hexits.slot, ?_, hexits.queue.trans ?_, hexits.contacts.trans ?_⟩,
    ?_, ?_, ?_, fun a ha => ?_⟩
  · rw [← hnow, ← hramp]
    exact hexits.ends
  · rw [hframe]; rfl
  · rw [hframe]; rfl
  · rw [hstart, if_pos rfl, hreg, if_neg (by decide), if_pos rfl, reg_triggered, if_neg (by decide), BitVec.or_assoc]
    rfl
  · rw [hstart, if_neg (by decide), hreg, if_pos rfl, reg_triggered, if_neg (by decide), sat16_eq_min, toNat_w16_sat]
  · rw [hstart, if_neg (by decide), hreg, if_neg (by decide), if_neg (by decide), if_pos rfl, lastInj_noted _ _ _ _ _ he]
    simp [b2n, Nat.add_assoc]
  · simp only [List.mem_cons, List.not_mem_nil, or_false, not_or] at ha
    obtain ⟨hlast, hflag, hcount⟩ := ha
    rw [hstart, if_neg hflag, hreg, if_neg hcount, if_neg hflag, if_neg hlast]

section SlotTrigger
variable {s : State} {host cloche : Bool} {e : Nat} (hsrc : host = true ∨ cloche = true) (hrun : s.hcDriven = true)
  (he : e < 8) (hphase : s.inj.phase = .idle) (hheld : s.injHeld = false) (hslot : s.scan.slot = some (.regular e))
  (hrelock : s.clk.relock = none) (hruns : s.slotRuns = true)
include hsrc hrun he hphase hheld hslot hrelock hruns

theorem injTrigger_abandons (hpol : s.resumePolicy = true) (hmark : s.scan.marked = false) :
    ∃ t, s.injTrigger host cloche = t ∧ s.exits t (some e) ∧
      t.reg 0x2103 = s.reg 0x2103 ||| 17 ∧ (t.reg 0x210A).toNat = min 65535 ((s.reg 0x210A).toNat + 1) ∧
      t.reg 0x210C = w16 (b2n host + 2 * b2n cloche + 4 * e + 32) ∧
      (s.triggered host cloche).cutClips.regsKept t [0x210C, 0x2103, 0x210A] := by
  obtain ⟨t, heq, ht⟩ := abandoned_spec s host cloche he
  have hpol' := (resumePolicy_triggered s host cloche).trans hpol
  have habandons := injHandle_abandons (s := s.triggered host cloche) hslot hrelock hruns hpol' hmark
  exact ⟨t, (injTrigger_handled hsrc hrun hphase hheld (boundaryDue_of_slot hslot)).trans (habandons.trans heq), ht⟩

theorem injTrigger_waits (hwait : s.resumePolicy = false ∨ s.scan.marked = true) :
    ∃ t, s.injTrigger host cloche = t ∧
      t = { s with regs := t.regs, flagged := t.flagged, inj := { s.inj with trigAt := s.now, phase := .pending } } ∧
      t.reg 0x210C = w16 (b2n host + 2 * b2n cloche + 4 * e) ∧ s.regsKept t [0x210C] := by
  have hwait' := hwait.imp_left (resumePolicy_triggered s host cloche).trans
  have hwaits := injHandle_waits (s := s.triggered host cloche) hslot hrelock hruns hwait'
  refine ⟨_, (injTrigger_handled hsrc hrun hphase hheld (boundaryDue_of_slot hslot)).trans hwaits, rfl,
    (lastInj_noted s host cloche false false he).trans ?_, fun a ha => ?_⟩
  · simp [b2n]
  · have hother : a ≠ 0x210C := by simpa using ha
    rw [reg_noteInj, if_neg hother]
    exact (reg_triggered s host cloche a).trans (if_neg hother)

end SlotTrigger

/-- The sequence is over: its words, the re-plan, and the list that goes on. -/
theorem injDone_spec {s : State} (hphase : s.inj.phase = .reentryRamp) (hnow : s.inj.rampFrom + s.ramp ≤ s.now + 1) :
    ∃ t, s.injDone = t ∧
      t = { s with regs := t.regs, flagged := t.flagged, inj := { s.inj with phase := .idle }, scan := t.scan
                   cl := { s.cl with replanAt := s.cl.replanAt ++ [s.now + 2048] } } ∧
      t.reg 0x2103 = s.reg 0x2103 ||| 2 ∧ (t.reg 0x2109).toNat = min 65535 ((s.reg 0x2109).toNat + 1) ∧
      s.regsKept t [0x2103, 0x2109] ∧
      (∀ e, s.inj.resume = some e → t.scan.slot = some (.regular e) ∧ t.scan.lead = 1 ∧ t.scan.nextAt = s.scan.nextAt) ∧
      ∀ b, s.inj.resume = none → s.scan.nextAt = some b → t.scan.slot = s.scan.slot ∧ t.scan.nextAt = some (max b (s.now + 1)) ∧
        t.scan.rest = decide (s.now + 1 < b) := by
  have hframe := listResumed_frame s.sequenceOver
  have hreg (a : Nat) : s.sequenceOver.listResumed.reg a = s.sequenceOver.reg a := by rw [hframe]; rfl
  refine ⟨_, injDone_due hphase hnow, ?_, ?_, ?_, fun a ha => ?_, fun e he => ?_, fun b hnone hb => ?_⟩
  · have hover := sequenceOver_frame s
    generalize s.sequenceOver.listResumed = t at hframe
    generalize s.sequenceOver = u at hover hframe
    rw [hframe, hover]
  · rw [hreg, reg_sequenceOver, if_neg (by decide), if_pos rfl]
  · rw [hreg, reg_sequenceOver, if_pos rfl, sat16_eq_min, toNat_w16_sat]
  · simp only [List.mem_cons, List.not_mem_nil, or_false, not_or] at ha
    rw [hreg, reg_sequenceOver, if_neg ha.2, if_neg ha.1]
  · rw [listResumed_entry (s := s.sequenceOver) he]
    exact ⟨rfl, rfl, rfl⟩
  · rw [listResumed_rest (s := s.sequenceOver) hnone hb]
    exact ⟨rfl, rfl, rfl⟩

/-! The free clips of a cut window (R143). -/

theorem cutClips_of_noClip (h : ∀ n k, k < 17 → Config.cutClip n k = false) (s : State) : s.cutClips = s := by
  unfold State.cutClips
  split
  · split
    · refine List.foldlRecOn (motive := fun u : State => u = s) _ _ rfl fun u hu x hx => ?_
      rw [hu, h _ _ (lane_lt_of_sensed hx)]
      rfl
    · rfl
  · rfl

/-- A flag that is set stays set when others are. -/
theorem wbit_setFlagIf {s : State} {a i : Nat} (c : Bool) (p k : Nat) (h : wbit (s.reg a) i = true) :
    wbit ((s.setFlagIf c p k).reg a) i = true := by
  rw [reg_setFlagIf]
  split
  · rw [wbit, BitVec.getLsbD_or, ← wbit, h, Bool.true_or]
  · exact h

/-- CLIP of the lanes whose window has a clipped sample. -/
def State.clipsOf (s : State) (l : List Sensed) : State :=
  l.foldl (fun (s : State) x => s.setFlagIf (Config.cutClip s.free x.lane) (0x10 + x.lane) 1) s

theorem clip_clipsOf {l : List Sensed} {x : Sensed} (hx : x ∈ l) {s : State} (hclip : Config.cutClip s.free x.lane = true) :
    wbit ((s.clipsOf l).reg (laneAddr x.lane 3)) 1 = true := by
  induction l generalizing s with
  | nil => exact absurd hx List.not_mem_nil
  | cons y l ih =>
    rcases List.mem_cons.1 hx with rfl | hl
    · refine List.foldlRecOn (motive := fun u : State => wbit (u.reg (laneAddr x.lane 3)) 1 = true) l _ ?_
        fun u hu y _ => wbit_setFlagIf _ _ _ hu
      rw [reg_setFlagIf, if_pos ⟨hclip, rfl⟩, wbit, BitVec.getLsbD_or]
      exact Bool.or_true _
    · exact ih hl (by rw [State.setFlagIf_free]; exact hclip)

/-- A mutual slot past the first hc of its DFT window, every lane with POL = RESUME, at draw `n`; `lsp` says whether LSP replaces
lane 0. -/
def cutSlot (n : Nat) (lsp : Bool) : State := { State.reset with
  free := n
  regs := (List.range 17).map (fun k => (laneAddr k 0x16, 1))
  pw := { State.reset.pw with phase := .on }
  clk := { State.reset.clk with seen := true }
  ms := { State.reset.ms with mode := .active }
  scan := { State.reset.scan with slot := some (.regular 0), h := 2049 }
  dg := { State.reset.dg with serves := if lsp then some 0 else none } }

theorem cutSlot_resumePolicy (n : Nat) (lsp : Bool) : (cutSlot n lsp).resumePolicy = true := by
  have hfixed : ∀ lsp, (cutSlot 0 lsp).resumePolicy = true := by decide +kernel
  exact hfixed lsp

theorem cutSlot_lanes (n : Nat) : ((cutSlot n false).sensed (.regular 0) 0).map Sensed.lane = List.range 16 := rfl

theorem cutSlot_lsp (n : Nat) : 16 ∈ ((cutSlot n true).sensed (.regular 0) 0).map Sensed.lane := List.mem_cons_self

/-! The statement as a whole. Its clause on an abandoned slot lists no flag of a lane, while R143 leaves the CLIP of a window that
is cut to the free values of `Config.cutClip` (log entry 3). -/

theorem injectedSequence_of_noClip (hclip : ∀ n k, k < 17 → Config.cutClip n k = false) : Obligations.InjectedSequence := by
  refine ⟨fun h c s hidle => congrArg Host.Outcome.next (injTrigger_idle hidle),
    fun h c s hsrc hrun => ⟨fun hphase => ?_, fun hphase hwait => ?_, fun hphase hheld hbound hrest => ?_,
      fun e he hphase hheld hslot hrelock hruns => ?_⟩,
    fun s h => congrArg Host.Outcome.next (injRampEnd_idle h), fun s hphase hnow => ?_,
    fun s h => congrArg Host.Outcome.next (injDone_idle h), fun s hphase hnow => ?_⟩
  · obtain ⟨t, heq, ht⟩ := merged_spec hsrc hrun hphase
    exact ⟨t, congrArg Host.Outcome.next heq, ht⟩
  · exact ⟨_, congrArg Host.Outcome.next (injTrigger_held hsrc hrun hphase hwait), rfl, (reg_triggered s h c _).trans (if_pos rfl),
      fun a ha => (reg_triggered s h c a).trans (if_neg (by simpa using ha))⟩
  · obtain ⟨t, heq, ht, hflag, hlast, hkept⟩ := restTrigger_spec h c hrest
    exact ⟨t, congrArg Host.Outcome.next ((injTrigger_handled hsrc hrun hphase hheld hbound).trans heq), ht.phase, ht.first, ht.resume,
      ht.slot, ht.ends, hflag, hlast, hkept, ht.queue, ht.contacts⟩
  · refine ⟨fun hpol hmark => ?_, fun hwait => ?_⟩
    · obtain ⟨t, heq, ht, hflag, hcount, hlast, hkept⟩ :=
        injTrigger_abandons hsrc hrun he hphase hheld hslot hrelock hruns hpol hmark
      rw [cutClips_of_noClip hclip] at hkept
      refine ⟨t, congrArg Host.Outcome.next heq, ht.phase, ht.resume, ht.first, ht.slot, ht.ends, hflag, hcount, hlast,
        fun a ha => (hkept a ha).trans ?_, ht.queue, ht.contacts⟩
      exact (reg_triggered s h c a).trans (if_neg fun hlast => ha (by simp [hlast]))
    · obtain ⟨t, heq, ht⟩ := injTrigger_waits hsrc hrun he hphase hheld hslot hrelock hruns hwait
      exact ⟨t, congrArg Host.Outcome.next heq, ht⟩
  · have hstart := injRampEnd_due hphase hnow
    refine ⟨_, congrArg Host.Outcome.next hstart, ?_⟩
    rw [startSlot_now]
    exact ⟨rfl, rfl, rfl, rfl, rfl⟩
  · obtain ⟨t, heq, ht⟩ := injDone_spec hphase hnow
    exact ⟨t, congrArg Host.Outcome.next heq, ht⟩

/-- A host trigger abandons the slot of `cutSlot`. -/
theorem cutSlot_keepsClips (h : Obligations.InjectedSequence) (n : Nat) (lsp : Bool) {k : Nat} (hk : k < 17) :
    ((cutSlot n lsp).triggered true false).cutClips.reg (laneAddr k 3) = (cutSlot n lsp).reg (laneAddr k 3) := by
  obtain ⟨-, htrigger, -⟩ := h
  obtain ⟨-, -, -, hslot⟩ := htrigger true false (cutSlot n lsp) (.inl rfl) rfl
  obtain ⟨t, heq, -, -, -, -, -, -, -, -, hsame, -⟩ :=
    (hslot 0 (by decide) rfl rfl rfl rfl rfl).1 (cutSlot_resumePolicy n lsp) rfl
  obtain ⟨u, hstep, -, -, -, -, hkept⟩ := injTrigger_abandons (s := cutSlot n lsp) (host := true) (cloche := false) (e := 0)
    (.inl rfl) rfl (by decide) rfl rfl rfl rfl rfl (cutSlot_resumePolicy n lsp) rfl
  obtain rfl : u = t := hstep.symm.trans (Host.Outcome.next.inj heq)
  have hlane : laneAddr k 3 ∉ [0x210C, 0x2103, 0x210A] := by
    simp [laneAddr]
    omega
  exact (hkept _ hlane).symm.trans (hsame _ hlane)

theorem cutSlot_senses (n : Nat) {k : Nat} (hk : k < 17) : ∃ lsp, ∃ x ∈ (cutSlot n lsp).sensed (.regular 0) 0, x.lane = k := by
  rcases Nat.lt_or_ge k 16 with h | h
  · have hmem : k ∈ ((cutSlot n false).sensed (.regular 0) 0).map Sensed.lane := by
      rw [cutSlot_lanes]
      exact List.mem_range.2 h
    exact ⟨false, List.mem_map.1 hmem⟩
  · obtain rfl : k = 16 := by omega
    exact ⟨true, List.mem_map.1 (cutSlot_lsp n)⟩

/-- The statement holds exactly where no window that is cut has clipped, which only the free values decide. -/
theorem injectedSequence_iff_noClip : Obligations.InjectedSequence ↔ ∀ n k, k < 17 → Config.cutClip n k = false := by
  refine ⟨fun h n k hk => Bool.eq_false_iff.2 fun hclip => ?_, injectedSequence_of_noClip⟩
  obtain ⟨lsp, x, hx, rfl⟩ := cutSlot_senses n hk
  have hset : wbit (((cutSlot n lsp).triggered true false).cutClips.reg (laneAddr x.lane 3)) 1 = true :=
    clip_clipsOf (s := (cutSlot n lsp).triggered true false) hx hclip
  have hclear : ∀ j < 17, wbit ((cutSlot 0 false).reg (laneAddr j 3)) 1 = false := by decide +kernel
  rw [cutSlot_keepsClips h n lsp hk] at hset
  exact absurd ((hclear x.lane hk).symm.trans hset) (by decide)

end Machine
end Sys2Proof
end

section
/-! SUPPORT. SVCOEF.DATA: the halves of a coefficient, and the pairs of accesses that move it (R183, R199). -/

namespace Sys2Proof
namespace Machine

/-! A coefficient is stored (R183, R199). -/

theorem coefStore_beyond {s : State} (lo hi : Word) (h : 192 ≤ fld (s.reg 0x2308) 7 0) : s.coefStore lo hi = s := if_pos h

theorem coefStore_protected {s : State} (lo hi : Word) (hindex : fld (s.reg 0x2308) 7 0 < 192)
    (hp : s.bankProtected (fld (s.reg 0x2308) 8 8) = true) : s.coefStore lo hi = s.setFlag 0x23 0 :=
  (if_neg (Nat.not_le.2 hindex)).trans (if_pos hp)

/-- The coefficient that PTR addresses is `c`. -/
def State.coefSet (s : State) (c : Int) : State :=
  { s with sv := { s.sv with
      coef := s.sv.coef.set (fld (s.reg 0x2308) 8 8) ((s.sv.coef.getD (fld (s.reg 0x2308) 8 8) []).set (fld (s.reg 0x2308) 7 0) c) } }

theorem coefStore_open {s : State} (lo hi : Word) (hindex : fld (s.reg 0x2308) 7 0 < 192)
    (hp : s.bankProtected (fld (s.reg 0x2308) 8 8) = false) :
    s.coefStore lo hi = s.coefSet (signed 18 (lo.toNat + 65536 * (hi.toNat % 4))) :=
  (if_neg (Nat.not_le.2 hindex)).trans (if_neg (by simp [hp]))

/-- A store touches the coefficients and SVCOEF's flags alone. -/
theorem coefStore_frame (s : State) (lo hi : Word) : s.coefStore lo hi = { s with
      regs := (s.coefStore lo hi).regs, flagged := (s.coefStore lo hi).flagged
      sv := { s.sv with coef := (s.coefStore lo hi).sv.coef } } ∧
    s.regsKept (s.coefStore lo hi) [0x2303] := by
  rcases Nat.lt_or_ge (fld (s.reg 0x2308) 7 0) 192 with hindex | hindex
  · cases hp : s.bankProtected (fld (s.reg 0x2308) 8 8) with
    | true =>
      rw [coefStore_protected lo hi hindex hp]
      exact ⟨rfl, regsKept_setFlag s 0x23 0⟩
    | false =>
      rw [coefStore_open lo hi hindex hp]
      exact ⟨rfl, regsKept_refl s _⟩
  · rw [coefStore_beyond lo hi hindex]
    exact ⟨rfl, regsKept_refl s _⟩

/-! An access to SVCOEF.DATA, by the half that has gone before (R199). -/

/-- The pair is over. -/
def State.pairOver (s : State) : State := { s with sv := { s.sv with half := none } }

/-- A write completes the pair that a write began. -/
def State.coefWritten (s : State) (lo hi : Word) : State := (s.pairOver.coefStore lo hi).setReg 0x2308 (coefNext (s.reg 0x2308))

theorem hostWrite_coef {s : State} (h : s.takes 0x2309) (v : Word) : s.hostWrite 0x2309 v = s.coefWrite v :=
  written_eq_writeBlock (a := 0x2309) v h (fun hp => absurd hp (by decide)) (by decide)

theorem coefWrite_begins {s : State} (v : Word) (h : s.sv.half = none) :
    s.coefWrite v = { s with sv := { s.sv with half := some (true, v) } } := by
  unfold State.coefWrite
  rw [h]

theorem coefWrite_completes {s : State} {lo : Word} (v : Word) (h : s.sv.half = some (true, lo)) :
    s.coefWrite v = s.coefWritten lo v := by
  unfold State.coefWrite
  rw [h]
  rfl

theorem coefWrite_mixes {s : State} {lo : Word} (v : Word) (h : s.sv.half = some (false, lo)) :
    s.coefWrite v = s.pairOver.setFlag 0x23 1 := by
  unfold State.coefWrite
  rw [h]
  rfl

theorem hostRead_coef {s : State} (h : s.takes 0x2309) :
    s.hostRead 0x2309 = { s.coefRead.2 with link := { s.coefRead.2.link with rdata := s.coefRead.1 } } :=
  hostRead_of_takes (a := 0x2309) h

theorem coefRead_begins {s : State} (h : s.sv.half = none) :
    s.coefRead = (coefLow s.coefAt, { s with sv := { s.sv with half := some (false, 0) } }) := by
  unfold State.coefRead State.coefHalf
  rw [h]
  rfl

theorem coefRead_completes {s : State} {lo : Word} (h : s.sv.half = some (false, lo)) :
    s.coefRead = (coefHigh s.coefAt, s.pairOver.setReg 0x2308 (coefNext (s.reg 0x2308))) := by
  unfold State.coefRead State.coefHalf
  rw [h]
  rfl

theorem coefRead_mixes {s : State} {lo : Word} (h : s.sv.half = some (true, lo)) :
    s.coefRead = (coefHigh s.coefAt, s.pairOver.setFlag 0x23 1) := by
  unfold State.coefRead State.coefHalf
  rw [h]
  rfl

/-! What a pair of writes leaves (R183, R199). -/

theorem coefWritten_frame (s : State) (lo hi : Word) : s.coefWritten lo hi = { s with
      regs := (s.coefWritten lo hi).regs, flagged := (s.coefWritten lo hi).flagged
      sv := { s.sv with half := none, coef := (s.coefWritten lo hi).sv.coef } } ∧
    s.regsKept (s.coefWritten lo hi) [0x2303, 0x2308] := by
  obtain ⟨hframe, hkept⟩ := coefStore_frame s.pairOver lo hi
  have hword := regsKept_setReg (s.pairOver.coefStore lo hi) 0x2308 (coefNext (s.reg 0x2308))
  unfold State.coefWritten
  generalize s.pairOver.coefStore lo hi = u at hframe hkept hword
  exact ⟨by rw [hframe]; rfl, regsKept_trans (regsKept_mono hkept (by simp)) (regsKept_mono hword (by simp))⟩

theorem coefWritten_next (s : State) (lo hi : Word) : (s.coefWritten lo hi).reg 0x2308 = coefNext (s.reg 0x2308) :=
  (reg_setReg ..).trans (if_pos rfl)

theorem coefWritten_flags (s : State) (lo hi : Word) :
    (s.coefWritten lo hi).reg 0x2303 = (s.pairOver.coefStore lo hi).reg 0x2303 :=
  (reg_setReg ..).trans (if_neg (by decide))

/-- Settles O21: each access by the half that has gone before, a completed write by what `coefStore` finds. -/
theorem coefficientWindow : Obligations.CoefficientWindow := by
  intro v s ht
  have hwrite : exec (.svcoefDataAccess (some v)) s = .next (s.coefWrite v) := congrArg Host.Outcome.next (hostWrite_coef ht v)
  have hread : exec (.svcoefDataAccess none) s =
      .next { s.coefRead.2 with link := { s.coefRead.2.link with rdata := s.coefRead.1 } } :=
    congrArg Host.Outcome.next (hostRead_coef ht)
  have hflag : s.pairOver.regsKept (s.pairOver.setFlag 0x23 1) [0x2303] := regsKept_setFlag s.pairOver 0x23 1
  have hseq : (s.pairOver.setFlag 0x23 1).reg 0x2303 = s.reg 0x2303 ||| 2 := (reg_setFlag ..).trans (if_pos rfl)
  refine ⟨fun hhalf => ⟨?_, ?_⟩, fun lo hhalf => ?_, fun lo hhalf => ⟨?_, ?_⟩, fun lo hhalf => ?_⟩
  · rw [hwrite, coefWrite_begins v hhalf]
  · rw [hread, coefRead_begins hhalf]
  · obtain ⟨hframe, hkept⟩ := coefWritten_frame s lo v
    refine ⟨s.coefWritten lo v, by rw [hwrite, coefWrite_completes v hhalf], by rw [hframe], coefWritten_next s lo v, hframe, hkept,
      fun hp hindex => ?_, fun hp hindex => ?_, fun hindex => ?_⟩
    · have hstore := coefStore_protected (s := s.pairOver) lo v hindex hp
      rw [coefWritten_flags, State.coefWritten, hstore]
      exact ⟨rfl, (reg_setFlag ..).trans (if_pos rfl)⟩
    · have hstore := coefStore_open (s := s.pairOver) lo v hindex hp
      rw [coefWritten_flags, State.coefWritten, hstore]
      exact ⟨rfl, rfl⟩
    · have hstore := coefStore_beyond (s := s.pairOver) lo v hindex
      rw [coefWritten_flags, State.coefWritten, hstore]
      exact ⟨rfl, rfl⟩
  · rw [hread, coefRead_completes hhalf]
    exact ⟨_, rfl, rfl, rfl, (reg_setReg ..).trans (if_pos rfl), regsKept_setReg s.pairOver _ _⟩
  · rw [hwrite, coefWrite_mixes v hhalf]
    exact ⟨_, rfl, rfl, hseq, hflag⟩
  · rw [hread, coefRead_mixes hhalf]
    exact ⟨_, rfl, rfl, rfl, hseq, hflag⟩

end Machine
end Sys2Proof
end

section
/-! SUPPORT. A write to LANE.BLANK, and what the end of a pause leaves of the BLANK pin (R148 to R150, R377). -/

namespace Sys2Proof
namespace Machine

/-! The end of a pause leaves the effective level, the change under way and LANE.BLANK as they are. -/

/-- What the end of a pause leaves alone. -/
def State.pinPart (s : State) : Bool × Option (Nat × Bool × Bool) × Word × Queue × Trellis × ModeCtl × Link :=
  (s.scan.blkEff, s.scan.blkAt, s.reg 0x0608, s.rq, s.tr, s.ms, s.link)

theorem pinPart_startSlot (s : State) (k : SlotKind) : (s.startSlot k 0).pinPart = s.pinPart := by
  rw [startSlot_now]
  rfl

theorem scan_injStart (s : State) (t : Nat) (resume : Option Nat) : (s.injStart t resume).scan =
    { s.scan with slot := none, h := 0, lead := 0, paused := false, tailAt := none, rest := false } := by
  simp [State.injStart]

theorem pinPart_injStart (s : State) (resume : Option Nat) : (s.injStart s.now resume).pinPart = s.pinPart := by
  obtain ⟨u, heq, hframe, -⟩ := injStart_now s resume
  have hexit := exits_injStart s resume
  have hmode : (s.injStart s.now resume).ms = s.ms := ms_injStart ..
  have hlink : (s.injStart s.now resume).link = s.link := by
    rw [heq]
    show u.link = s.link
    rw [hframe]
  rw [State.pinPart, scan_injStart, reg_injStart, if_neg (by decide), hexit.queue, hexit.contacts, hmode, hlink]
  rfl

theorem pinPart_slotAgain (s : State) : s.slotAgain.pinPart = s.pinPart := by
  unfold State.slotAgain
  split
  · split
    · exact pinPart_injStart ..
    · exact pinPart_startSlot ..
  · exact pinPart_startSlot ..
  · rfl

theorem pinPart_emitCut (s : State) (k : SlotKind) (tag : Tag) (pause : Nat) : (s.emitCut k tag pause).pinPart = s.pinPart := by
  have hword := regsKept_emitCut s k tag pause 0x0608 (by decide)
  rw [State.pinPart, hword, emitCut_frame]
  rfl

theorem pinPart_endPause (s : State) : s.endPause.pinPart = s.pinPart := by
  unfold State.endPause
  split
  · rfl
  · dsimp only
    split
    · exact (pinPart_slotAgain _).trans (pinPart_emitCut ..)
    · rfl

/-! The effective level is deasserted (R149, R377). -/

theorem pinPart_turned (s : State) : (s.turned false).pinPart =
    (false, s.scan.blkAt, s.reg 0x0608, s.rq, s.tr, s.ms, s.link) := by
  rw [turned_frame]
  rfl

theorem pinPart_fallen (s : State) : s.fallen.pinPart = (false, s.scan.blkAt, s.reg 0x0608, s.rq, s.tr, s.ms, s.link) := by
  rw [← pinPart_turned]
  unfold State.fallen
  split
  · rfl
  split
  · exact pinPart_endPause _
  · rfl

/-- However it ends the pause, a deassertion leaves the change under way, LANE.BLANK and the link side alone. -/
theorem pinPart_blankOff (s : State) : s.blankOff.pinPart = (false, s.scan.blkAt, s.reg 0x0608, s.rq, s.tr, s.ms, s.link) := by
  cases he : s.scan.blkEff with
  | false => rw [blankOff_idle he, State.pinPart, he]
  | true =>
    rw [blankOff_falls he]
    split
    · exact pinPart_turned s
    · exact pinPart_fallen s

/-! A write to LANE.BLANK (R377). -/

/-- LANE.BLANK holds the fields of `v`. -/
def State.blankSet (s : State) (v : Word) : State := s.setReg 0x0608 (v &&& 0x3FF)

theorem reg_blankSet (s : State) (v : Word) : (s.blankSet v).reg 0x0608 = v &&& 0x3FF := (reg_setReg ..).trans (if_pos rfl)

/-- The fields EN and POL, taken as written. -/
theorem blankField (v : Word) {i : Nat} (h : i < 10) : (v &&& 0x3FF).getLsbD i = v.getLsbD i := by
  have hmask : (0x3FF : Word).getLsbD i = true := by interval_cases i <;> rfl
  rw [BitVec.getLsbD_and, hmask, Bool.and_true]

theorem hostWrite_blank {s : State} (h : s.takes 0x0608) (v : Word) :
    s.hostWrite 0x0608 v = (s.blankWrite v).blankSeen s.scan.blkEff :=
  written_eq_writeBlock (a := 0x0608) v h (fun hp => absurd hp (by decide)) (by decide)

/-- EN is cleared: the level is deasserted on this hc. -/
theorem blankWrite_clears {s : State} {v : Word} (h : v.getLsbD 0 = false) : s.blankWrite v = (s.blankSet v).blankCancel.blankOff :=
  if_pos (by rw [wbit, h]; rfl)

/-- EN is set, or POL changes: the deglitch follows. -/
theorem blankWrite_follows {s : State} {v : Word} (h : v.getLsbD 0 = true)
    (hnew : (s.reg 0x0608).getLsbD 0 = false ∨ (s.reg 0x0608).getLsbD 1 ≠ v.getLsbD 1) :
    s.blankWrite v = (s.blankSet v).blankFollow := by
  unfold State.blankWrite
  dsimp only
  rw [if_neg (by simp [wbit, h]), if_pos]
  · rfl
  · rcases hnew with hoff | hpol
    · rw [wbit, hoff]
      rfl
    · exact Bool.or_eq_true_iff.2 (.inr (bne_iff_ne.2 hpol))

/-- EN stays set and POL stays. -/
theorem blankWrite_stays {s : State} {v : Word} (h : v.getLsbD 0 = true) (he : (s.reg 0x0608).getLsbD 0 = true)
    (hpol : (s.reg 0x0608).getLsbD 1 = v.getLsbD 1) : s.blankWrite v = s.blankSet v := by
  unfold State.blankWrite
  dsimp only
  rw [if_neg (by simp [wbit, h]), if_neg]
  · rfl
  · simp only [wbit, he, hpol, Bool.not_true, bne_self_eq_false, Bool.or_self, Bool.false_eq_true, not_false_eq_true]

/-- With EN set, a write changes LANE.BLANK and the change under way. -/
theorem blankWrite_enabled (s : State) {v : Word} (h : v.getLsbD 0 = true) : ∃ b, s.blankWrite v = (s.blankSet v).deglitchAt b := by
  by_cases hnew : (s.reg 0x0608).getLsbD 0 = false ∨ (s.reg 0x0608).getLsbD 1 ≠ v.getLsbD 1
  · rw [blankWrite_follows h hnew]
    exact blankFollow_frame _
  · push Not at hnew
    obtain ⟨he, hpol⟩ := hnew
    exact ⟨s.scan.blkAt, blankWrite_stays h (by simpa using he) hpol⟩

/-- A change under way has been called off (R377). -/
theorem blankCancel_calledOff (s : State) : ∀ x, s.blankCancel.scan.blkAt = some x → x.2.2 = true := by
  intro x hx
  obtain ⟨c, -, rfl⟩ := Option.map_eq_some_iff.1 hx
  rfl

theorem pinPart_blankSeen (s : State) (was : Bool) : (s.blankSeen was).pinPart = s.pinPart := by
  obtain ⟨honly, hwords⟩ := blankSeen_spec s was
  rw [State.timersOnly] at honly
  rw [State.pinPart, hwords 0x0608 (by decide), honly]
  rfl

/-- EN is cleared (R377): the level, the change under way, LANE.BLANK, and what stays. -/
theorem pinPart_blankCleared (s : State) {v : Word} (h : v.getLsbD 0 = false) :
    ((s.blankWrite v).blankSeen s.scan.blkEff).pinPart =
      (false, (s.blankSet v).blankCancel.scan.blkAt, v &&& 0x3FF, s.rq, s.tr, s.ms, s.link) := by
  have hword : (s.blankSet v).blankCancel.reg 0x0608 = v &&& 0x3FF := reg_blankSet s v
  rw [pinPart_blankSeen, blankWrite_clears h, pinPart_blankOff, hword]
  rfl

/-- EN is set, or stays set (R377). -/
theorem blankEnabled_spec (s : State) {v : Word} (h : v.getLsbD 0 = true) : ∃ b,
    (s.blankWrite v).blankSeen s.scan.blkEff = (s.blankSet v).deglitchAt b ∧
    ((s.reg 0x0608).getLsbD 0 = false → s.sampled = true → s.scan.blkBall ≠ v.getLsbD 1 → s.scan.blkEff = false →
      s.blankGoing = false → b = some (s.now + s.deglitch, true, false)) ∧
    ((s.reg 0x0608).getLsbD 0 = true → (s.reg 0x0608).getLsbD 1 = v.getLsbD 1 → b = s.scan.blkAt) := by
  obtain ⟨b, hb⟩ := blankWrite_enabled s h
  have hat : (s.blankWrite v).scan.blkAt = b := by rw [hb]; rfl
  refine ⟨b, ?_, fun hoff hs hball heff hgoing => ?_, fun hon hpol => ?_⟩
  · rw [hb]
    exact blankSeen_same ((s.blankSet v).deglitchAt b)
  · have hen : ((s.blankSet v).reg 0x0608).getLsbD 0 = true := by rw [reg_blankSet, blankField v (by decide), h]
    have hraw : (s.blankSet v).blankRaw = true := by
      rw [State.blankRaw, reg_blankSet, wbit, blankField v (by decide)]
      exact bne_iff_ne.2 hball
    have hne : (s.blankSet v).blankRaw ≠ (s.blankSet v).scan.blkEff := by
      rw [hraw]
      exact fun heq => absurd (heq.trans heff) (by decide)
    rw [← hat, blankWrite_follows h (.inl hoff), blankFollow_starts (s := s.blankSet v) hs hen hne hgoing, hraw]
    rfl
  · rw [← hat, blankWrite_stays h hon hpol]
    rfl

end Machine
end Sys2Proof
end

section
/-! SUPPORT. VSYNC: its deglitch, the target an edge gives, and VLOST (R189 to R191, R377). -/

namespace Sys2Proof
namespace Machine

/-! The deglitch of VSYNC (R190). -/

theorem vsFollow_unsampled {s : State} (h : s.sampled = false) : s.vsFollow = s := if_pos (by simp [h])

theorem vsFollow_back {s : State} (hs : s.sampled = true) (h : s.scan.vsBall = s.scan.vsEff) :
    s.vsFollow = { s with scan := { s.scan with vsAt := none } } :=
  (if_neg (by simp [hs])).trans (if_pos h)

theorem vsFollow_starts {s : State} (hs : s.sampled = true) (h : s.scan.vsBall ≠ s.scan.vsEff) (hnone : s.scan.vsAt = none) :
    s.vsFollow = { s with scan := { s.scan with vsAt := some (s.now + s.deglitch, s.scan.vsBall != wbit (s.reg 0x220D) 0) } } :=
  ((if_neg (by simp [hs])).trans (if_neg h)).trans (if_neg (by simp [hnone]))

/-! VSYNC_EDGE, by what is due (log entry 70). -/

/-- The level at the VSYNC ball has changed. -/
def State.vsTurned (s : State) : State := { s with scan := { s.scan with vsBall := !s.scan.vsBall } }

theorem exec_vsyncEdge_ball {s : State} (h : s.vsDue = none) : exec .vsyncEdge s = .next s.vsTurned.vsFollow := by
  show execVsyncEdge s = _
  unfold execVsyncEdge
  rw [h]
  rfl

theorem exec_vsyncEdge_due {s : State} {edge : Bool} (h : s.vsDue = some edge) :
    exec .vsyncEdge s = .next (if edge then s.vsTake.countHc.vsyncOp else s.vsTake) := by
  show execVsyncEdge s = _
  unfold execVsyncEdge
  rw [h]

/-! Targets that are taken or discarded (R189, R191). -/

/-- `t` is `s` but for the targets and the flags and the count of those discarded; a flag that is set stays. -/
structure State.targetsOnly (s t : State) : Prop where
  frame : t = { s with regs := t.regs, flagged := t.flagged, sv := { t.sv with locked := s.sv.locked } }
  words : s.regsKept t [0x2203, 0x220F]
  flags : ∀ i, (s.reg 0x2203).getLsbD i = true → (t.reg 0x2203).getLsbD i = true

theorem State.targetsOnly.refl (s : State) : s.targetsOnly s := ⟨rfl, regsKept_refl s _, fun _ h => h⟩

theorem State.targetsOnly.trans {s t u : State} (h : s.targetsOnly t) (g : t.targetsOnly u) : s.targetsOnly u :=
  ⟨Eq.trans g.frame (by rw [h.frame]), regsKept_trans h.words g.words, fun i hi => g.flags i (h.flags i hi)⟩

theorem State.targetsOnly.locked {s t : State} (h : s.targetsOnly t) : t.sv.locked = s.sv.locked := by rw [h.frame]

theorem targetsOnly_dropTarget (s : State) (k : Nat) : s.targetsOnly (s.dropTarget k) where
  frame := rfl
  words := regsKept_trans (regsKept_mono (regsKept_setFlag s 0x22 k) (by simp))
    (regsKept_mono (regsKept_setReg (s.setFlag 0x22 k) 0x220F _) (by simp))
  flags i hi := by
    rw [State.dropTarget, reg_addSat, if_neg (by decide), reg_setFlag, if_pos rfl, BitVec.getLsbD_or, hi, Bool.true_or]

theorem takeTarget_spec (s : State) (h : List HistFrame) (t0 t : Int) :
    s.targetsOnly (s.takeTarget h t0 t) ∧ (s.takeTarget h t0 t).sv.lastTarget = s.sv.lastTarget := by
  unfold State.takeTarget
  split
  · exact ⟨.refl s, rfl⟩
  split
  · exact ⟨targetsOnly_dropTarget s 4, rfl⟩
  split
  · exact ⟨targetsOnly_dropTarget s 3, rfl⟩
  · exact ⟨⟨rfl, regsKept_refl s _, fun _ h => h⟩, rfl⟩

theorem targetsOnly_lastTarget (s : State) (t : Option Int) : s.targetsOnly { s with sv := { s.sv with lastTarget := t } } :=
  ⟨rfl, regsKept_refl s _, fun _ h => h⟩

theorem targetsOnly_freeRun (h : List HistFrame) (upTo : Int) (fuel : Nat) : ∀ s : State, s.targetsOnly (s.freeRun h upTo fuel) := by
  induction fuel with
  | zero => exact .refl
  | succ fuel ih =>
    intro s
    unfold State.freeRun
    split
    · dsimp only
      split
      · exact ((targetsOnly_lastTarget s _).trans (takeTarget_spec ..).1).trans (ih _)
      · exact .refl s
    · exact .refl s

/-! An edge's target (R189, R191). -/

/-- The targets that RPER has continued up to this hc while nothing was locked. -/
def State.ranOn (s : State) : State :=
  if !s.sv.locked && s.sv.lastTarget.isSome then
    s.freeRun (s.sv.hist.take 15) (32 * s.tb.hcpos) (freeFuel s (32 * s.tb.hcpos)) else s

/-- The targets follow VSYNC; LOCKED is set where they did not. -/
def State.vsLocked (s : State) : State := if s.sv.locked then s else State.setFlag { s with sv := { s.sv with locked := true } } 0x22 1

/-- The target `t` enters among the frames `left`. -/
def State.vsTarget (s : State) (left : List HistFrame) (t : Int) : State :=
  let s := { s with sv := { s.sv with lastTarget := some t } }
  match s.sv.first with
  | some t0 => s.takeTarget left t0 t
  | none => { s with sv := { s.sv with early := s.sv.early ++ [t] } }

/-- The target of a change at hcpos `v`, in hc (R189). -/
def State.targetAt (s : State) (v : Nat) : Int := (v : Int) - 16 * (s.reg 0x220C).toNat

/-- VLOST is timed from the target `t` alone. -/
def State.vlostTimed (s : State) (t : Int) : State :=
  (s.unschedule (fun i => decide (i = Instr.vlost))).after (s.vlostIn t) .vlost

theorem targetsOnly_ranOn (s : State) : s.targetsOnly s.ranOn := by
  unfold State.ranOn
  split
  · exact targetsOnly_freeRun ..
  · exact .refl s

theorem vsTarget_spec (s : State) (left : List HistFrame) (t : Int) :
    s.targetsOnly (s.vsTarget left t) ∧ (s.vsTarget left t).sv.lastTarget = some t := by
  have hlast := targetsOnly_lastTarget s (some t)
  unfold State.vsTarget
  dsimp only
  split
  · obtain ⟨htaken, heq⟩ := takeTarget_spec { s with sv := { s.sv with lastTarget := some t } } left ‹_› t
    exact ⟨hlast.trans htaken, heq⟩
  · exact ⟨⟨rfl, regsKept_refl s _, fun _ h => h⟩, rfl⟩

theorem vsLocked_spec (s : State) : s.vsLocked = { s with
      regs := s.vsLocked.regs, flagged := s.vsLocked.flagged, sv := { s.sv with locked := true } } ∧
    s.regsKept s.vsLocked [0x2203] ∧ (s.sv.locked = false → (s.vsLocked.reg 0x2203).getLsbD 1 = true) := by
  unfold State.vsLocked
  split
  · next h => exact ⟨by rw [← h], regsKept_refl s _, fun hf => absurd (h.symm.trans hf) (by decide)⟩
  · refine ⟨rfl, regsKept_setFlag { s with sv := { s.sv with locked := true } } 0x22 1, fun _ => ?_⟩
    rw [reg_setFlag, if_pos rfl, BitVec.getLsbD_or]
    exact Bool.or_true _

theorem vsyncTarget_off {s : State} (v : Nat) (h : s.rmode = false) : s.vsyncTarget v = s := if_pos (by simp [h])

theorem vsyncTarget_on {s : State} (v : Nat) (h : s.rmode = true) : s.vsyncTarget v =
    (s.ranOn.vsLocked.vsTarget (s.sv.hist.take 15) (32 * s.ranOn.vsLocked.targetAt v)).vlostTimed (32 * s.ranOn.vsLocked.targetAt v) := by
  unfold State.vsyncTarget
  rw [if_neg (by simp [h])]
  rfl

/-- What is left where an edge's target has been taken: the lock, the target, and the words. -/
theorem vsTaken_spec (s : State) (left : List HistFrame) (v : Nat) : ∃ u : State,
    s.ranOn.vsLocked.vsTarget left (32 * s.ranOn.vsLocked.targetAt v) = u ∧ s.ranOn.vsLocked.targetAt v = s.targetAt v ∧
    u = { s with regs := u.regs, flagged := u.flagged, sv := u.sv } ∧ s.regsKept u [0x2203, 0x220F] ∧
    u.sv.locked = true ∧ u.sv.lastTarget = some (32 * s.targetAt v) ∧ (s.sv.locked = false → (u.reg 0x2203).getLsbD 1 = true) := by
  have hran := targetsOnly_ranOn s
  obtain ⟨hframe, hkept, hflag⟩ := vsLocked_spec s.ranOn
  have hwords : s.regsKept s.ranOn.vsLocked [0x2203, 0x220F] := regsKept_trans hran.words (regsKept_mono hkept (by simp))
  have hlag : s.ranOn.vsLocked.targetAt v = s.targetAt v := by rw [State.targetAt, hwords 0x220C (by decide), State.targetAt]
  have hranFrame := hran.frame
  obtain ⟨htarget, hlast⟩ := vsTarget_spec s.ranOn.vsLocked left (32 * s.targetAt v)
  refine ⟨_, rfl, hlag, ?_⟩
  rw [hlag]
  have hlocked : s.ranOn.vsLocked.sv.locked = true := by rw [hframe]
  refine ⟨?_, regsKept_trans hwords htarget.words, htarget.locked.trans hlocked, hlast,
    fun hfree => htarget.flags 1 (hflag (hran.locked.trans hfree))⟩
  have htargetFrame := htarget.frame
  generalize s.ranOn.vsLocked.vsTarget left (32 * s.targetAt v) = u at htargetFrame
  rw [htargetFrame, hframe, hranFrame]

/-! VLOST (R189). -/

theorem roundDiv_mul (x : Int) : roundDiv (32 * x) 32 = x := by
  unfold roundDiv
  split <;> omega

theorem vlostIn_target (s : State) (w : Int) : s.vlostIn (32 * w) = (w + 4 * s.rper - s.tb.hcpos).toNat := by
  have h : 32 * w + 32 * 4 * (s.rper : Int) - 32 * s.tb.hcpos = 32 * (w + 4 * s.rper - s.tb.hcpos) := by ring
  rw [State.vlostIn, h, roundDiv_mul]

/-- VLOST stands in the agenda once. -/
theorem vlostTimed_agenda (s : State) (t : Int) : (s.now + s.vlostIn t, Instr.vlost) ∈ (s.vlostTimed t).agenda ∧
    ∀ h, (h, Instr.vlost) ∈ (s.vlostTimed t).agenda → h = s.now + s.vlostIn t := by
  have hagenda : (s.vlostTimed t).agenda =
      s.agenda.filter (fun e => !decide (e.2 = Instr.vlost)) ++ [(s.now + s.vlostIn t, Instr.vlost)] := rfl
  rw [hagenda]
  refine ⟨List.mem_append_right _ (List.mem_singleton.2 rfl), fun h hmem => ?_⟩
  rcases List.mem_append.1 hmem with hold | hnew
  · simp at hold
  · exact congrArg Prod.fst (List.mem_singleton.1 hnew)

/-- An edge's target in VSYNC mode, as the statement puts it (R189). -/
theorem vsyncTarget_spec {s : State} (v : Nat) (h : s.rmode = true) : ∃ t : State, s.vsyncTarget v = t ∧ t.sv.locked = true ∧
    t.sv.lastTarget = some (32 * s.targetAt v) ∧ (s.sv.locked = false → (t.reg 0x2203).getLsbD 1 = true) ∧
    (s.now + (s.targetAt v + 4 * s.rper - s.tb.hcpos).toNat, Instr.vlost) ∈ t.agenda ∧
    (∀ n, (n, Instr.vlost) ∈ t.agenda → n = s.now + (s.targetAt v + 4 * s.rper - s.tb.hcpos).toNat) ∧
    t = { s with regs := t.regs, flagged := t.flagged, sv := t.sv, agenda := t.agenda } ∧ s.regsKept t [0x2203, 0x220F] := by
  obtain ⟨u, hu, hlag, hframe, hwords, hlocked, hlast, hflag⟩ := vsTaken_spec s (s.sv.hist.take 15) v
  have htb : u.tb = s.tb := by rw [hframe]
  have hnow : u.now = s.now := by rw [hframe]
  have hrper : u.rper = s.rper := by
    rw [State.rper, wide_two, hwords _ (by decide), hwords _ (by decide), ← wide_two, State.rper]
  obtain ⟨hmem, honly⟩ := vlostTimed_agenda u (32 * s.targetAt v)
  rw [vlostIn_target, htb, hnow, hrper] at hmem honly
  refine ⟨u.vlostTimed (32 * s.targetAt v), by rw [vsyncTarget_on v h, hu, hlag], hlocked, hlast, hflag, hmem, honly, ?_, hwords⟩
  rw [State.vlostTimed]
  generalize u.vlostIn _ = n
  rw [hframe]
  rfl

theorem vsyncOp_unsampled {s : State} (h : s.sampled = false) : s.vsyncOp = s := if_neg (by simp [h])

theorem vsyncOp_sampled {s : State} (h : s.sampled = true) :
    s.vsyncOp = (s.timerSource 3 1).vsyncTarget (s.tb.hcpos - s.deglitch) := if_pos h

theorem timerSource_spec (s : State) (clk c : Nat) : s.timersOnly (s.timerSource clk c) ∧ s.regsKept (s.timerSource clk c) [0x2803] :=
  ⟨(timersOnly_countClk s clk).trans (timersOnly_timerEvent _ c),
    fun a ha => (reg_timerEvent _ c a).trans (regsKept_countClk s clk a ha)⟩

/-- An edge in VSYNC mode, which is an event of the timers besides (R189, R272). -/
theorem vsyncOp_spec {s : State} (hs : s.sampled = true) (hm : s.rmode = true) : ∃ (t : State) (w : Int), s.vsyncOp = t ∧
    t.sv.locked = true ∧ w = ((s.tb.hcpos - s.deglitch : Nat) : Int) - 16 * (s.reg 0x220C).toNat ∧
    t.sv.lastTarget = some (32 * w) ∧ (s.sv.locked = false → (t.reg 0x2203).getLsbD 1 = true) ∧
    (s.now + (w + 4 * s.rper - s.tb.hcpos).toNat, Instr.vlost) ∈ t.agenda ∧
    (∀ h, (h, Instr.vlost) ∈ t.agenda → h = s.now + (w + 4 * s.rper - s.tb.hcpos).toNat) ∧
    t = { s with regs := t.regs, flagged := t.flagged, tm := t.tm, sv := t.sv, agenda := t.agenda } ∧
    s.regsKept t [0x2803, 0x2203, 0x220F] := by
  obtain ⟨honly, hkept⟩ := timerSource_spec s 3 1
  rw [State.timersOnly] at honly
  rw [vsyncOp_sampled hs]
  generalize s.timerSource 3 1 = u at honly hkept
  have hmode : u.rmode = true := by rw [honly]; exact hm
  have htarget : u.targetAt (s.tb.hcpos - s.deglitch) = s.targetAt (s.tb.hcpos - s.deglitch) := by
    rw [State.targetAt, hkept _ (by decide), State.targetAt]
  have hrper : u.rper = s.rper := by rw [State.rper, wide_two, hkept _ (by decide), hkept _ (by decide), ← wide_two, State.rper]
  have htb : u.tb = s.tb := by rw [honly]
  have hnow : u.now = s.now := by rw [honly]
  have hsv : u.sv = s.sv := by rw [honly]
  obtain ⟨t, heq, hlocked, hlast, hflag, hmem, hall, hframe, hwords⟩ := vsyncTarget_spec (s.tb.hcpos - s.deglitch) hmode
  rw [htarget] at hlast hmem hall
  rw [hnow, hrper, htb] at hmem hall
  rw [hsv] at hflag
  have htm : t.tm = u.tm := by rw [hframe]
  exact ⟨t, _, heq, hlocked, rfl, hlast, hflag, hmem, hall, Eq.trans hframe (by rw [htm, honly]),
    regsKept_trans (regsKept_mono hkept (by simp)) (regsKept_mono hwords (by simp))⟩

theorem exec_vlost_timed {s : State} (h : ∃ e ∈ s.agenda, e.2 = Instr.vlost) : exec .vlost s = .next s := by
  obtain ⟨e, hmem, he⟩ := h
  exact congrArg Host.Outcome.next (if_pos (List.any_eq_true.2 ⟨e, hmem, decide_eq_true he⟩))

theorem exec_vlost_due {s : State} (h : ∀ e ∈ s.agenda, e.2 ≠ Instr.vlost) : exec .vlost s = .next s.vsyncLost := by
  refine congrArg Host.Outcome.next (if_neg fun hany => ?_)
  obtain ⟨e, hmem, he⟩ := List.any_eq_true.1 hany
  exact h e hmem (of_decide_eq_true he)

theorem vsyncLost_idle {s : State} (h : s.rmode = false ∨ s.sv.locked = false) : s.vsyncLost = s :=
  if_neg (by rcases h with h | h <;> simp [h])

theorem vsyncLost_unlocks {s : State} (hm : s.rmode = true) (hl : s.sv.locked = true) :
    s.vsyncLost = State.setFlag { s with sv := { s.sv with locked := false } } 0x22 2 := if_pos (by simp [hm, hl])

/-- VLOST does nothing while it is timed anew, in the other mode, or without a lock. -/
theorem exec_vlost_idle {s : State} (h : (∃ e ∈ s.agenda, e.2 = Instr.vlost) ∨ s.rmode = false ∨ s.sv.locked = false) :
    exec .vlost s = .next s := by
  by_cases htimed : ∃ e ∈ s.agenda, e.2 = Instr.vlost
  · exact exec_vlost_timed htimed
  · rw [exec_vlost_due fun e hmem he => htimed ⟨e, hmem, he⟩, vsyncLost_idle (h.resolve_left htimed)]

/-- Settles O50: a write to LANE.BLANK by EN, VSYNC_EDGE by what is due, an edge by `vsyncOp`, and VLOST by what it finds. -/
theorem blankWriteAndVsync : Obligations.BlankWriteAndVsync := by
  refine ⟨fun v s ht => ?blank, fun s hdue => ?ball, fun s hdue => exec_vsyncEdge_due hdue, fun s u hdue hu => ?edge,
    fun s => ⟨exec_vlost_idle, fun hnone hm hl => ?lost⟩⟩
  case blank =>
    have hbytes := hostWrite_bytesKept s 0x0608 v
    refine ⟨s.hostWrite 0x0608 v, rfl, ?_⟩
    rw [hostWrite_blank ht v] at hbytes ⊢
    cases hen : v.getLsbD 0 with
    | false =>
      have hpart := pinPart_blankCleared s hen
      simp only [State.pinPart, Prod.mk.injEq] at hpart
      obtain ⟨heff, hat, hword, hrq, htr, hms, hlink⟩ := hpart
      exact ⟨hword, fun _ => ⟨heff, by rw [hat]; exact blankCancel_calledOff _⟩, nofun, nofun, nofun, hrq, htr, hms, hlink, hbytes⟩
    | true =>
      obtain ⟨b, heq, hstarts, hstays⟩ := blankEnabled_spec s hen
      rw [heq] at hbytes ⊢
      refine ⟨reg_blankSet s v, nofun, fun _ => ⟨rfl, rfl⟩, fun _ => hstarts, fun _ hon hpol => ?_, rfl, rfl, rfl, rfl, hbytes⟩
      rw [hstays hon hpol]
      rfl
  case ball =>
    obtain ⟨a, hframe⟩ := vsFollow_frame s.vsTurned
    have hball : s.vsTurned.vsFollow.scan.vsBall = s.vsTurned.scan.vsBall := by rw [hframe]
    refine ⟨_, exec_vsyncEdge_ball hdue, hball, by rw [hframe]; rfl, fun hs => ?_, fun hs => ?_⟩
    · rw [vsFollow_unsampled (s := s.vsTurned) hs]
      rfl
    · rw [hball]
      refine ⟨fun hback => ?_, fun hne hnone => ?_⟩
      · rw [vsFollow_back (s := s.vsTurned) hs hback]
      · rw [vsFollow_starts (s := s.vsTurned) hs hne hnone]
        rfl
  case edge =>
    have hexec : exec .vsyncEdge s = .next u.vsyncOp := by rw [exec_vsyncEdge_due hdue, if_pos rfl, hu]
    have hnow : u.now = s.now := hu ▸ (holds_countHc s.vsTake).now
    rw [hexec, ← hnow]
    refine ⟨fun hs => by rw [vsyncOp_unsampled hs], fun hs hm => ?_, fun hs hm => ?_⟩
    · obtain ⟨honly, hkept⟩ := timerSource_spec u 3 1
      have hmode : (u.timerSource 3 1).rmode = false := by rw [honly]; exact hm
      exact ⟨_, by rw [vsyncOp_sampled hs, vsyncTarget_off _ hmode], honly, hkept⟩
    · obtain ⟨t, w, heq, hspec⟩ := vsyncOp_spec hs hm
      exact ⟨t, w, congrArg Host.Outcome.next heq, hspec⟩
  case lost =>
    exact ⟨_, (exec_vlost_due hnone).trans (congrArg Host.Outcome.next (vsyncLost_unlocks hm hl)), rfl,
      (reg_setFlag ..).trans (if_pos rfl), regsKept_setFlag { s with sv := { s.sv with locked := false } } 0x22 2⟩

end Machine
end Sys2Proof
end

section
/-! SUPPORT. A noise trip that is due, and the update of the water map (R203, R204, R209, R210). -/

namespace Sys2Proof
namespace Machine

/-! The trip (R203, R204). -/

theorem exec_ntrip_idle {s : State} (h : s.fires .ntrip = false ∨ s.cl.tripDue = false) : exec .ntrip s = .next s := by
  refine congrArg Host.Outcome.next ?_
  rcases h with h | h
  · exact if_neg (by simp [h])
  · rw [State.tripNow, h]
    exact ite_self _

/-- The trip is noted: it is no longer due, and NTRIP is set. -/
def State.tripped (s : State) : State := State.setFlag { s with cl := { s.cl with tripDue := false } } 0x24 0

theorem reg_tripped (s : State) (a : Nat) : s.tripped.reg a = if a = 0x2403 then s.reg a ||| 1 else s.reg a := reg_setFlag ..

theorem exec_ntrip_due {s : State} (hf : s.fires .ntrip = true) (hdue : s.cl.tripDue = true) : exec .ntrip s =
    .next (if (s.reg 0x2101).getLsbD 1 then s.tripped.injTrigger false true else s.tripped.replanSoon) := by
  have htrip : (s.tripped.reg 0x2101).getLsbD 1 = (s.reg 0x2101).getLsbD 1 := by rw [reg_tripped, if_neg (by decide)]
  have hop : s.tripNow = if (s.tripped.reg 0x2101).getLsbD 1 then s.tripped.injTrigger false true else s.tripped.replanSoon :=
    if_pos hdue
  rw [← htrip, ← hop]
  exact congrArg Host.Outcome.next (if_pos hf)

/-- The Cloche's state and its flags. -/
def State.clochePart (s : State) : Cloche × Word := (s.cl, s.reg 0x2403)

/-- A sequence that starts on this hc leaves the Cloche as it is (R166). -/
theorem clochePart_injStart {s : State} {t : Nat} (h : t = s.now) (resume : Option Nat) :
    (s.injStart t resume).clochePart = s.clochePart ∧ (s.injStart t resume).inj.phase ≠ .idle := by
  subst h
  have hcl : (s.injStart s.now resume).cl = s.cl := by
    obtain ⟨u, heq, hframe, -⟩ := injStart_now s resume
    have hu : u.cl = s.cl := by rw [hframe]
    rw [heq]
    exact hu
  rw [State.clochePart, hcl, reg_injStart, if_neg (by decide), State.clochePart, (exits_injStart s resume).phase]
  exact ⟨rfl, nofun⟩

theorem clochePart_noteInj (s : State) (e : Nat) (c d : Bool) : (s.noteInj e c d).clochePart = s.clochePart := by
  rw [State.clochePart, reg_noteInj, if_neg (by decide)]
  rfl

theorem clochePart_slotAbandoned (s : State) (e : Nat) : (s.slotAbandoned e).clochePart = s.clochePart := by
  have hcl : (s.slotAbandoned e).cl = s.cl := by rw [slotAbandoned_frame]
  rw [State.clochePart, hcl, reg_slotAbandoned, if_neg (by decide), if_neg (by decide), if_neg (by decide),
    regsKept_cutClips s _ (by decide), State.clochePart]

/-- A trigger that is handled leaves the Cloche as it is, and a sequence has begun or waits (R167 to R169). -/
theorem injHandle_spec (s : State) : s.injHandle.clochePart = s.clochePart ∧ s.injHandle.inj.phase ≠ .idle := by
  unfold State.injHandle
  split
  · next e hslot =>
    split
    · exact ⟨clochePart_noteInj .., nofun⟩
    split
    · have hnow : s.now = (s.slotAbandoned e).now := by rw [slotAbandoned_frame]
      obtain ⟨hpart, hstarts⟩ := clochePart_injStart hnow (some e)
      exact ⟨hpart.trans (clochePart_slotAbandoned s e), hstarts⟩
    · exact ⟨clochePart_noteInj .., nofun⟩
  · obtain ⟨hpart, hstarts⟩ := clochePart_injStart (s := s.noteInj 0 false true) (t := s.now) rfl none
    exact ⟨hpart.trans (clochePart_noteInj ..), hstarts⟩

/-- A trigger leaves the Cloche as it is; one that finds HCLK running starts a sequence or finds one (R165, R171). -/
theorem injTrigger_spec (s : State) : (s.injTrigger false true).clochePart = s.clochePart ∧
    ((s.injTrigger false true).inj.phase ≠ .idle ∨ s.hcDriven = false) := by
  cases hrun : s.hcDriven with
  | false =>
    rw [injTrigger_idle (.inr hrun)]
    exact ⟨rfl, .inr rfl⟩
  | true =>
    refine (and_congr_right' (or_iff_left nofun)).2 ?_
    by_cases hphase : s.inj.phase = .idle
    · rw [injTrigger_first (.inr rfl) hrun hphase]
      have hcl : (s.triggered false true).clochePart = s.clochePart := by
        rw [State.clochePart, reg_triggered, if_neg (by decide)]
        rfl
      split
      · exact ⟨hcl, nofun⟩
      · obtain ⟨hpart, hstarts⟩ := injHandle_spec (s.triggered false true)
        exact ⟨hpart.trans hcl, hstarts⟩
    · obtain ⟨t, ht, honly, -, -, hkept⟩ := merged_spec (cloche := true) (.inr rfl) hrun hphase
      rw [ht]
      have hcl : t.cl = s.cl := by rw [honly]
      have hinj : t.inj = s.inj := by rw [honly]
      rw [State.clochePart, hcl, hkept _ (by decide), hinj]
      exact ⟨rfl, hphase⟩

/-! WMAP: a bit for each zone (R210). -/

/-- The wet zones from the lowest on, as the binary digits of a number. -/
def wetBits : List Zone → Nat
  | [] => 0
  | z :: l => Nat.bit z.wet (wetBits l)

theorem sumNat_cons (a : Nat) (l : List Nat) : sumNat (a :: l) = a + sumNat l := by
  rw [sumNat, sumNat, ← List.sum_eq_foldl, ← List.sum_eq_foldl, List.sum_cons]

theorem sumNat_wet (l : List Zone) : ∀ k, sumNat ((l.zipIdx k).map (fun p => b2n p.1.wet * 2 ^ p.2)) = 2 ^ k * wetBits l := by
  induction l with
  | nil => exact fun k => rfl
  | cons z l ih =>
    intro k
    have hbit : b2n z.wet = z.wet.toNat := by cases z.wet <;> rfl
    rw [List.zipIdx_cons, List.map_cons, sumNat_cons, ih (k + 1), wetBits, Nat.bit_val, pow_succ, hbit]
    ring

theorem testBit_wetBits (l : List Zone) : ∀ i, (wetBits l).testBit i = (l[i]?.any (·.wet)) := by
  induction l with
  | nil => intro i; simp [wetBits]
  | cons z l ih =>
    intro i
    cases i with
    | zero => simp [wetBits]
    | succ i => simp [wetBits, Nat.testBit_bit_succ, ih]

theorem wetMap_eq (l : List Zone) : wetMap l = w16 (wetBits l) := by
  have hsum := sumNat_wet l 0
  rw [pow_zero, one_mul] at hsum
  exact congrArg w16 hsum

theorem wetMap_bit {l : List Zone} {i : Nat} {y : Zone} (hi : i < 16) (hy : l[i]? = some y) : (wetMap l).getLsbD i = y.wet := by
  rw [wetMap_eq, w16, BitVec.getLsbD_ofNat, testBit_wetBits, hy]
  simp [hi]

/-! The update (R210). -/

/-- A zone becomes wet. -/
def newlyWet (zs ys : List Zone) : Bool := (zs.zip ys).any (fun p => !p.1.wet && p.2.wet)

theorem newlyWet_iff (zs ys : List Zone) : newlyWet zs ys = true ↔
    ∃ (z : Nat) (x y : Zone), zs[z]? = some x ∧ ys[z]? = some y ∧ x.wet = false ∧ y.wet = true := by
  simp only [newlyWet, List.any_eq_true, Bool.and_eq_true, Bool.not_eq_true']
  constructor
  · rintro ⟨⟨x, y⟩, hmem, hx, hy⟩
    obtain ⟨z, hz⟩ := List.mem_iff_getElem?.1 hmem
    obtain ⟨hzx, hzy⟩ := List.getElem?_zip_eq_some.1 hz
    exact ⟨z, x, y, hzx, hzy, hx, hy⟩
  · rintro ⟨z, x, y, hzx, hzy, hx, hy⟩
    exact ⟨(x, y), List.mem_iff_getElem?.2 ⟨z, List.getElem?_zip_eq_some.2 ⟨hzx, hzy⟩⟩, hx, hy⟩

/-- The zones after the update, and their map with the flag of a newly wet one. -/
def State.zonesNext (s : State) : List Zone :=
  if s.waterOn && s.cl.guard then s.cl.zones.zipIdx.map (fun p => s.zoneStep p.2 p.1) else dryZones

def State.zonesShown (s : State) (zs : List Zone) : State :=
  (State.setReg { s with cl := { s.cl with zones := zs } } 0x2410 (wetMap zs)).setFlagIf (newlyWet s.cl.zones zs) 0x24 4

theorem waterUpdate_eq (s : State) : s.waterUpdate = (s.zonesShown s.zonesNext).spillEdge := rfl

theorem reg_zonesShown (s : State) (zs : List Zone) (a : Nat) : (s.zonesShown zs).reg a =
    if newlyWet s.cl.zones zs = true ∧ a = 0x2403 then s.reg a ||| 16 else if a = 0x2410 then wetMap zs else s.reg a := by
  rw [State.zonesShown, reg_setFlagIf, reg_setReg]
  by_cases h : newlyWet s.cl.zones zs = true ∧ a = 0x2403
  · rw [if_pos h, if_pos h, if_neg (by omega)]
    rfl
  · rw [if_neg h, if_neg h]
    rfl

/-- SPILL follows the wet zones, and its rise sets SPILLNEW (R210). -/
theorem spillEdge_spec (s : State) :
    s.spillEdge = { s with regs := s.spillEdge.regs, flagged := s.spillEdge.flagged, cl := { s.cl with spill := s.spillNow } } ∧
      s.spillEdge.reg 0x2403 = (if s.spillNow && !s.cl.spill then s.reg 0x2403 ||| 32 else s.reg 0x2403) ∧
      s.regsKept s.spillEdge [0x2403] := by
  unfold State.spillEdge
  by_cases h : s.spillNow = s.cl.spill
  · rw [if_pos h, h]
    exact ⟨rfl, by simp, regsKept_refl s _⟩
  · rw [if_neg h]
    have hrise : (s.spillNow && !s.cl.spill) = s.spillNow := by
      revert h
      cases s.spillNow <;> cases s.cl.spill <;> decide
    refine ⟨regsOnly_setFlagIf .., ?_, regsKept_setFlagIf { s with cl := { s.cl with spill := s.spillNow } } s.spillNow 0x24 5⟩
    rw [hrise]
    exact reg_setFlagIf_same ..

/-- What a wet zone count shows in STAT depends on. -/
theorem waterStat_congr {s t : State} (hwater : t.reg 0x2401 = s.reg 0x2401) (hlimit : t.reg 0x240E = s.reg 0x240E)
    (hforce : t.force = s.force) : t.waterOn = s.waterOn ∧ t.spillZones = s.spillZones :=
  ⟨by rw [State.waterOn, hwater, hforce, State.waterOn], by rw [State.spillZones, hlimit, State.spillZones]⟩

theorem waterUpdate_spec (s : State) :
    s.waterUpdate = { s with regs := s.waterUpdate.regs, flagged := s.waterUpdate.flagged
                             cl := { s.cl with zones := s.zonesNext, spill := s.waterUpdate.spillNow } } ∧
      s.regsKept s.waterUpdate [0x2410, 0x2403] ∧ s.waterUpdate.reg 0x2410 = wetMap s.zonesNext ∧
      s.waterUpdate.reg 0x2403 = s.reg 0x2403 ||| (if newlyWet s.cl.zones s.zonesNext then w16 (2 ^ 4) else 0) |||
        (if s.waterUpdate.spillNow && !s.cl.spill then w16 (2 ^ 5) else 0) ∧
      s.waterUpdate.waterOn = s.waterOn ∧ s.waterUpdate.spillZones = s.spillZones := by
  obtain ⟨u, hu⟩ : ∃ u, u = s.zonesShown s.zonesNext := ⟨_, rfl⟩
  have hshown : u = { s with regs := u.regs, flagged := u.flagged, cl := { s.cl with zones := s.zonesNext } } := by
    rw [hu]
    exact regsOnly_setFlagIf ..
  obtain ⟨hframe, hspill, hkept⟩ := spillEdge_spec u
  have hreg (a : Nat) : u.reg a = if newlyWet s.cl.zones s.zonesNext = true ∧ a = 0x2403 then s.reg a ||| 16
      else if a = 0x2410 then wetMap s.zonesNext else s.reg a := by
    rw [hu, reg_zonesShown]
  rw [waterUpdate_eq, ← hu]
  have hregs : s.regsKept u.spillEdge [0x2410, 0x2403] := fun a ha => by
    simp only [List.mem_cons, List.not_mem_nil, or_false, not_or] at ha
    rw [hkept a (by simpa using ha.2), hreg, if_neg fun h => ha.2 h.2, if_neg ha.1]
  have hforce : u.spillEdge.force = s.force := by rw [hframe, hshown]
  obtain ⟨hon, hlimit⟩ := waterStat_congr (hregs 0x2401 (by decide)) (hregs 0x240E (by decide)) hforce
  obtain ⟨hon', hlimit'⟩ := waterStat_congr (hkept 0x2401 (by decide)) (hkept 0x240E (by decide))
    (show u.spillEdge.force = u.force by rw [hframe])
  have hzones : u.spillEdge.cl.zones = u.cl.zones := by rw [hframe]
  have hnow : u.spillEdge.spillNow = u.spillNow := by
    rw [State.spillNow, hon', hlimit', State.wetCount, hzones, State.spillNow, State.wetCount]
  have hwas : u.cl.spill = s.cl.spill := by rw [hshown]
  refine ⟨?_, hregs, ?_, ?_, hon, hlimit⟩
  · rw [hnow, hframe, hshown]
  · rw [hkept _ (by decide), hreg, if_neg (by simp), if_pos rfl]
  · rw [hspill, hnow, hwas, hreg]
    simp only [and_true, if_neg (show ¬ 0x2403 = 0x2410 by decide)]
    cases newlyWet s.cl.zones s.zonesNext <;> cases u.spillNow && !s.cl.spill <;> simp [w16]

/-! One zone (R209, R210). -/

theorem zoneCand_iff (s : State) (z : Nat) : s.zoneCand z = true ↔ ((s.reg 0x240F).toNat : Rat) ≤ s.zoneMutual z ∧
    16 * s.zoneSelf z < (((s.reg 0x240E).toNat % 64 : Nat) : Rat) * s.zoneMutual z := by
  have hratio : fld (s.reg 0x240E) 5 0 = (s.reg 0x240E).toNat % 64 := by simp [fld]
  rw [State.zoneCand, Bool.and_eq_true, decide_eq_true_eq, decide_eq_true_eq, hratio]

theorem zoneStep_cand {s : State} {z : Nat} (x : Zone) (h : s.zoneCand z = true) :
    s.zoneStep z x = { cand := x.cand + 1, dry := 0, wet := x.wet || decide (2 ≤ x.cand + 1) } := if_pos h

theorem zoneStep_dry {s : State} {z : Nat} (x : Zone) (h : s.zoneCand z = false) :
    s.zoneStep z x = { cand := 0, dry := x.dry + 1, wet := x.wet && decide (x.dry + 1 < max 1 (fld (s.reg 0x240E) 15 11)) } :=
  if_neg (by simp [h])

theorem hold_eq (s : State) : fld (s.reg 0x240E) 15 11 = (s.reg 0x240E).toNat / 2048 := by
  have hlt := (s.reg 0x240E).isLt
  simp only [fld]
  omega

theorem spillZones_eq (s : State) : s.spillZones = max 1 (min 16 ((s.reg 0x240E).toNat / 64 % 32)) := rfl

theorem zonesNext_on {s : State} (hon : s.waterOn = true) (hguard : s.cl.guard = true) :
    s.zonesNext = s.cl.zones.zipIdx.map (fun p => s.zoneStep p.2 p.1) := if_pos (by simp [hon, hguard])

theorem zonesNext_off {s : State} (h : s.waterOn = false ∨ s.cl.guard = false) : s.zonesNext = dryZones :=
  if_neg (by rcases h with h | h <;> simp [h])

theorem zonesNext_getElem {s : State} (hon : s.waterOn = true) (hguard : s.cl.guard = true) {z : Nat} {x y : Zone}
    (hx : s.cl.zones[z]? = some x) (hy : s.zonesNext[z]? = some y) : y = s.zoneStep z x := by
  rw [zonesNext_on hon hguard, List.getElem?_map, List.getElem?_zipIdx, hx] at hy
  simpa using hy.symm

theorem wet_dryZones : ∀ z ∈ dryZones, z.wet = false := fun _ hz => (List.eq_of_mem_replicate hz) ▸ rfl

theorem newlyWet_dryZones (zs : List Zone) : newlyWet zs dryZones = false := by
  rw [Bool.eq_false_iff]
  intro h
  obtain ⟨z, x, y, -, hy, -, hwet⟩ := (newlyWet_iff ..).1 h
  rw [wet_dryZones y (List.mem_of_getElem? hy)] at hwet
  exact Bool.false_ne_true hwet

/-! STAT after the update (R210). -/

/-- The number of wet zones after the update. -/
def State.wetNext (s : State) : Nat := (s.zonesNext.filter (·.wet)).length

theorem waterUpdate_stat (s : State) :
    s.waterUpdate.spillNow = (s.waterOn && decide (s.spillZones ≤ s.wetNext)) ∧
      s.waterUpdate.dropNow = (s.waterOn && decide (1 ≤ s.wetNext) && decide (s.wetNext < s.spillZones)) := by
  obtain ⟨hframe, -, -, -, hon, hlimit⟩ := waterUpdate_spec s
  have hcount : s.waterUpdate.wetCount = s.wetNext := by rw [State.wetCount, hframe, State.wetNext]
  exact ⟨by rw [State.spillNow, hon, hlimit, hcount], by rw [State.dropNow, hon, hlimit, hcount]⟩

/-- A bit of a word after a flag that is set on a condition. -/
theorem bit_orIf (w : Word) (c : Bool) {i k : Nat} (hi : i < 16) :
    (w ||| (if c then w16 (2 ^ k) else 0)).getLsbD i = (w.getLsbD i || (c && decide (i = k))) := by
  cases c with
  | false => simp
  | true =>
    rw [if_pos rfl, BitVec.getLsbD_or, w16, BitVec.getLsbD_ofNat, Nat.testBit_two_pow, decide_eq_true hi, Bool.true_and, Bool.true_and]
    exact congrArg _ (decide_eq_decide.2 eq_comm)

/-- The flags of the Cloche after the update: a newly wet zone's and SPILLNEW. -/
theorem iflg_waterUpdate (s : State) {i : Nat} (hi : i < 16) : (s.waterUpdate.reg 0x2403).getLsbD i =
    ((s.reg 0x2403).getLsbD i || (newlyWet s.cl.zones s.zonesNext && decide (i = 4)) ||
      (s.waterUpdate.spillNow && !s.cl.spill && decide (i = 5))) := by
  obtain ⟨-, -, -, hflags, -⟩ := waterUpdate_spec s
  rw [hflags, bit_orIf _ _ hi, bit_orIf _ _ hi]

/-- One zone after the update, as a candidate or not (R209, R210). -/
theorem zonesNext_zone {s : State} (hon : s.waterOn = true) (hguard : s.cl.guard = true) {z : Nat} {x y : Zone}
    (hx : s.cl.zones[z]? = some x) (hy : s.zonesNext[z]? = some y) :
    (s.zoneCand z = true → y.cand = x.cand + 1 ∧ y.dry = 0 ∧ (y.wet = true ↔ x.wet = true ∨ 2 ≤ x.cand + 1)) ∧
      (s.zoneCand z = false → y.cand = 0 ∧ y.dry = x.dry + 1 ∧
        (y.wet = true ↔ x.wet = true ∧ x.dry + 1 < max 1 ((s.reg 0x240E).toNat / 2048))) := by
  have hstep := zonesNext_getElem hon hguard hx hy
  refine ⟨fun hc => ?_, fun hc => ?_⟩
  · rw [hstep, zoneStep_cand x hc]
    simp
  · rw [hstep, zoneStep_dry x hc, hold_eq]
    simp

/-- Settles O46: a trip that is due is noted and re-plans or triggers (`injTrigger_spec`); the update is `waterUpdate_spec`, zone
by zone `State.zoneStep`. -/
theorem noiseAndWater : Obligations.NoiseAndWater := by
  refine ⟨fun s h => exec_ntrip_idle h, fun s hf hdue hctrip => ?replan, fun s hf hdue hctrip => ?trigger, fun s hoff => ?off,
    fun s hon hguard => ?on⟩
  case replan =>
    have hexec := exec_ntrip_due hf hdue
    rw [hctrip] at hexec
    exact ⟨_, hexec, rfl, (reg_tripped ..).trans (if_pos rfl), regsKept_setFlag { s with cl := { s.cl with tripDue := false } } 0x24 0⟩
  case trigger =>
    have hexec := exec_ntrip_due hf hdue
    rw [hctrip] at hexec
    obtain ⟨hpart, hstarts⟩ := injTrigger_spec s.tripped
    obtain ⟨hcl, hflag⟩ := Prod.mk.inj hpart
    exact ⟨_, hexec, hcl, hflag.trans ((reg_tripped ..).trans (if_pos rfl)), hstarts⟩
  case off =>
    obtain ⟨hframe, hkept, hmap, hflags, hwater, -⟩ := waterUpdate_spec s
    obtain ⟨hspill, hdrop⟩ := waterUpdate_stat s
    have hzones := zonesNext_off hoff
    have hcount : s.wetNext = 0 := by rw [State.wetNext, hzones]; rfl
    have hlow : ¬ s.spillZones ≤ 0 := by rw [spillZones_eq]; omega
    have hspill0 : s.waterUpdate.spillNow = false := by rw [hspill, hcount, decide_eq_false hlow, Bool.and_false]
    have hflag : s.waterUpdate.reg 0x2403 = s.reg 0x2403 := by
      rw [hflags, hspill0, hzones, newlyWet_dryZones]
      simp
    refine ⟨_, rfl, by rw [hmap, hzones]; rfl, fun a ha => ?_, hspill0, by simp [hdrop, hcount], fun hnone => ?_, ?_, ?_⟩
    · by_cases ha' : a = 0x2403
      · rw [ha', hflag]
      · exact hkept a (by simpa [ha'] using ha)
    · rw [State.clocheStat, hwater, hnone]
      simp only [b2n]
      split <;> split <;> split <;> rfl
    · rw [hframe, hzones]
      exact wet_dryZones
    · rw [hspill0] at hframe
      rw [hframe]
  case on =>
    obtain ⟨hframe, hkept, hmap, hflags, hwater, -⟩ := waterUpdate_spec s
    obtain ⟨hspill, hdrop⟩ := waterUpdate_stat s
    have hzones : s.waterUpdate.cl.zones = s.zonesNext := by rw [hframe]
    have hspillIs : s.waterUpdate.cl.spill = s.waterUpdate.spillNow := by
      conv_lhs => rw [hframe]
    have hbit {i : Nat} (hi : i < 16) := iflg_waterUpdate s hi
    rw [hon] at hspill hdrop
    refine ⟨_, rfl, ?_, ?_, zoneCand_iff s, fun z x y hx hy => ?_, ?_, hspillIs.symm, ?_, ?_, ?_, hkept⟩
    · rw [hspillIs, hzones]
      exact hframe
    · rw [hzones, zonesNext_on hon hguard, List.length_map, List.length_zipIdx]
    · rw [hzones] at hy
      obtain ⟨hcand, hdry⟩ := zonesNext_zone hon hguard hx hy
      exact ⟨hcand, hdry, fun hz => by rw [hmap, wetMap_bit hz hy]⟩
    · rw [hbit (by decide), hzones, ← newlyWet_iff]
      simp
    · rw [hspillIs, hspill, hzones, spillZones_eq]
      exact decide_eq_true_iff
    · rw [hspillIs, hdrop, hspill, hzones, State.wetNext]
      simp
    · rw [hbit (by decide), hspillIs]
      simp

end Machine
end Sys2Proof
end

section
/-! SUPPORT. The snapshot of the queue's counters and the start of a replay (R242, R245). -/

namespace Sys2Proof
namespace Machine

/-! Values of two words, set one after the other (R93). -/

def State.setWides (s : State) (l : List (Nat × Nat)) : State := l.foldl (fun s e => s.setWide e.1 2 e.2) s

theorem regsOnly_setWides (l : List (Nat × Nat)) : ∀ s : State, s.regsOnly (s.setWides l) := by
  induction l with
  | nil => exact fun s => rfl
  | cons e l ih =>
    intro s
    have hhead := regsOnly_setWide s e.1 2 e.2
    have htail := ih (s.setWide e.1 2 e.2)
    rw [State.regsOnly] at hhead htail ⊢
    rw [State.setWides, List.foldl_cons, ← State.setWides, htail, hhead]

theorem reg_setWides {l : List (Nat × Nat)} {a : Nat} :
    ∀ {s : State}, (∀ e ∈ l, a ≠ pageOf e.1 * 256 + 2 ∧ ¬(e.1 ≤ a ∧ a < e.1 + 2)) → (s.setWides l).reg a = s.reg a := by
  induction l with
  | nil => exact fun _ => rfl
  | cons e l ih =>
    intro s h
    obtain ⟨hstat, hout⟩ := h e List.mem_cons_self
    rw [State.setWides, List.foldl_cons, ← State.setWides, ih fun f hf => h f (List.mem_cons_of_mem _ hf), reg_setWide hstat, if_neg hout]

/-- Values at rising addresses of one page stand beside each other. -/
theorem wide_setWides {p : Nat} {l : List (Nat × Nat)} (hord : l.Pairwise fun e f => e.1 + 2 ≤ f.1) :
    ∀ {s : State}, (∀ e ∈ l, pageOf e.1 = p ∧ p * 256 + 2 < e.1) → ∀ e ∈ l, (s.setWides l).wide e.1 2 = e.2 % 2 ^ 32 := by
  induction hord with
  | nil => exact fun _ e he => absurd he List.not_mem_nil
  | @cons f l hrise _ ih =>
    intro s hpage e he
    rw [State.setWides, List.foldl_cons, ← State.setWides]
    rcases List.mem_cons.1 he with rfl | he
    · obtain ⟨hp, hlow⟩ := hpage e List.mem_cons_self
      rw [wide_congr fun i hi => reg_setWides fun g hg => ?_]
      · exact wide_setWide (by rw [hp]; exact hlow)
      · have hpg := hpage g (List.mem_cons_of_mem _ hg)
        have hrg := hrise g hg
        rw [hpg.1]
        omega
    · exact ih (fun g hg => hpage g (List.mem_cons_of_mem _ hg)) e he

/-! The snapshot (R245). -/

/-- The counters of Table RQ-3 that a snapshot holds, each with its place. -/
def Queue.counters (q : Queue) : List (Nat × Nat) :=
  [(0x2612, q.cgrant), (0x2614, q.rsent), (0x2616, q.fscan), (0x2618, q.fcons), (0x261A, q.frep), (0x261C, q.fdisc)]

/-- The snapshot with COUT and SEQNEXT, before the counters and EPOCH. -/
def State.snapBegun (s : State) : State :=
  { s with rq := { s.rq with snapDue := false }, regs := (s.regs.set 0x2610 (w16 s.rq.cout)).set 0x2611 (w16 s.rq.seqNext) }

theorem snapshot_eq (s : State) : s.snapshot =
    (s.snapBegun.setWides s.rq.counters).setReg 0x261E ((s.snapBegun.setWides s.rq.counters).reg 0x000A) := by
  unfold State.snapshot State.setWides Queue.counters
  dsimp only [List.foldl_cons, List.foldl_nil]
  rfl

theorem reg_snapBegun (s : State) (a : Nat) : s.snapBegun.reg a =
    if a = 0x2611 then w16 s.rq.seqNext else if a = 0x2610 then w16 s.rq.cout else s.reg a :=
  (Regs.get_set ..).trans (if_congr Iff.rfl rfl (Regs.get_set ..))

theorem counters_page (q : Queue) : ∀ e ∈ q.counters, pageOf e.1 = 0x26 ∧ 0x26 * 256 + 2 < e.1 := by
  simp [Queue.counters, pageOf]

/-- Outside its own words a counter leaves all but LSTALE's. -/
theorem counters_out (q : Queue) {a : Nat} (h : a < 0x2612 ∨ 0x261E ≤ a) (hstat : a ≠ 0x2602) :
    ∀ e ∈ q.counters, a ≠ pageOf e.1 * 256 + 2 ∧ ¬(e.1 ≤ a ∧ a < e.1 + 2) := by
  simp only [Queue.counters, List.mem_cons, List.not_mem_nil, or_false, forall_eq_or_imp, forall_eq, pageOf]
  omega

theorem reg_snapshot_out (s : State) {a : Nat} (h : a < 0x2612 ∨ 0x261E < a) (hstat : a ≠ 0x2602) :
    s.snapshot.reg a = s.snapBegun.reg a := by
  rw [snapshot_eq, reg_setReg, if_neg (by omega), reg_setWides (counters_out s.rq (by omega) hstat)]

theorem wide_snapshot (s : State) : ∀ e ∈ s.rq.counters, s.snapshot.wide e.1 2 = e.2 % 2 ^ 32 := by
  intro e he
  have hrise : s.rq.counters.Pairwise fun e f => e.1 + 2 ≤ f.1 := by simp [Queue.counters]
  have htop : e.1 + 2 ≤ 0x261E := by
    revert e
    simp [Queue.counters]
  rw [← wide_setWides hrise (counters_page s.rq) e he, snapshot_eq]
  exact wide_congr fun i hi => (reg_setReg ..).trans (if_neg (by omega))

theorem snapshot_spec (s : State) :
    s.snapshot = { s with regs := s.snapshot.regs, flagged := s.snapshot.flagged, rq := { s.rq with snapDue := false } } ∧
      s.snapshot.reg 0x2610 = w16 s.rq.cout ∧ s.snapshot.reg 0x2611 = w16 s.rq.seqNext ∧ s.snapshot.reg 0x261E = s.reg 0x000A ∧
      ∀ a, s.snapshot.reg a ≠ s.reg a → 0x2610 ≤ a ∧ a ≤ 0x261E ∨ a = 0x2602 := by
  have honly := regsOnly_setWides s.rq.counters s.snapBegun
  rw [State.regsOnly] at honly
  refine ⟨?_, ?_, ?_, ?_, fun a hchanged => ?_⟩
  · obtain ⟨u, hu⟩ : ∃ u, u = s.snapBegun.setWides s.rq.counters := ⟨_, rfl⟩
    rw [← hu] at honly
    rw [snapshot_eq, ← hu, honly]
    rfl
  · rw [reg_snapshot_out s (by decide) (by decide), reg_snapBegun]
    rfl
  · rw [reg_snapshot_out s (by decide) (by decide), reg_snapBegun]
    rfl
  · rw [snapshot_eq, reg_setReg, if_pos rfl, reg_setWides (counters_out s.rq (by decide) (by decide)), reg_snapBegun]
    rfl
  · by_contra hout
    rw [reg_snapshot_out s (by omega) (by omega), reg_snapBegun, if_neg (by omega), if_neg (by omega)] at hchanged
    exact hchanged rfl

theorem exec_queueSnap {s : State} (h : s.takes 0x2601) : exec .queueSnap s = .next s.snapWrite :=
  congrArg Host.Outcome.next (hostWrite_ctrl (a := 0x2601) h rfl (by decide) 1)

/-! QUEUE.REPLAY (R242). -/

theorem exec_queueReplay {s : State} (h : s.takes 0x260A) (q : Word) : exec (.queueReplay q) s = .next (s.replayWrite q) :=
  congrArg Host.Outcome.next (written_eq_writeBlock (a := 0x260A) q h (fun hp => absurd hp (by decide)) (by decide))

/-- A retained copy of the current epoch has the SEQ. -/
def State.retains (s : State) (q : Word) : Prop := ∃ d ∈ s.rq.copies, d.seqWord = q ∧ d.epochWord = s.reg 0x000A

theorem retains_iff (s : State) (q : Word) :
    s.rq.copies.any (fun (d : DevFrame) => decide (d.seqWord = q) && decide (d.epochWord = s.reg 0x000A)) = true ↔ s.retains q := by
  simp [State.retains]

theorem replayWrite_starts {s : State} {q : Word} (h : s.retains q) :
    s.replayWrite q = { s with rq := { s.rq with replay := some (q.toNat, (s.reg 0x000A).toNat) } } :=
  if_pos ((retains_iff s q).2 h)

theorem replayWrite_lost {s : State} {q : Word} (h : ¬ s.retains q) :
    s.replayWrite q = State.setFlag { s with rq := { s.rq with replay := none } } 0x26 3 :=
  if_neg fun hany => h ((retains_iff s q).1 hany)

/-- Settles O24: a snapshot waits, or is taken at once (`snapshot_spec`); a replay starts where a copy is retained. -/
theorem snapshotAndReplay : Obligations.SnapshotAndReplay := by
  refine ⟨fun s ht hwaits => (exec_queueSnap ht).trans (congrArg Host.Outcome.next (if_pos hwaits)), fun s ht hnow => ?snap,
    fun q s ht => ⟨_, exec_queueReplay ht q, fun hkept => replayWrite_starts hkept, fun hnone => ?lost⟩⟩
  case snap =>
    have hsnap : s.snapWrite = s.snapshot := if_neg (by simp [hnow])
    obtain ⟨hframe, hcout, hseq, hepoch, hkept⟩ := snapshot_spec s
    have hwide := wide_snapshot s
    simp only [Queue.counters, List.mem_cons, List.not_mem_nil, or_false, forall_eq_or_imp, forall_eq] at hwide
    obtain ⟨hcgrant, hrsent, hfscan, hfcons, hfrep, hfdisc⟩ := hwide
    exact ⟨_, hsnap ▸ exec_queueSnap ht, hframe, hcout, hseq, hcgrant, hrsent, hfscan, hfcons, hfrep, hfdisc, hepoch, hkept,
      bytesKept_of_keeps (kept_State_snapshot (.refl s))⟩
  case lost =>
    have hlost : ¬ s.retains q := fun ⟨d, hd, hq, he⟩ => hnone d hd hq he
    obtain ⟨hframe, hflag, hregs⟩ := setFlag_spec { s with rq := { s.rq with replay := none } } 0x26 3
    rw [replayWrite_lost hlost]
    exact ⟨hframe, hflag, hregs⟩

end Machine
end Sys2Proof
end

section
/-! SUPPORT. The Scarecrow's cycles: what a look and the end of a cycle leave alone, and what follows them (R258 to R265). -/

namespace Sys2Proof
namespace Machine

/-! What the Scarecrow changes: its own state, its flags, and the words of BASE and LAST (Table SK-2). -/

def scareWords : List Nat := [0x2703, 0x2720, 0x2721, 0x2722, 0x2723, 0x2724, 0x2725, 0x2726, 0x2727]

theorem page_scareWords : ∀ a ∈ scareWords, pageOf a = 0x27 := by decide

/-- `t` differs from `s` in the Scarecrow and its words alone, and the Scarecrow runs as before. -/
structure State.scareOnly (s t : State) : Prop where
  frame : t = { s with regs := t.regs, flagged := t.flagged, sk := t.sk }
  kept : s.regsKept t scareWords
  running : t.sk.running = s.sk.running

theorem State.scareOnly.refl (s : State) : s.scareOnly s := ⟨rfl, regsKept_refl s _, rfl⟩

theorem State.scareOnly.trans {s t u : State} (h : s.scareOnly t) (g : t.scareOnly u) : s.scareOnly u :=
  ⟨by rw [g.frame, h.frame], regsKept_trans h.kept g.kept, g.running.trans h.running⟩

theorem State.scareOnly.ms {s t : State} (h : s.scareOnly t) : t.ms = s.ms := by rw [h.frame]
theorem State.scareOnly.link {s t : State} (h : s.scareOnly t) : t.link = s.link := by rw [h.frame]
theorem State.scareOnly.ft {s t : State} (h : s.scareOnly t) : t.ft = s.ft := by rw [h.frame]

theorem scareOnly_of_sk {s t : State} (h : t = { s with sk := t.sk }) (hr : t.sk.running = s.sk.running) : s.scareOnly t :=
  ⟨by rw [h], fun a _ => by rw [h]; rfl, hr⟩

theorem State.scareOnly.setGang {s t : State} (h : s.scareOnly t) (g : Nat) (x : Gang) : s.scareOnly (t.setGang g x) :=
  h.trans (scareOnly_of_sk rfl rfl)

theorem scareOnly_setFlag (s : State) (k : Nat) : s.scareOnly (s.setFlag 0x27 k) :=
  ⟨rfl, regsKept_mono (regsKept_setFlag s 0x27 k) (by simp [scareWords]), rfl⟩

theorem scareOnly_skShow (s : State) : s.scareOnly s.skShow ∧ s.skShow.sk = s.sk := by
  refine List.foldlRecOn (motive := fun t : State => s.scareOnly t ∧ t.sk = s.sk) _ _ ⟨.refl s, rfl⟩ fun t ⟨honly, hsk⟩ g hg => ?_
  have hg := List.mem_range.1 hg
  refine ⟨honly.trans ⟨rfl, fun a ha => ?_, rfl⟩, hsk⟩
  simp only [scareWords, List.mem_cons, List.not_mem_nil, or_false] at ha
  rw [reg_setReg, if_neg (by omega), reg_setReg, if_neg (by omega)]

/-! A look (R257, R260 to R264). -/

theorem scareOnly_tapTouch (s : State) (g t q : Nat) : s.scareOnly (s.tapTouch g t q) := by
  unfold State.tapTouch
  split
  · dsimp only
    split <;> exact scareOnly_of_sk rfl rfl
  · exact .refl s

theorem scareOnly_touch (s : State) (g q t : Nat) : s.scareOnly (s.touch g q t).1 := by
  have h : s.scareOnly (State.tapTouch { s with sk := { s.sk with qm := q } } g t q) := by
    refine .trans ?_ (scareOnly_tapTouch ..)
    exact scareOnly_of_sk rfl rfl
  unfold State.touch
  dsimp only
  split
  · exact h.trans (scareOnly_of_sk rfl rfl)
  · exact h

theorem scareOnly_release (s : State) (g t : Nat) : s.scareOnly (s.release g t).1 := by
  unfold State.release
  dsimp only
  split
  · split <;> exact scareOnly_of_sk rfl rfl
  · exact .refl s

theorem scareOnly_lidLook (s : State) (r : Int) : s.scareOnly (s.lidLook r).1 := by
  unfold State.lidLook
  split
  · exact .refl s
  · split
    · exact scareOnly_of_sk rfl rfl
    · split <;> exact scareOnly_of_sk rfl rfl

theorem scareOnly_relearn (s : State) (g bit : Nat) : s.scareOnly (s.relearn g bit) := by
  unfold State.relearn
  refine .trans ?_ (scareOnly_setFlag ..)
  dsimp only
  split_ifs <;> exact scareOnly_of_sk rfl rfl

theorem scareOnly_confirm (s : State) (g t : Nat) (qs : List Int) : s.scareOnly (s.confirm g t qs).1 := by
  unfold State.confirm
  dsimp only
  split
  · exact scareOnly_setFlag ..
  split
  · exact scareOnly_touch ..
  split
  · split
    · exact .refl s
    · refine .trans ?_ (scareOnly_lidLook ..)
      exact scareOnly_of_sk rfl rfl
  · exact scareOnly_setFlag ..

/-- A gang's look with a result, before its band is judged: LAST, and an open LID candidate (R264). -/
def State.gangSeen (s : State) (g : Nat) (r : Int) : State × Nat :=
  if g = 3 then (s.setGang g { s.gang g with last := r }).lidLook r else (s.setGang g { s.gang g with last := r }, 0)

theorem scareOnly_gangSeen (s : State) (g : Nat) (r : Int) : s.scareOnly (s.gangSeen g r).1 := by
  unfold State.gangSeen
  split
  · refine .trans ?_ (scareOnly_lidLook ..)
    exact scareOnly_of_sk rfl rfl
  · exact scareOnly_of_sk rfl rfl

/-- Looks that run directly after another: none, or the quarters of a gang for one purpose, which is no refresh. -/
def quartersFollow (l : List SkLook) : Prop := l = [] ∨ ∃ g u, u ≠ .refresh ∧ l = quarterLooks g u

/-- A look ends: it leaves `p.1`, and the looks that run next are no refresh. -/
structure State.lookEnds (s : State) (p : State × Nat × List SkLook) : Prop where
  only : s.scareOnly p.1
  next : quartersFollow p.2.2

theorem lookEnds_alone {s t : State} {w : Nat} (h : s.scareOnly t) : s.lookEnds (t, w, []) := ⟨h, .inl rfl⟩

theorem lookEnds_quarters {s t : State} {w g : Nat} {u : QuarterUse} (h : s.scareOnly t) (hu : u ≠ .refresh) :
    s.lookEnds (t, w, quarterLooks g u) := ⟨h, .inr ⟨g, u, hu, rfl⟩⟩

theorem gangResult_ends (s : State) (g t : Nat) (r : Int) : s.lookEnds (s.gangResult g t r) := by
  have hseen := scareOnly_gangSeen s g r
  unfold State.gangResult
  dsimp only
  rw [← State.gangSeen]
  split
  · exact lookEnds_quarters (((State.scareOnly.refl s).setGang ..).setGang ..) nofun
  split
  · split
    · exact lookEnds_alone ((hseen.setGang ..).trans (scareOnly_release ..))
    split
    · exact lookEnds_quarters (hseen.trans (scareOnly_relearn ..)) nofun
    · exact lookEnds_alone (hseen.setGang ..)
  · split
    · exact lookEnds_quarters (hseen.trans (scareOnly_relearn ..)) nofun
    split
    · exact lookEnds_quarters (hseen.setGang ..) nofun
    · exact lookEnds_alone (hseen.setGang ..)

theorem confirmEnd_ends (s : State) (g t : Nat) (qs : List Int) : s.lookEnds (s.confirmEnd g t qs) := by
  have h := scareOnly_confirm s g t qs
  unfold State.confirmEnd
  dsimp only
  split
  · exact lookEnds_quarters (h.trans (scareOnly_relearn ..)) nofun
  · exact lookEnds_alone h

theorem quarterLook_ends (s : State) (c : Cycle) (g q : Nat) (u : QuarterUse) : s.lookEnds (s.quarterLook c g q u) := by
  unfold State.quarterLook
  cases u with
  | confirm =>
    dsimp only
    split
    · exact confirmEnd_ends ..
    · exact lookEnds_alone (.refl s)
  | _ => exact lookEnds_alone ((State.scareOnly.refl s).setGang ..)

theorem gangLook_ends (s : State) (c : Cycle) (g : Nat) : s.lookEnds (s.gangLook c g) := by
  unfold State.gangLook
  dsimp only
  split
  · exact gangResult_ends ..
  · exact lookEnds_alone (.refl s)

theorem itemLook_ends (s : State) (c : Cycle) (i : SkLook) : s.lookEnds (s.itemLook c i) := by
  cases i with
  | gang g => exact gangLook_ends ..
  | quarter g q u => exact quarterLook_ends ..

/-- The looks that follow one are taken, whatever the gangs' bands (R258). -/
theorem lookSkipped_of_follows {l : List SkLook} {j : SkLook} (h : quartersFollow (j :: l)) (s : State) :
    s.lookSkipped j = false := by
  obtain h | ⟨g, u, hu, h⟩ := h
  · cases h
  · obtain ⟨rfl, -⟩ := List.cons.inj h
    cases u with
    | refresh => exact absurd rfl hu
    | _ => rfl

/-- In the entry pass no look recognizes a gesture (R260). -/
theorem itemLook_pass {s : State} (h : 0 < s.sk.passLeft) (c : Cycle) (i : SkLook) : (s.itemLook c i).2.1 = 0 := by
  cases i with
  | gang g =>
    have hresult (t : Nat) (r : Int) : (s.gangResult g t r).2.1 = 0 := by
      have hop : s.gangResult g t r = (_, 0, quarterLooks g .pass) := if_pos h
      rw [hop]
    have hlook : s.gangLook c g = if s.lookBursts g c.force (c.looks.getD g noLook) then
      s.gangResult g (c.start / 32) (s.burst g (c.looks.getD g noLook).burst) else (s, 0, []) := rfl
    rw [State.itemLook, hlook]
    split
    · exact hresult ..
    · rfl
  | quarter g q u =>
    cases u with
    | confirm =>
      have hlate : ¬ (q = 3 ∧ s.sk.passLeft = 0) := by omega
      have hop : s.itemLook c (.quarter g q .confirm) = (s, 0, []) := if_neg hlate
      rw [hop]
    | _ => rfl

/-! The end of a cycle (R258 to R260). -/

theorem skPeriod_ge (s : State) : 512 ≤ s.skPeriod := by
  unfold State.skPeriod
  dsimp only
  split <;> omega

theorem expire_spec (s : State) (t : Nat) :
    s.scareOnly (s.expire t) ∧ (s.expire t).sk.cyc = s.sk.cyc ∧ (s.expire t).sk.passLeft = s.sk.passLeft := by
  unfold State.expire
  dsimp only
  split_ifs <;> exact ⟨scareOnly_of_sk rfl rfl, rfl, rfl⟩

/-- A cycle that started at `start` is over: no look is left, and the next one starts at least a period later (R259). -/
structure State.cycleOver (s t : State) (start : Nat) : Prop where
  only : s.scareOnly t
  idle : t.sk.cyc = none
  later : start + 512 ≤ t.sk.cycleAt
  left : t.sk.passLeft = s.sk.passLeft - 1

theorem cycleEnd_spec {s : State} (hcyc : s.sk.cyc = none) (hpass : s.sk.passLeft = 0) (start t : Nat) :
    s.cycleOver (s.cycleEnd start t) start := by
  obtain ⟨honly, hsame, hleft⟩ := expire_spec s (start / 32)
  obtain ⟨v, f, q, hv, heq⟩ : ∃ v f q, start + 512 ≤ v ∧
      s.cycleEnd start t = { s.expire (start / 32) with sk := { (s.expire (start / 32)).sk with fast := f, quiet := q, cycleAt := v } } :=
    ⟨_, _, _, le_trans (Nat.add_le_add_left (skPeriod_ge _) _) (le_max_left ..), rfl⟩
  rw [heq]
  exact { only := honly.trans (scareOnly_of_sk rfl rfl), idle := hsame.trans hcyc, later := hv, left := by rw [hleft, hpass] }

/-- The baselines that the last cycle of the entry pass sets (R260). -/
def State.passBases (s : State) : State :=
  (List.range 4).foldl (fun s g =>
    if s.gangOn g then
      let x := s.gang g
      s.setGang g { x with base := roundDiv x.sum 8, qbase := x.qsum.map (fun v => roundDiv v 8) }
    else s) s

theorem passBases_spec (s : State) : s.scareOnly s.passBases ∧ s.passBases.sk.cyc = s.sk.cyc ∧ s.passBases.sk.passLeft = s.sk.passLeft := by
  refine List.foldlRecOn (motive := fun u : State => s.scareOnly u ∧ u.sk.cyc = s.sk.cyc ∧ u.sk.passLeft = s.sk.passLeft) _ _
    ⟨.refl s, rfl, rfl⟩ fun u ⟨honly, hcyc, hleft⟩ g _ => ?_
  dsimp only
  split
  · exact ⟨honly.trans (scareOnly_of_sk rfl rfl), hcyc, hleft⟩
  · exact ⟨honly, hcyc, hleft⟩

/-- A cycle of the entry pass is counted. -/
def State.passCounted (s : State) : State :=
  { s with sk := { s.sk with passLeft := s.sk.passLeft - 1, fast := decide (s.sk.passLeft - 1 ≠ 0), quiet := 0 } }

/-- After the last cycle of the entry pass the first refresh is timed and the baselines are set. -/
def State.passTaken (s : State) (t : Nat) : State :=
  if s.sk.passLeft - 1 ≠ 0 then s.passCounted
  else State.passBases { s.passCounted with sk := { s.passCounted.sk with refreshAt := t + s.passCounted.refreshStep } }

theorem passTaken_spec (s : State) (t : Nat) :
    s.scareOnly (s.passTaken t) ∧ (s.passTaken t).sk.cyc = s.sk.cyc ∧ (s.passTaken t).sk.passLeft = s.sk.passLeft - 1 := by
  unfold State.passTaken
  split
  · exact ⟨scareOnly_of_sk rfl rfl, rfl, rfl⟩
  · obtain ⟨honly, hcyc, hleft⟩ := passBases_spec
      { s.passCounted with sk := { s.passCounted.sk with refreshAt := t + s.passCounted.refreshStep } }
    refine ⟨.trans ?_ honly, hcyc, hleft⟩
    exact scareOnly_of_sk rfl rfl

theorem passEnd_spec {s : State} (hcyc : s.sk.cyc = none) (start t : Nat) : s.cycleOver (s.passEnd start t) start := by
  obtain ⟨honly, hsame, hleft⟩ := passTaken_spec s t
  obtain ⟨v, hv⟩ : ∃ v, v = max (start + (s.passTaken t).skPeriod) (tickerEdge t) := ⟨_, rfl⟩
  obtain ⟨hshow, hsk⟩ := scareOnly_skShow { s.passTaken t with sk := { (s.passTaken t).sk with cycleAt := v } }
  have heq : s.passEnd start t = State.skShow { s.passTaken t with sk := { (s.passTaken t).sk with cycleAt := v } } := by
    rw [hv]
    rfl
  have hlater : start + 512 ≤ v := hv ▸ le_trans (Nat.add_le_add_left (skPeriod_ge _) start) (le_max_left ..)
  rw [heq]
  refine ⟨honly.trans (.trans ?_ hshow), ?_, ?_, ?_⟩
  · exact scareOnly_of_sk rfl rfl
  · rw [hsk]
    exact hsame.trans hcyc
  · rw [hsk]
    exact hlater
  · rw [hsk]
    exact hleft

/-! The next look of a cycle, or its end (R258). -/

theorem skNext_nil (s : State) (c : Cycle) (t : Nat) : s.cycleOver (s.skNext c t []) c.start := by
  obtain ⟨u, hu⟩ : ∃ u, u = ({ s with sk := { s.sk with cyc := none } } : State) := ⟨_, rfl⟩
  have heq : s.skNext c t [] = if 0 < u.sk.passLeft then u.passEnd c.start t else u.cycleEnd c.start t := by rw [hu]; rfl
  have hcyc : u.sk.cyc = none := by rw [hu]
  have hstart : s.scareOnly u := by rw [hu]; exact scareOnly_of_sk rfl rfl
  have hleft : u.sk.passLeft = s.sk.passLeft := by rw [hu]
  have hover : u.cycleOver (s.skNext c t []) c.start := by
    rw [heq]
    split
    · exact passEnd_spec hcyc ..
    · exact cycleEnd_spec hcyc (by omega) ..
  exact { only := hstart.trans hover.only, idle := hover.idle, later := hover.later, left := by rw [hover.left, hleft] }

theorem skNext_cons {s : State} {i : SkLook} (h : s.lookSkipped i = false) (c : Cycle) (t : Nat) (rest : List SkLook) :
    s.skNext c t (i :: rest) =
      { s with sk := { s.sk with cyc := some { c with todo := i :: rest, began := t, ends := t + s.itemLen c i } } } := by
  rw [State.skNext, h]
  rfl

theorem scareOnly_skNext (c : Cycle) (t : Nat) (l : List SkLook) (s : State) : s.scareOnly (s.skNext c t l) := by
  induction l with
  | nil => exact (skNext_nil s c t).only
  | cons i rest ih =>
    rw [State.skNext]
    split
    · exact ih
    · exact scareOnly_of_sk rfl rfl

theorem lookLen_le_itemLen (s : State) (c : Cycle) (i : SkLook) : s.lookLen ≤ s.itemLen c i := by
  have hblock : s.lookLen ≤ s.skBlock := Nat.le_add_right ..
  cases i with
  | gang g =>
    rw [State.itemLen]
    split
    · exact hblock
    · exact le_rfl
  | quarter => exact hblock

theorem lookLen_congr {s t : State} (h : t.reg 0x2711 = s.reg 0x2711) : t.lookLen = s.lookLen := by
  rw [State.lookLen, h, State.lookLen]

/-! A cycle starts (R258 to R260). -/

/-- Every look of the cycle that starts is forced: a refresh is due, outside the entry pass (R259). -/
def State.refreshDue (s : State) : Bool := !decide (0 < s.sk.passLeft) && decide (s.sk.refreshAt ≤ s.sk.cycleAt)

theorem refreshDue_iff (s : State) : s.refreshDue = true ↔ s.sk.passLeft = 0 ∧ s.sk.refreshAt ≤ s.sk.cycleAt := by
  simp [State.refreshDue]

/-- STAT.FAST shows the schedule, and a refresh that is due is timed anew. -/
def State.cycleShown (s : State) : State :=
  let u := s.setReg 0x2702 (w16 (256 * b2n s.sk.fast))
  if s.refreshDue then
    { u with sk := { u.sk with
      refreshAt := u.sk.refreshAt + ((s.sk.cycleAt - u.sk.refreshAt) / u.refreshStep + 1) * u.refreshStep } }
  else u

theorem cycleShown_frame (s : State) : s.cycleShown =
    { s with regs := s.regs.set 0x2702 (w16 (256 * b2n s.sk.fast)), sk := { s.sk with refreshAt := s.cycleShown.sk.refreshAt } } := by
  unfold State.cycleShown
  dsimp only
  split <;> rfl

theorem reg_cycleShown (s : State) (a : Nat) : s.cycleShown.reg a = if a = 0x2702 then w16 (256 * b2n s.sk.fast) else s.reg a := by
  rw [cycleShown_frame]
  exact Regs.get_set ..

theorem refreshAt_kept {s : State} (h : 0 < s.sk.passLeft ∨ s.sk.cycleAt < s.sk.refreshAt) :
    s.cycleShown.sk.refreshAt = s.sk.refreshAt := by
  have hnot : ¬ s.refreshDue = true := by rw [refreshDue_iff]; omega
  unfold State.cycleShown
  dsimp only
  rw [if_neg hnot]
  rfl

/-- A refresh that is due moves on past the cycle, by whole steps (R259). -/
theorem refreshAt_later {s : State} (hpass : s.sk.passLeft = 0) (hdue : s.sk.refreshAt ≤ s.sk.cycleAt) :
    s.sk.cycleAt < s.cycleShown.sk.refreshAt := by
  obtain ⟨u, hu⟩ : ∃ u, u = s.setReg 0x2702 (w16 (256 * b2n s.sk.fast)) := ⟨_, rfl⟩
  have hstep : 0 < u.refreshStep := by
    have hunit : u.refreshStep = max 1 (u.reg 0x2713).toNat * 8192 := Nat.mul_assoc ..
    omega
  have hnext : s.cycleShown.sk.refreshAt =
      s.sk.refreshAt + ((s.sk.cycleAt - s.sk.refreshAt) / u.refreshStep + 1) * u.refreshStep := by
    unfold State.cycleShown
    dsimp only
    rw [if_pos ((refreshDue_iff s).2 ⟨hpass, hdue⟩), hu]
    rfl
  have hmore := Nat.lt_mul_of_div_lt (Nat.lt_add_one ((s.sk.cycleAt - s.sk.refreshAt) / u.refreshStep)) hstep
  rw [hnext]
  omega

/-- The looks of a cycle: those of the enabled gangs, in a refresh with their quarters (R258, R259). -/
def State.cycleLooks (s : State) : List SkLook :=
  ((List.range 4).filter s.gangOn).map SkLook.gang ++
    (if s.refreshDue then ((List.range 4).filter s.gangOn).flatMap (fun g => quarterLooks g .refresh) else [])

/-- A cycle as it starts. -/
def State.cycleNew (s : State) (l : List GangLook) : Cycle :=
  { start := s.sk.cycleAt, force := s.refreshDue, looks := l, todo := [], res := [], began := s.sk.cycleAt, ends := s.sk.cycleAt }

theorem skCycle_eq (s : State) (l : List GangLook) :
    s.skCycle l = s.cycleShown.skNext (s.cycleNew l) s.sk.cycleAt s.cycleLooks := by
  have hgangs : (s.setReg 0x2702 (w16 (256 * b2n s.sk.fast))).gangOn = s.gangOn := funext fun g => by
    have hctrl : (s.setReg 0x2702 (w16 (256 * b2n s.sk.fast))).reg 0x2701 = s.reg 0x2701 := (reg_setReg ..).trans (if_neg (by decide))
    rw [State.gangOn, hctrl]
    rfl
  unfold State.skCycle
  dsimp only
  rw [hgangs]
  rfl

theorem exec_scarecrowCycle {s : State} (l : List GangLook) (hdue : s.cycleDue = true) (hm : s.ms.mode = .dormant)
    (he : s.ms.exit = .none) : exec (.scarecrowCycle l) s = .next (s.skCycle l) :=
  congrArg Host.Outcome.next (if_pos (by simp [hdue, hm, he]))

theorem exec_scarecrowCycle_none {s : State} (l : List GangLook)
    (h : s.cycleDue = false ∨ s.ms.mode ≠ .dormant ∨ s.ms.exit ≠ .none) : exec (.scarecrowCycle l) s = .next s :=
  congrArg Host.Outcome.next (if_neg (by rcases h with h | h | h <;> simp [h]))

/-- With no gang enabled a cycle ends at once. -/
theorem cycleLooks_none {s : State} (h : (List.range 4).filter s.gangOn = []) : s.cycleLooks = [] := by
  rw [State.cycleLooks, h]
  exact ite_self _

/-- With a gang enabled a cycle begins with its look. -/
theorem skCycle_looks {s : State} (h : (List.range 4).filter s.gangOn ≠ []) (l : List GangLook) : ∃ e, s.sk.cycleAt + s.lookLen ≤ e ∧
    s.skCycle l = { s.cycleShown with sk := { s.cycleShown.sk with
      cyc := some { s.cycleNew l with todo := s.cycleLooks, ends := e } } } := by
  obtain ⟨g, rest, hlooks⟩ : ∃ g rest, s.cycleLooks = SkLook.gang g :: rest := by
    obtain ⟨g, gs, hg⟩ := List.exists_cons_of_ne_nil h
    exact ⟨g, _, by rw [State.cycleLooks, hg]; rfl⟩
  have hlen : s.cycleShown.lookLen = s.lookLen := lookLen_congr ((reg_cycleShown ..).trans (if_neg (by decide)))
  refine ⟨_, ?_, by rw [skCycle_eq, hlooks, skNext_cons rfl]; rfl⟩
  rw [← hlen]
  exact Nat.add_le_add_left (lookLen_le_itemLen ..) _

/-! A look ends (R258, R264, R265). -/

/-- The look in progress has ended: its results, with BASE and LAST as registers. -/
def State.lookShown (s : State) (c : Cycle) (i : SkLook) : State := (s.itemLook c i).1.skShow

theorem scareOnly_lookShown (s : State) (c : Cycle) (i : SkLook) : s.scareOnly (s.lookShown c i) :=
  (itemLook_ends s c i).only.trans (scareOnly_skShow _).1

theorem itemDone_wakes {s : State} {c : Cycle} {i : SkLook} {rest : List SkLook} (hc : s.sk.cyc = some c) (ht : c.todo = i :: rest)
    (hw : (s.itemLook c i).2.1 ≠ 0) : s.itemDone = (s.lookShown c i).itemWake (s.itemLook c i).2.1 := by
  simp only [State.itemDone, hc, ht]
  exact if_pos (.inl hw)

theorem itemDone_goes {s : State} {c : Cycle} {i : SkLook} {rest : List SkLook} (hc : s.sk.cyc = some c) (ht : c.todo = i :: rest)
    (hw : (s.itemLook c i).2.1 = 0) (hwake : s.ms.wake = false) :
    s.itemDone = (s.lookShown c i).skNext { c with res := s.itemRes c i } c.ends ((s.itemLook c i).2.2 ++ rest) := by
  have hshown : (s.lookShown c i).ms.wake = false := by rw [(scareOnly_lookShown s c i).ms, hwake]
  simp only [State.itemDone, hc, ht]
  exact if_neg (by
    rintro (h | h)
    · exact h hw
    · rw [State.lookShown] at hshown
      simp [hshown] at h)

/-- With no cycle left to keep, the first wake cause stops the Scarecrow (R265). -/
theorem wakeUp_stops {s : State} (hwake : s.ms.wake = false) (hcyc : s.sk.cyc = none) (mask : Nat) :
    (s.wakeUp mask).sk.cyc = none ∧ (s.wakeUp mask).sk.running = false := by
  have hkeep : s.sk.cyc.bind (fun x => if x.ends / 32 = s.ft / 32 then some { x with todo := x.todo.take 1 } else none) = none := by
    rw [hcyc]
    rfl
  unfold State.wakeUp
  rw [if_neg (by simp [hwake])]
  exact ⟨hkeep, rfl⟩

/-- Settles O52: a cycle starts with its first look, or ends at once (`skNext_nil`); a look that ends wakes the part
(`wakeUp_first`, `wakeUp_stops`), or the next one follows. -/
theorem scarecrowCycles : Obligations.ScarecrowCycles := by
  refine ⟨fun l s h => exec_scarecrowCycle_none l h, fun l s hdue hm he => ⟨_, exec_scarecrowCycle l hdue hm he, ?cycle⟩,
    fun s c i rest hc ht hwake => ⟨fun hpass => itemLook_pass hpass c i, fun hw => ?wakes, fun hw => ?goes⟩⟩
  case cycle =>
    have hnext := scareOnly_skNext (s.cycleNew l) s.sk.cycleAt s.cycleLooks s.cycleShown
    rw [← skCycle_eq] at hnext
    have hframe := cycleShown_frame s
    refine ⟨?_, fun a ha => ?_, ?_, ?_, fun hgangs => ?_, fun hgangs => ?_⟩
    · rw [hnext.frame, hframe]
    · rw [hnext.kept a fun hmem => ha (page_scareWords a hmem), reg_cycleShown, if_neg (by rintro rfl; exact ha rfl)]
    · rw [hnext.kept 0x2702 (by decide), reg_cycleShown, if_pos rfl]
    · rw [hnext.running, hframe]
    · obtain ⟨e, hend, heq⟩ := skCycle_looks hgangs l
      rw [heq]
      refine ⟨fun a ha => ?_, by rw [hframe], refreshAt_kept, refreshAt_later, _, rfl, rfl, rfl, rfl, hend, refreshDue_iff s, rfl⟩
      exact (reg_cycleShown s a).trans (if_neg (by simpa using ha))
    · have hover := skNext_nil s.cycleShown (s.cycleNew l) s.sk.cycleAt
      rw [← cycleLooks_none hgangs, ← skCycle_eq] at hover
      exact ⟨hover.idle, hover.later, by rw [hover.left, hframe]⟩
  case wakes =>
    have honly := scareOnly_lookShown s c i
    obtain ⟨u, hu⟩ : ∃ u, u = ({ s.lookShown c i with sk := { (s.lookShown c i).sk with
        cyc := none, tapStage := 0, swipeAt := none, lid := none } } : State) := ⟨_, rfl⟩
    have heq : s.itemDone = u.wakeUp (s.itemLook c i).2.1 := by
      rw [itemDone_wakes hc ht hw, hu]
      exact if_pos hw
    have hms : u.ms.wake = false := by rw [hu, ← hwake, ← honly.ms]
    have hft : u.ft = s.ft := by rw [hu, ← honly.ft]
    obtain ⟨hidle, hstopped⟩ := wakeUp_stops hms (by rw [hu]) (s.itemLook c i).2.1
    obtain ⟨out, quarter, sk, htaken⟩ := wakeUp_first (s.itemLook c i).2.1 hms
    obtain ⟨hparts, -⟩ := wakeTaken_parts u (s.itemLook c i).2.1 out quarter sk
    have hcause := reg_wakeTaken u (s.itemLook c i).2.1 out quarter sk 0x2728
    rw [← htaken, ← heq] at hparts hcause
    rw [← heq] at hidle hstopped
    exact ⟨by rw [hparts], by rw [hparts], by rw [hparts, hft], hcause, hidle, hstopped⟩
  case goes =>
    have honly := scareOnly_lookShown s c i
    have heq := itemDone_goes hc ht hw hwake
    have hall := honly.trans (scareOnly_skNext { c with res := s.itemRes c i } c.ends ((s.itemLook c i).2.2 ++ rest) (s.lookShown c i))
    rw [← heq] at hall
    refine ⟨hall.ms, hall.link, fun hnone hrest => ?_, fun j l hnext _ => ?_⟩
    · rw [hnone, hrest] at heq
      have hover := skNext_nil (s.lookShown c i) { c with res := s.itemRes c i } c.ends
      rw [heq]
      exact ⟨hover.idle, hover.later⟩
    · have hfollows : quartersFollow (j :: l) := hnext ▸ (itemLook_ends s c i).next
      have hlen : (s.lookShown c i).lookLen = s.lookLen := lookLen_congr (honly.kept _ (by decide))
      rw [hnext, List.cons_append, skNext_cons (lookSkipped_of_follows hfollows _)] at heq
      rw [heq]
      refine ⟨_, rfl, rfl, rfl, rfl, ?_⟩
      rw [← hlen]
      exact Nat.add_le_add_left (lookLen_le_itemLen ..) _

end Machine
end Sys2Proof
end

section
/-! SUPPORT. The control words of the timers: MODE, ARM and SWCAP of one timer, and SYNC of those selected (R269, R271, R272, R274, R275). -/

namespace Sys2Proof
namespace Machine

/-! A write to TCTRL, at its timer (R271, R272, R274). -/

/-- A timer after a write to TCTRL, before SWCAP: the mode, then ARM. -/
def Timer.moded (x : Timer) (v : Word) : Timer := if wbit v 11 then (x.setCtrl v).arm else x.setCtrl v

/-- What a write to TCTRL leaves of its timer: SWCAP reaches it where it is not frozen. -/
def Timer.taken (x : Timer) (frozen : Bool) (v : Word) : Timer :=
  if wbit v 12 && !(frozen && (x.moded v).frz) then (x.moded v).event 7 else x.moded v

theorem setTimer_setTimer (s : State) (n : Nat) (x y : Timer) : (s.setTimer n x).setTimer n y = s.setTimer n y :=
  congrArg (fun tm => { s with tm := tm }) (Vector.setIfInBounds_setIfInBounds ..)

theorem timerCtrl_eq (s : State) {n : Nat} (hn : n < 6) (v : Word) :
    s.timerCtrl n v = s.setTimer n ((s.timer n).taken s.frozenNow v) := by
  have hop : s.timerCtrl n v = if wbit v 12 then (s.setTimer n ((s.timer n).moded v)).swcap n
    else s.setTimer n ((s.timer n).moded v) := rfl
  rw [hop, Timer.taken]
  generalize (s.timer n).moded v = y
  have hself : (s.setTimer n y).timer n = y := by simp [hn]
  have hruns : (s.setTimer n y).timerRuns n = !(s.frozenNow && y.frz) := by
    rw [State.timerRuns, State.timerFrozen, hself]
    rfl
  rw [State.swcap, hruns, hself, setTimer_setTimer]
  cases wbit v 12 <;> cases s.frozenNow && y.frz <;> rfl

theorem hostWrite_tctrl {s : State} {n : Nat} (hn : n < 6) (h : s.takes (0x2810 + 16 * n)) (v : Word) :
    s.hostWrite (ctrlAddr n) v = s.setTimer n ((s.timer n).taken s.frozenNow v) := by
  have ha : (ctrlAddr n).toNat = 0x2810 + 16 * n := by simp only [ctrlAddr, w16, BitVec.toNat_ofNat]; omega
  have hplain : wideAt (0x2810 + 16 * n) = none ∧ offOf (0x2810 + 16 * n) ≥ 8 ∧ protectedWord (0x2810 + 16 * n) = false := by
    interval_cases n <;> decide
  obtain ⟨hw, ho, hp⟩ := hplain
  rw [hostWrite_of_takes (ha ▸ h), ha, writeWord_of_plain v h.mapped hw, writePlain_open v (.inr ho) (by simp [hp]),
    ← timerCtrl_eq s hn]
  exact writeBlock_timer (o := 0) v hn (by omega)

/-! MODE: the control word, and the start state of a new mode (R271). -/

theorem start_kept (x : Timer) : x.start.ctrl = x.ctrl ∧ x.start.sel = x.sel ∧ x.start.cap = x.cap ∧ x.start.perBuf = x.perBuf ∧
    x.start.period = x.period ∧ x.start.armed = false ∧ x.start.counting = false := by
  unfold Timer.start
  split <;> exact ⟨rfl, rfl, rfl, rfl, rfl, rfl, rfl⟩

theorem loadNow_eq (x : Timer) :
    x.loadNow = { x with period := if x.mode = 0 ∨ x.mode = 4 then x.perBuf else x.period } := by
  unfold Timer.loadNow
  split <;> rfl

/-- A timer whose control word was written, before its mode takes effect. -/
def Timer.recontrolled (x : Timer) (v : Word) : Timer := { x with ctrl := ctrlTaken x.ctrl v }

theorem setCtrl_of_mode_eq {x : Timer} {v : Word} (h : (x.recontrolled v).mode = x.mode) : x.setCtrl v = x.recontrolled v := if_pos h

theorem setCtrl_of_mode_ne {x : Timer} {v : Word} (h : (x.recontrolled v).mode ≠ x.mode) :
    x.setCtrl v = (x.recontrolled v).loadNow.start := if_neg h

theorem setCtrl_kept (x : Timer) (v : Word) : (x.setCtrl v).ctrl = ctrlTaken x.ctrl v ∧ (x.setCtrl v).perBuf = x.perBuf ∧
    (x.setCtrl v).cap = x.cap ∧ (x.setCtrl v).sel = x.sel := by
  by_cases h : (x.recontrolled v).mode = x.mode
  · rw [setCtrl_of_mode_eq h]
    exact ⟨rfl, rfl, rfl, rfl⟩
  · obtain ⟨hctrl, hsel, hcap, hper, -⟩ := start_kept (x.recontrolled v).loadNow
    rw [setCtrl_of_mode_ne h, hctrl, hsel, hcap, hper, loadNow_eq]
    exact ⟨rfl, rfl, rfl, rfl⟩

theorem moded_kept (x : Timer) (v : Word) : (x.moded v).ctrl = ctrlTaken x.ctrl v ∧ (x.moded v).perBuf = x.perBuf ∧
    (x.moded v).cap = x.cap ∧ (x.moded v).sel = x.sel := by
  have harm (y : Timer) : y.arm.ctrl = y.ctrl ∧ y.arm.perBuf = y.perBuf ∧ y.arm.cap = y.cap ∧ y.arm.sel = y.sel := by
    unfold Timer.arm
    split <;> exact ⟨rfl, rfl, rfl, rfl⟩
  unfold Timer.moded
  split
  · obtain ⟨hctrl, hper, hcap, hsel⟩ := harm (x.setCtrl v)
    rw [hctrl, hper, hcap, hsel]
    exact setCtrl_kept x v
  · exact setCtrl_kept x v

/-- An event changes neither the settings of a timer nor what it has captured. -/
theorem event_kept (x : Timer) (c : Nat) : (x.event c).ctrl = x.ctrl ∧ (x.event c).perBuf = x.perBuf ∧ (x.event c).cap = x.cap ∧
    (x.event c).sel = x.sel := by
  refine ⟨event_ctrl x c, ?_, ?_, ?_⟩
  · simp only [Timer.event, apply_ite Timer.perBuf, ite_self]
  · simp only [Timer.event, apply_ite Timer.cap, ite_self]
  · simp only [Timer.event, apply_ite Timer.sel, ite_self]

theorem taken_kept (x : Timer) (frozen : Bool) (v : Word) : (x.taken frozen v).ctrl = ctrlTaken x.ctrl v ∧
    (x.taken frozen v).perBuf = x.perBuf ∧ (x.taken frozen v).cap = x.cap ∧ (x.taken frozen v).sel = x.sel := by
  unfold Timer.taken
  split
  · obtain ⟨hctrl, hper, hcap, hsel⟩ := event_kept (x.moded v) 7
    rw [hctrl, hper, hcap, hsel]
    exact moded_kept x v
  · exact moded_kept x v

/-- A write without ARM and SWCAP sets the mode alone. -/
theorem taken_plain (x : Timer) (frozen : Bool) {v : Word} (harm : v.getLsbD 11 = false) (hcap : v.getLsbD 12 = false) :
    x.taken frozen v = x.setCtrl v := by
  rw [Timer.taken, Timer.moded, wbit, wbit, harm, hcap]
  rfl

/-- The start state by the mode that begins (Table TG-2). -/
theorem start_spec (x : Timer) : x.start.armed = false ∧ x.start.counting = false ∧ x.start.pre = 0 ∧
    (x.mode = 0 → x.start.count = x.count) ∧ (x.mode = 1 ∨ x.mode = 3 ∨ x.mode = 4 → x.start.count = 0) ∧
    (x.mode = 2 → x.start.count = x.p) ∧ (x.mode = 3 → x.start.down = false) := by
  unfold Timer.start
  split <;> simp_all

/-- A mode that changes takes its start state, Off and Measure with the buffered period (R271). -/
theorem setCtrl_starts {x : Timer} {v : Word} (h : (x.recontrolled v).mode ≠ x.mode) :
    (x.setCtrl v).armed = false ∧ (x.setCtrl v).counting = false ∧ (x.setCtrl v).pre = 0 ∧
      (x.setCtrl v).mode = (x.recontrolled v).mode ∧
      ((x.setCtrl v).mode = 0 → (x.setCtrl v).count = x.count ∧ (x.setCtrl v).period = x.perBuf) ∧
      ((x.setCtrl v).mode = 1 → (x.setCtrl v).count = 0 ∧ (x.setCtrl v).period = x.period) ∧
      ((x.setCtrl v).mode = 2 → (x.setCtrl v).count = x.p ∧ (x.setCtrl v).period = x.period) ∧
      ((x.setCtrl v).mode = 3 → (x.setCtrl v).count = 0 ∧ (x.setCtrl v).down = false ∧ (x.setCtrl v).period = x.period) ∧
      ((x.setCtrl v).mode = 4 → (x.setCtrl v).count = 0 ∧ (x.setCtrl v).period = x.perBuf) := by
  obtain ⟨u, hu⟩ : ∃ u, u = x.recontrolled v := ⟨_, rfl⟩
  have hload := loadNow_eq u
  have hmode : u.loadNow.mode = u.mode := by rw [hload]; rfl
  obtain ⟨hctrl, -, -, -, hperiod, -⟩ := start_kept u.loadNow
  obtain ⟨harmed, hcounting, hpre, hoff, hzero, hdown, hup⟩ := start_spec u.loadNow
  have hstart : u.loadNow.start.mode = u.mode := by rw [Timer.mode, hctrl]; exact hmode
  have hcount : u.loadNow.count = x.count := by rw [hload, hu]; rfl
  have hper : u.loadNow.period = if u.mode = 0 ∨ u.mode = 4 then x.perBuf else x.period := by rw [hload, hu]; rfl
  rw [setCtrl_of_mode_ne h, ← hu, hstart, hperiod, hper]
  rw [hmode] at hoff hzero hdown hup
  refine ⟨harmed, hcounting, hpre, rfl, fun hm => ⟨(hoff hm).trans hcount, if_pos (.inl hm)⟩,
    fun hm => ⟨hzero (.inl hm), if_neg (by omega)⟩, fun hm => ⟨?_, if_neg (by omega)⟩,
    fun hm => ⟨hzero (.inr (.inl hm)), hup hm, if_neg (by omega)⟩, fun hm => ⟨hzero (.inr (.inr hm)), if_pos (.inr hm)⟩⟩
  have hp : u.loadNow.period = x.period := hper.trans (if_neg (by omega))
  rw [hdown hm, Timer.p, hp, Timer.p]

/-! ARM and SWCAP write the control word back (R272, R274). -/

/-- The control word as the rows ARM and SWCAP write it: its own fields, and the bit of the row. -/
theorem ctrlTaken_self (c : Word) {b : Word} (hb : b = 0x0800 ∨ b = 0x1000) : ctrlTaken c ((c &&& 0x07FF) ||| b) = c &&& 0x07FF := by
  have hmask : b &&& 0x07FF = 0 := by rcases hb with rfl | rfl <;> decide
  have hfields : b &&& 0x07F8 = 0 := by rcases hb with rfl | rfl <;> decide
  have hlow : (c &&& 0x07FF &&& 0x07F8) ||| (c &&& 7) = c &&& 0x07FF := by
    rw [BitVec.and_assoc, ← BitVec.and_or_distrib_left]
    rfl
  rw [ctrlTaken, or_and_of_disjoint hmask, or_and_of_disjoint hfields, hlow, BitVec.and_assoc]
  exact ite_self _

/-- A timer whose control word is written back. -/
def Timer.rewritten (x : Timer) : Timer := { x with ctrl := x.ctrl &&& 0x07FF }

theorem mode_rewritten (x : Timer) : x.rewritten.mode = x.mode := by
  have hfield : (x.ctrl &&& 0x07FF).toNat % 2 ^ 11 = x.ctrl.toNat % 2 ^ 11 := by
    rw [BitVec.toNat_and]
    exact (congrArg (· % 2 ^ 11) (Nat.and_two_pow_sub_one_eq_mod x.ctrl.toNat 11)).trans (Nat.mod_mod ..)
  simp only [Timer.rewritten, Timer.mode, fld]
  omega

theorem frz_rewritten (x : Timer) : x.rewritten.frz = x.frz := by
  simp [Timer.rewritten, Timer.frz, wbit]

theorem setCtrl_self (x : Timer) {b : Word} (hb : b = 0x0800 ∨ b = 0x1000) : x.setCtrl ((x.ctrl &&& 0x07FF) ||| b) = x.rewritten := by
  have hself : x.recontrolled ((x.ctrl &&& 0x07FF) ||| b) = x.rewritten := by rw [Timer.recontrolled, ctrlTaken_self x.ctrl hb]; rfl
  rw [← hself]
  exact setCtrl_of_mode_eq (hself ▸ mode_rewritten x)

theorem taken_arm (x : Timer) (frozen : Bool) : x.taken frozen ((x.ctrl &&& 0x07FF) ||| 0x0800) = x.rewritten.arm := by
  have h11 : wbit ((x.ctrl &&& 0x07FF) ||| 0x0800) 11 = true := by simp [wbit]
  have h12 : wbit ((x.ctrl &&& 0x07FF) ||| 0x0800) 12 = false := by simp [wbit]
  rw [Timer.taken, Timer.moded, h11, h12, setCtrl_self x (.inl rfl)]
  rfl

theorem taken_swcap (x : Timer) (frozen : Bool) :
    x.taken frozen ((x.ctrl &&& 0x07FF) ||| 0x1000) = if frozen && x.frz then x.rewritten else x.rewritten.event 7 := by
  have h11 : wbit ((x.ctrl &&& 0x07FF) ||| 0x1000) 11 = false := by simp [wbit]
  have h12 : wbit ((x.ctrl &&& 0x07FF) ||| 0x1000) 12 = true := by simp [wbit]
  have hmoded : x.moded ((x.ctrl &&& 0x07FF) ||| 0x1000) = x.rewritten := by
    rw [Timer.moded, h11, setCtrl_self x (.inr rfl)]
    rfl
  rw [Timer.taken, h12, hmoded, frz_rewritten]
  cases frozen && x.frz <;> rfl

theorem arm_measure {x : Timer} (h : x.mode = 4) :
    x.arm = { x with count := 0, pre := 0, fresh := true, armed := true, counting := false } := if_pos h

theorem arm_other {x : Timer} (h : x.mode ≠ 4) : x.arm = x := if_neg h

/-- Event 7 at a timer that captures: a capture is requested where CSRC selects it (R272). -/
theorem event_captures {x : Timer} {c : Nat} (h1 : 1 ≤ c) (h8 : c ≤ 8) (hm : 1 ≤ x.mode) (hm' : x.mode ≤ 3) :
    x.event c = if x.csrc = c then { x with req := .capture } else x := by
  unfold Timer.event
  rw [if_neg (by omega), if_pos (by omega)]

/-- A timer that is off takes no event. -/
theorem event_off {x : Timer} (c : Nat) (hm : x.mode = 0) : x.event c = x := by
  simp [Timer.event, hm]

/-! SYNC (R271, R275). -/

/-- The first `k` timers are taken through: those selected that are not frozen start. -/
theorem syncFold_spec (s : State) (mask : Word) (k : Nat) (hk : k ≤ 6) :
    ∃ u : State, (List.range k).foldl (fun u n => if wbit mask n && u.timerRuns n then u.setTimer n (u.timer n).start else u) s = u ∧
      u = { s with tm := u.tm } ∧
      ∀ n, u.timer n = if n < k ∧ (wbit mask n && s.timerRuns n) = true then (s.timer n).start else s.timer n := by
  induction k with
  | zero => exact ⟨s, rfl, rfl, fun n => (if_neg (by omega)).symm⟩
  | succ k ih =>
    obtain ⟨u, hfold, hframe, htimers⟩ := ih (by omega)
    have hk' : u.timer k = s.timer k := (htimers k).trans (if_neg (by omega))
    have hruns : u.timerRuns k = s.timerRuns k := by
      have hfrozen : u.frozenNow = s.frozenNow := by rw [hframe]; rfl
      rw [State.timerRuns, State.timerFrozen, hk', hfrozen, State.timerRuns, State.timerFrozen]
    rw [List.range_succ, List.foldl_append, hfold, List.foldl_cons, List.foldl_nil, hruns, hk']
    by_cases hsel : (wbit mask k && s.timerRuns k) = true
    · refine ⟨_, if_pos hsel, by rw [hframe]; rfl, fun n => ?_⟩
      rw [timer_setTimer, htimers]
      by_cases hn : n = k
      · subst hn
        rw [if_pos ⟨rfl, by omega⟩, if_pos ⟨by omega, hsel⟩]
      · rw [if_neg fun h => hn h.1]
        exact if_congr (and_congr_left' (by omega)) rfl rfl
    · refine ⟨_, if_neg hsel, hframe, fun n => ?_⟩
      rw [htimers]
      by_cases hn : n = k
      · subst hn
        rw [if_neg (by omega), if_neg fun h => hsel h.2]
      · exact if_congr (and_congr_left' (by omega)) rfl rfl

theorem exec_timerSync {s : State} (h : s.takes 0x2801) (mask : Word) :
    exec (.timerSync mask) s = .next (s.syncTimers mask) :=
  congrArg Host.Outcome.next (hostWrite_ctrl (a := 0x2801) h rfl (by decide) mask)

theorem syncTimers_spec (s : State) (mask : Word) : s.syncTimers mask = { s with tm := (s.syncTimers mask).tm } ∧
    ∀ n, n < 6 → (s.syncTimers mask).timer n =
      if mask.getLsbD n = true ∧ s.timerFrozen n = false then (s.timer n).start else s.timer n := by
  obtain ⟨u, hfold, hframe, htimers⟩ := syncFold_spec s mask 6 le_rfl
  have hu : s.syncTimers mask = u := hfold
  refine ⟨hu ▸ hframe, fun n hn => ?_⟩
  rw [hu, htimers]
  exact if_congr (by simp [hn, wbit, State.timerRuns]) rfl rfl

/-- Settles O53: the rows of TCTRL write one timer (`hostWrite_tctrl`), by MODE, ARM or SWCAP, and SYNC starts the timers that it
selects. -/
theorem timerControl : Obligations.TimerControl := by
  refine ⟨fun n v s hn => ?_, fun n v s hn ht => ?mode, fun mask s ht => ?sync, fun n s hn ht => ?arm, fun n s hn ht => ?swcap⟩
  · have hnone : ¬ n < 6 := by omega
    exact ⟨congrArg Host.Outcome.next (if_neg hnone), congrArg Host.Outcome.next (if_neg hnone), congrArg Host.Outcome.next (if_neg hnone)⟩
  case mode =>
    obtain ⟨hframe, hself, hothers⟩ := setTimer_spec s ((s.timer n).taken s.frozenNow v) hn
    obtain ⟨hctrl, hper, hcap, hsel⟩ := taken_kept (s.timer n) s.frozenNow v
    have hfield : fld v 2 0 = v.toNat % 8 := by simp [fld]
    refine ⟨_, congrArg Host.Outcome.next ((if_pos hn).trans (hostWrite_tctrl hn ht v)), hframe, hothers, ?_⟩
    rw [hself]
    refine ⟨fun hm => ?_, fun hm => ?_, hper, hcap, hsel, fun h11 h12 => ?_⟩
    · rw [hctrl, ctrlTaken, hfield, if_neg (by omega)]
    · rw [hctrl, ctrlTaken, hfield, if_pos hm]
    rw [taken_plain _ _ h11 h12]
    by_cases hsame : ((s.timer n).recontrolled v).mode = (s.timer n).mode
    · rw [setCtrl_of_mode_eq hsame]
      exact ⟨fun _ => rfl, fun hne => absurd hsame hne⟩
    · obtain ⟨harmed, hcounting, hpre, hmode, hstart⟩ := setCtrl_starts hsame
      exact ⟨fun heq => absurd (hmode ▸ heq) hsame, fun _ => ⟨harmed, hcounting, hpre, hstart⟩⟩
  case sync =>
    obtain ⟨hframe, htimers⟩ := syncTimers_spec s mask
    refine ⟨_, exec_timerSync ht mask, hframe, fun n hn => ⟨fun hnot => ?_, fun hm hf => ?_⟩⟩
    · exact (htimers n hn).trans (if_neg (by rcases hnot with h | h <;> simp [h]))
    · obtain ⟨hctrl, -, -, -, hperiod, -⟩ := start_kept (s.timer n)
      obtain ⟨harmed, hcounting, -, hoff, hzero, hload, hup⟩ := start_spec (s.timer n)
      rw [htimers n hn, if_pos ⟨hm, hf⟩]
      exact ⟨hctrl, hperiod, hzero, hload, hoff, hup, harmed, hcounting⟩
  case arm =>
    obtain ⟨hframe, hself, hothers⟩ := setTimer_spec s (s.timer n).rewritten.arm hn
    have hwrite := hostWrite_tctrl hn ht (((s.timer n).ctrl &&& 0x07FF) ||| 0x0800)
    rw [taken_arm] at hwrite
    refine ⟨_, congrArg Host.Outcome.next ((if_pos hn).trans hwrite), hframe, hothers, ?_⟩
    rw [hself]
    by_cases hm : (s.timer n).mode = 4
    · rw [arm_measure ((mode_rewritten _).trans hm)]
      exact ⟨rfl, fun _ => ⟨rfl, rfl, rfl, rfl, rfl⟩, fun hne => absurd hm hne⟩
    · rw [arm_other fun h => hm ((mode_rewritten _).symm.trans h)]
      exact ⟨rfl, fun h => absurd h hm, fun _ => rfl⟩
  case swcap =>
    obtain ⟨hframe, hself, hothers⟩ := setTimer_spec s
      ((s.timer n).taken s.frozenNow (((s.timer n).ctrl &&& 0x07FF) ||| 0x1000)) hn
    refine ⟨_, congrArg Host.Outcome.next ((if_pos hn).trans (hostWrite_tctrl hn ht _)), hframe, hothers, ?_⟩
    rw [hself, taken_swcap]
    cases hf : s.timerFrozen n with
    | true =>
      have hstands : (s.frozenNow && (s.timer n).frz) = true := hf
      rw [if_pos hstands]
      exact ⟨rfl, rfl, fun _ => rfl, nofun, nofun, nofun⟩
    | false =>
      have hruns : ¬ (s.frozenNow && (s.timer n).frz) = true := Bool.eq_false_iff.1 hf
      have hmode := mode_rewritten (s.timer n)
      obtain ⟨hctrl, -, hcap, -⟩ := event_kept (s.timer n).rewritten 7
      rw [if_neg hruns]
      refine ⟨hctrl, hcap, fun hoff => event_off 7 (hmode.trans (hoff.resolve_left nofun)), fun _ h1 h3 => ?_, fun _ hm ha hc hs => ?_,
        fun _ hm ha hc hs => ?_⟩
      · rw [event_captures (by omega) (by omega) (by omega) (by omega)]
        split
        · next hs => exact ⟨rfl, fun _ => rfl, fun hne => absurd hs hne⟩
        · next hs => exact ⟨rfl, fun h => absurd h hs, fun _ => rfl⟩
      · rw [event_start (by omega) (by omega) (hmode.trans hm) ha hc hs]
        exact ⟨rfl, rfl, ha⟩
      · rw [event_stop (by omega) (by omega) (hmode.trans hm) ha hc hs]
        exact ⟨rfl, rfl, rfl, rfl, rfl⟩

end Machine
end Sys2Proof
end

section
/-! SUPPORT. The end of a SAVE: the read-back of the bank just written (R325). -/

namespace Sys2Proof
namespace Machine

/-- The Shed after the read-back of bank `x`, before a good bank takes effect. -/
def Shed.checked (h : Shed) (x : Nat) : Shed :=
  { h with saving := none, readback := false, aok := if x = 0 then h.bankOk x else h.aok, bok := if x = 1 then h.bankOk x else h.bok }

/-- The bank that passed its check in force, with its SEQ. -/
def State.bankTaken (s : State) (x : Nat) : State :=
  State.setReg { s with sh := { s.sh.checked x with inForce := some x, noBank := false } } 0x2B09 (w16 (s.sh.seqOf x))

theorem shedCheck_good {s : State} {x : Nat} (hx : s.sh.saving = some x) (hok : s.sh.bankOk x = true) :
    s.shedCheck = ((s.bankTaken x).setWide 0x2E15 2 (s.sh.crcOf x)).setFlag 0x2B 0 := by
  simp only [State.shedCheck, hx]
  exact if_pos hok

theorem shedCheck_bad {s : State} {x : Nat} (hx : s.sh.saving = some x) (hok : s.sh.bankOk x = false) :
    s.shedCheck = State.setFlag { s with sh := s.sh.checked x } 0x2B 1 := by
  simp only [State.shedCheck, hx]
  exact if_neg (by simp [hok])

theorem reg_shedCheck_good {s : State} {x : Nat} (hx : s.sh.saving = some x) (hok : s.sh.bankOk x = true) {a : Nat} (ha : a ≠ 0x2E02) :
    s.shedCheck.reg a = if a = 0x2B03 then s.reg a ||| 1 else if 0x2E15 ≤ a ∧ a < 0x2E17 then wordAt (s.sh.crcOf x) (a - 0x2E15)
      else if a = 0x2B09 then w16 (s.sh.seqOf x) else s.reg a := by
  have htaken : (s.bankTaken x).reg a = if a = 0x2B09 then w16 (s.sh.seqOf x) else s.reg a := reg_setReg ..
  rw [shedCheck_good hx hok, reg_setFlag, reg_setWide (b := 0x2E15) ha, htaken]
  by_cases hflag : a = 0x2B03
  · subst hflag
    rfl
  · rw [if_neg hflag, if_neg hflag]

/-- The bank that passes is in force with its SEQ and its CRC. -/
theorem shedCheck_good_spec {s : State} {x : Nat} (hx : s.sh.saving = some x) (hok : s.sh.bankOk x = true) :
    s.shedCheck = { s with regs := s.shedCheck.regs, flagged := s.shedCheck.flagged, sh := s.shedCheck.sh } ∧
      s.shedCheck.sh = { s.sh.checked x with inForce := some x, noBank := false } ∧
      s.shedCheck.wide 0x2E15 2 = s.sh.crcOf x % 2 ^ 32 := by
  have hwide := regsOnly_setWide (s.bankTaken x) 0x2E15 2 (s.sh.crcOf x)
  rw [State.regsOnly] at hwide
  refine ⟨?_, ?_, ?_⟩
  · rw [shedCheck_good hx hok, hwide]
    rfl
  · rw [shedCheck_good hx hok, hwide]
    rfl
  · rw [← wide_setWide (s := s.bankTaken x) (b := 0x2E15) (n := 2) (v := s.sh.crcOf x) (by decide), shedCheck_good hx hok]
    exact wide_congr fun i hi => (reg_setFlag ..).trans (if_neg (by omega))

/-- Settles O37: the bank read back takes effect with its SEQ and DONE (`shedCheck_good_spec`), or FAIL alone is set. -/
theorem saveChecked : Obligations.SaveChecked := by
  intro s x hread hx hdue
  have hexec : exec .shedSaveReadbackDone s = .next s.shedCheck := congrArg Host.Outcome.next (if_pos (by rw [hread, hdue]; rfl))
  have hbytes := bytesKept_of_keeps (kept_State_shedCheck (.refl s))
  cases hok : s.sh.bankOk x with
  | true =>
    obtain ⟨hframe, hsh, hcrc⟩ := shedCheck_good_spec hx hok
    have hreg {a : Nat} (ha : a ≠ 0x2E02) := reg_shedCheck_good hx hok ha
    refine ⟨_, hexec, by rw [hsh]; rfl, by rw [hsh]; rfl, fun _ => ⟨by rw [hsh], by rw [hsh], hreg (by decide), hcrc,
      hreg (by decide), fun a ha => ?_⟩, nofun, hframe, hbytes⟩
    simp only [List.mem_cons, List.not_mem_nil, or_false, not_or] at ha
    obtain ⟨hdone, hseq, hstale, hlo, hhi⟩ := ha
    rw [hreg hstale, if_neg hdone, if_neg (by omega), if_neg hseq]
  | false =>
    obtain ⟨hframe, hfail, hkept⟩ := setFlag_spec { s with sh := s.sh.checked x } 0x2B 1
    rw [← shedCheck_bad hx hok] at hframe hfail hkept
    have hsh : s.shedCheck.sh = s.sh.checked x := by rw [hframe]
    exact ⟨_, hexec, by rw [hsh]; rfl, by rw [hsh]; rfl, nofun, fun _ => ⟨by rw [hsh]; rfl, hfail, hkept⟩, by rw [hframe], hbytes⟩

end Machine
end Sys2Proof
end

section
/-! SUPPORT. The Shed's stored bytes: only the end of a page program changes them (R318, R325). -/

namespace Sys2Proof
namespace Machine

/-- Every command but the end of a page program keeps the clock, the queue, the factory area and the Shed's memory. -/
theorem exec_holds {i : Instr} (hi : i ≠ .shedPageProgramDone) (s : State) : ∃ t, exec i s = .next t ∧ Holds s t := by
  have k := Keeps.refl s
  have kc := kept_State_countHc k
  cases i with
  | read f | write f | writea f | grant f | credit f | resend f | tsync f | rebase f | dbgctlStatus f | dbgctlHalt f | dbgctlRun f
  | dbgctlStep f | dbgrd f | dbgwr f | abort f => exact ⟨_, rfl, holds_request s f⟩
  | responseReady => exact ⟨_, rfl, holds_responseReadyOp s⟩
  | postedWordApply => exact ⟨_, rfl, holds_postedApply s⟩
  | registerWrite a v => exact ⟨_, rfl, holds_registerWrite s a v⟩
  | wideValueCommit a v => exact ⟨_, rfl, (holds_hostWrite s a v).ite⟩
  | timerModeChange | timerArm | timerSwcap => exact ⟨_, rfl, (holds_hostWrite s _ _).ite⟩
  | iset | lock | save | forget | toneCommit | toneSnap | sieveRsync | laneBlankWrite | igo | timerSync | queueSnap | queueReplay =>
    exact ⟨_, rfl, holds_hostWrite s _ _⟩
  | goActive | goWatch | goDormant | goService | reset | selfcal | calzero | calpoint | calsolve | caltrace | caltick | opentest
  | faillane => exact ⟨_, rfl, holds_sysCmd s _ _⟩
  | hclkfWrite | gaugeEnable => exact ⟨_, rfl, kc.holds.trans (holds_hostWrite _ _ _)⟩
  | svcoefDataAccess w | ucdataAccess w =>
    cases w with
    | some v => exact ⟨_, rfl, holds_hostWrite s _ v⟩
    | none => exact ⟨_, rfl, (kept_State_hostRead k).holds⟩
  | rcRead | hiddDataRead => exact ⟨_, rfl, (kept_State_hostRead k).holds⟩
  | wideValueLatchRead | wideValueHighRead => exact ⟨_, rfl, (kept_State_hostRead k).ite.holds⟩
  | foldback | regbo | wdog => exact ⟨_, rfl, (holds_hardReset s _ _ _).ite⟩
  | por => exact ⟨_, rfl, holds_hardReset s _ _ _⟩
  | thermal => exact ⟨_, rfl, holds_thermalOp s⟩
  | thermalDeferralExpiry => exact ⟨_, rfl, holds_deferredShutdown s⟩
  | writeAbort150c =>
    refine ⟨_, rfl, ?_⟩
    split
    · exact .refl s
    · exact holds_hardReset s _ _ _
  | shedPageProgramDone => exact absurd rfl hi
  | syncerr => exact ⟨_, rfl, (kept_State_setFlag k).ite.holds⟩
  | attnReassert => exact ⟨_, rfl, (kept_State_attnUpdate k).ite.holds⟩
  | hclkStop => exact ⟨_, rfl, (kept_State_stopOp k).holds⟩
  | absenceTimerTrip => exact ⟨_, rfl, (kept_State_tripOp k).holds⟩
  | hclkResume => exact ⟨_, rfl, (kept_State_resumeOp k).holds⟩
  | jump => exact ⟨_, rfl, (kept_State_jumpOp k).holds⟩
  | delayLineLock => exact ⟨_, rfl, (kept_State_delayLock k).holds⟩
  | hclkMeasurement => exact ⟨_, rfl, (kept_State_measureOp k).holds⟩
  | firstHclkEdge => exact ⟨_, rfl, (kept_State_firstEdge k).holds⟩
  | slewEnd => exact ⟨_, rfl, (kept_State_writeAnchor k).ite.holds⟩
  | qualificationRestart => exact ⟨_, rfl, k.holds⟩
  | vphQualified | foldbackOpenEnd | thermalRelease | railRestored => exact ⟨_, rfl, (kept_State_phaseStep k).holds⟩
  | softStartDone | resetCircuitCyclesDone => exact ⟨_, rfl, (kept_State_beginStep2 k).ite.holds⟩
  | ilim => exact ⟨_, rfl, (kept_State_wireFlag k).ite.holds⟩
  | vphLow => exact ⟨_, rfl, (kept_ite (fun _ => k) fun _ => kept_State_wireFlag (kept_pw s _)).holds⟩
  | vphHigh => exact ⟨_, rfl, (kept_State_wireFlag k).holds⟩
  | vphLowClear | thermalWarnClear | limiterReleased => exact ⟨_, rfl, (kept_pw s _).holds⟩
  | limiterEngaged => exact ⟨_, rfl, (kept_pw s _).ite.holds⟩
  | esdHit => exact ⟨_, rfl, (kept_State_addSat8 (kept_State_setFlag k)).ite.holds⟩
  | thwarn => exact ⟨_, rfl, (kept_State_setFlagIf (kept_pw s _)).holds⟩
  | shedBankSelection => exact ⟨_, rfl, (kept_State_selectionOp k).holds⟩
  | shedSaveReadbackDone => exact ⟨_, rfl, (kept_State_shedCheck k).ite.holds⟩
  | refRdy => exact ⟨_, rfl, (kept_State_refSettled k).ite.holds⟩
  | reffail => exact ⟨_, rfl, (kept_State_refFallback k).ite.holds⟩
  | refout => exact ⟨_, rfl, (kept_State_refLeaves k).holds⟩
  | refxEntersWindow => exact ⟨_, rfl, (kept_State_refEnters k).holds⟩
  | automode => exact ⟨_, rfl, Keeps.holds (Keeps.ite ⟨rfl, rfl, rfl, rfl, rfl, rfl, rfl, rfl, rfl, id, id⟩)⟩
  | frameBoundary => exact ⟨_, rfl, (kept_State_boundaryOp kc).holds⟩
  | dormantModeSet => exact ⟨_, rfl, (kept_State_dormantSet k).ite.holds⟩
  | hostWakeRequest => exact ⟨_, rfl, (kept_State_hostWake k).holds⟩
  | dormantExitStart => exact ⟨_, rfl, (kept_State_exitStart k).holds⟩
  | epochReport => exact ⟨_, rfl, (kept_State_epochReportOp k).ite.holds⟩
  | slotEnd => exact ⟨_, rfl, (kept_State_slotEndOp k).holds⟩
  | recordsReady => exact ⟨_, rfl, (kept_State_recordsDue k).holds⟩
  | ntrip => exact ⟨_, rfl, (kept_State_tripNow k).ite.holds⟩
  | waterMapUpdate => exact ⟨_, rfl, (kept_State_waterUpdate k).holds⟩
  | outputReady => exact ⟨_, rfl, (kept_State_outputsReady k).holds⟩
  | trellisOutput => exact ⟨_, rfl, (kept_State_trellisNext k).holds⟩
  | stuck => exact ⟨_, rfl, (kept_State_stuckOpen k).holds⟩
  | ovld => exact ⟨_, rfl, (kept_State_overload k).holds⟩
  | blankAssert | blankDeassert => exact ⟨_, rfl, (kept_State_blankCome k).holds⟩
  | pauseEnd => exact ⟨_, rfl, (kept_State_tailEnd k).holds⟩
  | blanked => exact ⟨_, rfl, (kept_State_blankedOp k).holds⟩
  | blankChatter => exact ⟨_, rfl, (kept_State_chatterOp k).holds⟩
  | blankStuck => exact ⟨_, rfl, (kept_State_stuckOp k).holds⟩
  | vsyncEdge =>
    refine ⟨_, rfl, Keeps.holds ?_⟩
    split
    · exact kept_ite (fun _ => kept_State_vsyncOp (kept_State_countHc (kept_State_vsTake k))) fun _ => kept_State_vsTake k
    · exact kept_State_vsyncPin k
  | vlost => exact ⟨_, rfl, (kept_ite (fun _ => k) fun _ => kept_State_vsyncLost k).holds⟩
  | injectedSequenceTrigger => exact ⟨_, rfl, (kept_State_injTrigger k).holds⟩
  | injectedSequenceEnd => exact ⟨_, rfl, (kept_State_injDone k).holds⟩
  | exitRampEnd => exact ⟨_, rfl, (kept_State_injRampEnd k).holds⟩
  | scarecrowCycle => exact ⟨_, rfl, (kept_State_cycleOp k).holds⟩
  | timerWrap => exact ⟨_, rfl, (kept_State_wrapOp k).holds⟩
  | timerCapture => exact ⟨_, rfl, (kept_State_captureOp k).holds⟩
  | timerMeasureStart => exact ⟨_, rfl, (kept_State_measureStart kc).holds⟩
  | timerMeasureStop => exact ⟨_, rfl, (kept_State_measureStop kc).holds⟩
  | gaugePeriod => exact ⟨_, rfl, (kept_State_gaugePeriodOp k).ite.holds⟩
  | gaugeFreqEdge => exact ⟨_, rfl, (kept_State_gaugeEdgeOp k).ite.holds⟩

/-- Settles O60: `exec_held` for the clock, the queue and the factory area, `exec_holds` for the bytes. -/
theorem commandsKeepClockAndShed : Obligations.CommandsKeepClockAndShed := by
  intro i s
  obtain ⟨t, hexec, held⟩ := exec_held i s
  refine ⟨t, hexec, held.now, held.ft, held.pending, held.fac, fun hi a => ?_⟩
  obtain ⟨u, hu, holds⟩ := exec_holds hi s
  obtain rfl : t = u := Host.Outcome.next.inj (hexec.symm.trans hu)
  rw [holds.mem]

end Machine
end Sys2Proof
end
